-- ==== Sys2Proof/Word.lean ====
section
/-! DEFINITION. The word types of the module and their plainest arithmetic: bytes, fields of a bit string (bit 0 least
significant, 00_scope Conventions) and the little-endian byte order of R6. -/

namespace Sys2Proof

/-- One byte of a device, host or object memory. -/
abbrev Byte := BitVec 8

/-- A 32-bit register or payload word. -/
abbrev Word := BitVec 32

/-- A 64-bit A register, tick count or object word. -/
abbrev Word64 := BitVec 64

/-- A descriptor, matrix, drain, DMA or send descriptor, dispatch record, slot header or packet header: 64 bytes. -/
abbrev Line := BitVec 512

/-- The number held in the field x[hi:lo]. -/
def fieldNat {w : Nat} (x : BitVec w) (hi lo : Nat) : Nat := x.toNat / 2 ^ lo % 2 ^ (hi + 1 - lo)

/-- The bit x[i]. -/
def bitAt {w : Nat} (x : BitVec w) (i : Nat) : Bool := x.toNat.testBit i

/-- The field x[lo + n - 1 : lo] as a bit vector of n bits. -/
def slice {w : Nat} (x : BitVec w) (lo n : Nat) : BitVec n := BitVec.ofNat n (x.toNat / 2 ^ lo)

/-- x with the n bits from lo replaced by the low n bits of v. -/
def putField {w : Nat} (x : BitVec w) (lo n v : Nat) : BitVec w :=
  BitVec.ofNat w (x.toNat - x.toNat / 2 ^ lo % 2 ^ n * 2 ^ lo + v % 2 ^ n * 2 ^ lo)

/-- The number read from a little-endian run of bytes (R6). -/
def leNat : List Byte → Nat
  | [] => 0
  | b :: bs => b.toNat + 256 * leNat bs

/-- The low n bytes of a number, least significant byte first (R6). -/
def leBytes : Nat → Nat → List Byte
  | 0, _ => []
  | n + 1, v => BitVec.ofNat 8 v :: leBytes n (v / 256)

/-- The two's complement reading of the low n bits of v. -/
def signed (n v : Nat) : Int :=
  let u := v % 2 ^ n
  if 2 ^ n ≤ 2 * u then (u : Int) - 2 ^ n else u

/-- The low n bits, in two's complement, of an integer. -/
def unsigned (n : Nat) (i : Int) : Nat := (i % (2 ^ n : Int)).toNat

/-- A count of w bits that stops at its maximum. -/
def satAdd (w v n : Nat) : Nat := min (v + n) (2 ^ w - 1)

/-- The quotient rounded up. -/
def ceilDiv (a b : Nat) : Nat := (a + b - 1) / b

/-- The list cut into runs of n (n at least 1), the last shorter. -/
def chunksAux {α : Type} (n : Nat) : Nat → List α → List (List α)
  | 0, _ => []
  | _, [] => []
  | k + 1, x :: xs => (x :: xs).take n :: chunksAux n k ((x :: xs).drop n)

/-- The list cut into runs of n, the last shorter; no run for n = 0. -/
def chunks {α : Type} (n : Nat) (xs : List α) : List (List α) :=
  if n = 0 then [] else chunksAux n xs.length xs

end Sys2Proof
end

