-- ==== Sys2Proof/Config.lean ====
section
/-! DEFINITION. What one part fixes and the spec leaves open, and the functions of external standards that the spec names and
does not restate: constants without a body, so that no proof can lean on a value of theirs. -/

namespace Sys2Proof

/-- The chroma sampling of a decoded picture: none, 4:2:0 or 4:2:2 (R227). -/
inductive Chroma where
  | mono | c420 | c422
  deriving DecidableEq, Repr

/-- A decoded picture: its luma samples, row by row, then the Cb and the Cr samples of its chroma sampling (R227). -/
structure Picture where
  randomAccess : Bool
  width : Nat
  height : Nat
  chroma : Chroma := .c420
  samples : List (BitVec 16)
  deriving DecidableEq, Repr

/-- What decoding an access unit gives: the picture, the stored pictures that stay as references, whether this one becomes one, and the
engine's other state after it (R227). -/
structure Decoded where
  pic : Picture
  keeps : List Nat
  keepNew : Bool
  state : List Byte
  deriving DecidableEq, Repr

/-- The four shares of the power estimate (R413). -/
inductive PowerDomain where
  | links | memory | compute | fixed
  deriving DecidableEq, Repr

/-- What the activity counters count (R412): the operand pair of a k-step by its row of R70, lane operations by their row of R74, a mesh link, a
memory controller, and a port: torus 0 to 5, pair 6, Ethernet 7 and 8, Hawser 9. -/
inductive PowerEvent where
  | issue
  | kStep (pair : Fin 10)
  | laneOp (row : Fin 8)
  | cellBank
  | ticket
  | luma
  | shaped
  | meshFlit (link : Nat)
  | memRead (ctl : Fin 32)
  | memWrite (ctl : Fin 32)
  | activate (ctl : Fin 32)
  | refresh (ctl : Fin 32)
  | laneSlot (port : Fin 10)
  | byteSent (port : Fin 10)
  | byteReceived (port : Fin 10)
  deriving DecidableEq, Repr

end Sys2Proof

namespace Sys2Proof.Config

/-- A value the spec leaves open, by the count of such values taken before (log 3). -/
opaque freeValue (w : Nat) (n : Nat) : BitVec w

/-- The fused maximum frequency in MHz of physical cell p (R60, R484) (DESIGN CHOICE, log 7). -/
opaque fmaxMhz (p : Nat) : Nat

/-- Physical cells that the fuses mark bad (R55, R485). -/
opaque fuseBadCells : List Nat

/-- Physical memory channels that the fuses mark bad. -/
opaque fuseBadChannels : List Nat

/-- Lanes that the fuses mark bad, as port * 8 + lane (R486). -/
opaque fuseBadLanes : List Nat

/-- Decode engines, movers and mesh links that the fuses mark bad, and whether the Ferry is (R481, R486). -/
opaque fuseBadDecode : List Nat
opaque fuseBadMovers : List Nat
opaque fuseBadMesh : List Nat
opaque fuseFerryBad : Bool

/-- The module serial number (R497). -/
opaque serial : BitVec 128

/-- R75: the fixed functions of the vector unit, within 2 ulp of the exact result. -/
opaque vrcp : BitVec 32 → BitVec 32
opaque vrsq : BitVec 32 → BitVec 32
opaque vexp2 : BitVec 32 → BitVec 32
opaque vlog2 : BitVec 32 → BitVec 32

/-- The odd predicate positions that a comparison of 32-bit lanes writes, by the comparison and its operands, so that equal programs on equal
data write equal bits (R102, R103, R183) (log 24). -/
opaque vcmpOdd (cmp : Nat) (a b : BitVec 2048) : BitVec 64

/-- Byte i of what a timetabled transfer whose ranges overlap leaves where its source lies in its destination, by the transfer and the bytes
of its source (R168, R183) (log 157). -/
opaque overlapByte (src dst : Nat) (bytes : List (Option Byte)) (i : Nat) : Byte

/-- The 5 Reed-Solomon check symbols over the 64 data bytes and the 3 bytes of the tag of a line, whose generator the spec does not give (R122). -/
opaque checkCode (data : List Byte) (tag : BitVec 24) : BitVec 40

/-- What the decoder makes of the 72 bytes received of a line with errors in more than 3 symbols: uncorrectable, or data and tag that pass, as
corrected or as undetected (R123). -/
opaque eccBeyond (received : List Byte) : Option (Bool × List Byte × BitVec 24)

/-- The stored pictures that an access unit is decoded from, by the codec, ten_bit, the engine's state for the stream and the unit's packets:
the bitstream standards of R227. -/
opaque decodeRefs (codec : Nat) (tenBit : Bool) (state : List Byte) (unit : List (List Byte)) : List Nat

/-- The decoding of an access unit by the bitstream standards (R227), from the stored pictures it refers to; none where the bitstream is in
error. -/
opaque decode (codec : Nat) (tenBit : Bool) (state : List Byte) (refs : List (Nat × List Byte)) (unit : List (List Byte)) : Option Decoded

/-- Where the chroma samples of a picture lie between the luma samples that they serve, across and down: midway, or on the first of the
two (R232 step 1). -/
opaque chromaMidway (codec : Nat) : Bool × Bool

/-- The 12-byte header of a Hawser flit, whose layout the spec does not give: sequence, acknowledgement and credits (R243). -/
opaque flitHeader (seq : Nat) (nack : Bool) : BitVec 96

/-- The CRC-8 of a slot marker over its bits [55:0], whose polynomial the spec does not give (R278). -/
opaque markerCrc (v : BitVec 56) : BitVec 8

/-- The fixed latency of a torus link in slots, by port and length of cable (R279). -/
opaque linkLatency (port cm : Nat) : Nat

/-- The bytes of a message on the pair port, by its type and body, whose layout the spec does not give (R285, R402). -/
opaque pairBytes (type : BitVec 8) (body : List Byte) : List Byte

/-- The type of a pair-window message on the pair port, which the spec does not give (R408). -/
opaque pairWindowType : BitVec 8

/-- The frame by which a port joins or leaves a multicast group, by IGMPv3 or MLDv2: port address and MAC, IPv6 or not, group (R288). -/
opaque groupReport (v6 : Bool) (mac : BitVec 48) (addr : BitVec 128) (group : Nat) (join : Bool) : List Byte

/-- The words of a message between the management cores and the key keeper, whose types are internal to the firmware (R273). -/
opaque keeperMsg (slot : Nat) (install : Bool) : List (BitVec 32)

/-- The fused unique device secret (R497). -/
opaque uds : BitVec 256

/-- Ed25519 (RFC 8032): the public key of a seed, and the signature of a message. -/
opaque edPublic (seed : BitVec 256) : BitVec 256
opaque edSign (seed : BitVec 256) (msg : List Byte) : BitVec 512

/-- ML-DSA-65 (FIPS 204) with an empty context string: the public key of a seed, the signature of a message, and its verification. -/
opaque mldsaPublic (seed : BitVec 256) : BitVec 15616
opaque mldsaSign (seed : BitVec 256) (msg : List Byte) : BitVec 26472
opaque mldsaVerify (key : BitVec 15616) (msg : List Byte) (sig : BitVec 26472) : Bool

/-- X25519 (RFC 7748) of a private key and a point, and ML-KEM-768 (FIPS 203): the encapsulation key of a seed, and decapsulation. -/
opaque x25519 (key point : BitVec 256) : BitVec 256
opaque kemPublic (seed : BitVec 512) : BitVec 9472
opaque kemDecaps (seed : BitVec 512) (ct : BitVec 8704) : BitVec 256

/-- The private keys of the Kyovis device CA and of the Kyovis root, by their seeds, the ids of the two signing key pairs, and the CA's
name: what the certificates in flash were made with (R501). -/
opaque caEd : BitVec 256
opaque caMldsa : BitVec 256
opaque caId : BitVec 32
opaque caName : BitVec 128
opaque rootEd : BitVec 256
opaque rootMldsa : BitVec 256
opaque rootId : BitVec 32

/-- The image-signing public keys in the boot ROM (R523). -/
opaque imageEd : BitVec 256
opaque imageMldsa : BitVec 15616

/-- The image that a module leaves the factory with: the 4,096-byte header and the image (R522) (log 193). -/
opaque factoryHeader : List Byte
opaque factoryImage : List Byte

/-- The SHA-384 digest of the cell microcode inside an image, whose place in the image the spec does not give (R515, R522). -/
opaque ucodeOf (image : List Byte) : BitVec 384

/-- The fused frequency of process monitor n in MHz, scaled to an operating point and a temperature in eighths of a degree (R556). -/
opaque ringFused (n op : Nat) (temp : Int) : Nat

/-- The fused VCORE voltage of an operating point in mV, before its range (R415). -/
opaque fusedMv (op : Nat) : Nat

/-- The fused range of an operating point's VCORE voltage in mV (R415). -/
def vcoreRange (op : Nat) : Nat × Nat :=
  [(620, 620), (620, 660), (620, 670), (620, 680), (630, 690), (640, 700), (660, 720), (670, 730), (690, 750), (710, 770), (720, 780),
   (740, 800), (750, 810), (770, 830), (790, 850), (820, 850)].getD op (820, 850)

/-- The VCORE voltage of an operating point in mV (R415). -/
def vcoreMv (op : Nat) : Nat := max (vcoreRange op).1 (min (vcoreRange op).2 (fusedMv op))

/-- The fused energy weights, in µW averaged over an interval per event (R413). -/
opaque eventWeight (e : PowerEvent) : Nat

/-- The fused leakage table: µW of a domain by rail voltage in mV and temperature in eighths of a degree (R413). -/
opaque leakage (d : PowerDomain) (mv : Nat) (temp : Int) : Nat

/-- The fused regulator table: the conversion loss of a domain in µW by the power it takes (R413). -/
opaque conversionLoss (d : PowerDomain) (power : Nat) : Nat

/-- Memory's dynamic power in µW at a throttle of m sixteenths, from that of the interval and the throttle then (R421, R424): the counters do
not tell the classes of R144 apart, and the spec gives no formula (log 192). -/
opaque memoryAt (dynamic now m : Nat) : Nat

/-- The current of rail n in mA by the four shares in µW: links, memory, compute, fixed (R434) (log 192). -/
opaque railMilliamps (n links memory compute fixed : Nat) : Nat

/-- Ed25519 verification of an operator's signature under an operator key (R386). -/
opaque edVerify (key : BitVec 256) (msg : List Byte) (sig : BitVec 512) : Bool

/-- The revision of the plan that a digest in a partner record belongs to, which no report carries (R371 found). -/
opaque planRevOf (digest : Nat) : BitVec 16

end Sys2Proof.Config
end

