-- ==== Sys2Proof/Syntax.lean ====
section
/-! DEFINITION. The commands of the module: ONE inductive, one constructor per row of spec/opcode_table.json, with the
types their operands use. An operand is what the outside (or the die's physics) brings to the event; everything else is
read from the state. -/

namespace Sys2Proof

/-- The two thread states of a cell (03 R53). -/
inductive Thread where
  | fg | tr
  deriving DecidableEq, Repr, Inhabited

/-- An end as in finding records (R371): rack, slot; 0xFFFF is a clock board or unknown. -/
abbrev End := BitVec 16

/-- The mailboxes the host can write (R269). -/
inductive HostBox where
  | h | f
  deriving DecidableEq, Repr

/-- A flit that fails on a link: one of the module's, by its sequence number, or one that the module received, as its bytes, on the Hawser link
(R243) or the pair link (R285). -/
inductive FlitLoss where
  | sent (seq : Nat)
  | received (flit : List (BitVec 8))
  | pairSent (seq : Nat)
  | pairReceived (flit : List (BitVec 8))
  deriving DecidableEq, Repr

/-- A write of the host into a doorbell page: its offset, its size in bytes and its word (R250). -/
structure PageWrite where
  offset : BitVec 12
  bytes : Nat
  value : BitVec 32
  deriving DecidableEq, Repr

/-- What the adapter sends beside tag, gen and err: the type of its message, 0x11 for read data, and the bytes (R244). -/
structure AdapterData where
  type : BitVec 8
  bytes : List (BitVec 8)
  deriving DecidableEq, Repr

/-- An access of the host to a register: REG_WR with its word, or REG_RD with its tag (R248). -/
inductive RegAccess where
  | write (value : BitVec 32)
  | read (tag : BitVec 10)
  deriving DecidableEq, Repr

/-- The three sets of mailboxes (R269): host to firmware, firmware to host, cores and key keeper. -/
inductive Box where
  | h | f | k
  deriving DecidableEq, Repr

/-- A read of a mailbox word: by the receiver or the sender, at an offset, with the tag of a read by the host (R269). -/
structure MboxRead where
  byReceiver : Bool
  offset : BitVec 8
  tag : BitVec 10
  deriving DecidableEq, Repr

/-- Who waits on a sync object: a thread of a cell, or a SYNC_WAIT descriptor (R83, R267). -/
inductive Waiter where
  | thread (c : Fin 128) (t : Thread)
  | desc (sq : Fin 256) (slot : BitVec 16)
  deriving DecidableEq, Repr

/-- What another member of a set answers when the lead asks it to reserve at a phase (R163): the reason code of R164, 0 for FIT. -/
structure MemberAnswer where
  member : Fin 512
  phase : BitVec 48
  reason : BitVec 8
  deriving DecidableEq, Repr

/-- What the lead relays to a member (R159, R160). -/
inductive Relay where
  | arm (phase : BitVec 48) (argAddr : BitVec 48) (quiet : Bool)
  | release (now : Bool)
  deriving DecidableEq, Repr

/-- What a member answers to a relayed TIMETABLE_ARM: it arms, its object's digest differs, its argument table does not lie as it must, or a
line of the object fails with a tag mismatch or a memory error (R158, R590, R591). -/
inductive ArmAnswer where
  | ok
  | digest
  | args
  | stale (line : BitVec 48)
  | memErr (line : BitVec 48)
  deriving DecidableEq, Repr

/-- The program or memory fault that ended a member's part of an instance: result0, result1 and detail of R257 (R174). -/
structure MemberFault where
  r0 : BitVec 64
  r1 : BitVec 64
  detail : BitVec 32
  deriving DecidableEq, Repr

/-- A member's status of one period (R173): the kinds of R171 among its entries and transfers, and the fault that cut the period (R174). -/
structure MemberReport where
  member : Fin 512
  period : Nat
  lateStart : Bool
  lateStep : Bool
  lateEnd : Bool
  failed : Bool
  aborted : Bool
  fault : Option MemberFault := none
  deriving DecidableEq, Repr

/-- Errors of a line as its read finds them: symbols, numbered over 64 data bytes, 3 tag bytes and 5 check bytes, with their wrong bits (R123). -/
abbrev SymbolErrors := List (Fin 72 × BitVec 8)

/-- A torus packet: its 64-byte header and its payload (R306). -/
structure Packet where
  hdr : BitVec 512
  payload : List Byte
  deriving DecidableEq, Repr

/-- What comes in at a torus port: a packet, and the marker of the slot it came in (R279, R306). -/
structure Arrival where
  pkt : Option Packet
  marker : Option (BitVec 64)
  deriving DecidableEq, Repr

/-- Who sends a management report, and the epoch that its envelope bears (R392, R398). -/
structure Sender (α : Type) where
  epoch : BitVec 32
  agent : α
  deriving DecidableEq, Repr

/-- What a module says of its power: its demand, and whether it runs in per-rail current mode (R25, R406). -/
structure PowerDemand where
  demand : BitVec 16
  perRail : Bool
  deriving DecidableEq, Repr

/-- What a trim update measures: the input voltage in mV and current in mA, and the regulators' current telemetry in mA (R414, R434). -/
structure SupplyReading where
  inputMv : Nat
  inputMa : Nat
  railMa : List Nat
  deriving DecidableEq, Repr

/-- What the checks at the end of a reset find: whether a cell's read-back is good, and which cells or channels of a group fail theirs (R452, R133). -/
structure ReadBack where
  ok : Bool
  bad : BitVec 8
  deriving DecidableEq, Repr

/-- What a re-send timer serves: a destination module or a multicast tree (R323). -/
inductive ResendKey where
  | dst (module : Fin 512)
  | tree (tree : BitVec 12)
  deriving DecidableEq, Repr

/-- The four tables of a route bank (R335). -/
inductive RtTable where
  | dest | port | flow | tree
  deriving DecidableEq, Repr

/-- An input of a management cycle as a COPY lists it (R392, R402). -/
inductive WmInput where
  | partner (agent : End) (record : BitVec 1024) (port : Fin 7) (lanes : BitVec 4)
  | drained (agent : Fin 512) (version : BitVec 16)
  | mismatch (agent : Fin 512) (seq : BitVec 32) (byStandby : Bool)
  | state (agent : End) (code : BitVec 8) (stage : BitVec 32) (demand : BitVec 16) (perRail : Bool)
  | path (agent : End) (unreachable : Option (Fin 512)) (port : Fin 7) (lanes : BitVec 4)
  | present (who : End) (code : BitVec 8) (stage : BitVec 32)
  | operator (hdr : BitVec 256) (payload : List Byte)
  | answer (agent : Fin 512) (result : BitVec 8) (seq : BitVec 32)
  deriving DecidableEq, Repr

/-- What one power sample interval brings (R412, R413, R552, R555, R556): the counters, those of the trickle thread marked true, and the readings
renewed: temperatures, voltage monitors in mV, process monitors in MHz. -/
structure PowerSample where
  counts : List (PowerEvent × Bool × Nat)
  readings : List (Fin 64 × BitVec 12)
  volts : List (Fin 32 × Nat)
  rings : List (Fin 24 × Nat)
  deriving DecidableEq, Repr

/-- The rails in their sequencing order (R576, R578). -/
inductive Rail where
  | aux | vser | vpp | vsram | vcore | vddq
  deriving DecidableEq, Repr, Inhabited

/-- A reading that can go out of range in service (R580). -/
inductive RailPoint where
  | rail (r : Rail)
  | aux18
  | input54
  deriving DecidableEq, Repr

/-- The engines of the 1 ms watchdog (R450). -/
inductive Engine where
  | mover (n : Fin 32)
  | ferry
  deriving DecidableEq, Repr

/-- A reset domain instance below a cold reset (R444). -/
inductive Domain where
  | cell (c : Fin 128)
  | group (g : Fin 16)
  | memGroup (m : Fin 32)
  | ferry
  | intake
  | hawser
  | port (p : Fin 6)
  | compute
  deriving DecidableEq, Repr

/-- The causes of a compute warm reset (R445). -/
inductive WarmCause where
  | heartbeat | resetReq | thermal | escalation | rstCmd | firmware
  deriving DecidableEq, Repr

/-- The causes of a cold reset (R445). -/
inductive ColdCause where
  | powerOn | resetN | resetReq | thermal | escalation | console
  deriving DecidableEq, Repr

/-- What the mode registers of an LPDDR6 package say (R130, R131): vendor, revision, density in GiB, and the temperature in eighths of a °C. -/
structure PackageSeen where
  vendor : BitVec 8 := 0
  revision : BitVec 16 := 0
  gib : Nat := 24
  temp : BitVec 12 := 0
  deriving DecidableEq, Repr

/-- What a bring-up stage observed of the hardware (R477 to R491): each stage reads the fields that are its own. -/
structure StageSeen where
  /-- stage 0: the voltage monitors, in mV, that do not read nominal, and the temperature sensors that do not read 25 °C, none where a sensor
  gives no valid reading (R580) -/
  volts : List (Fin 32 × Nat) := []
  temps : List (Fin 64 × Option (BitVec 12)) := []
  /-- stage 0: the Towpath transceiver passes its internal loopback test (R295) -/
  loopbackOk : Bool := true
  /-- stage 1: a slot cannot be read from flash (R480) -/
  flashBad : Bool × Bool := (false, false)
  /-- stage 2: fuse CRCs good -/
  fuseCrcOk : Bool := true
  /-- stage 3: what each package answers, none where it does not (a package not listed answers with the defaults); physical channels failing the
  read check of their saved training values, training, patterns (R130, R131, R481); the values that training finds -/
  packages : List (Option PackageSeen) := []
  readBad : List (Fin 256) := []
  trained : List (Fin 256 × List (BitVec 8)) := []
  trainBad : List (Fin 256) := []
  patternBad : List (Fin 256) := []
  /-- stage 4: physical cells failing self-test or read-back, decode engines failing self-test, ferry march test -/
  cellBad : List (Fin 136) := []
  decodeBad : List (Fin 16) := []
  ferryBad : Bool := false
  /-- stage 5: mesh links failing patterns -/
  meshBad : List (BitVec 16) := []
  /-- stage 7: Hawser lanes (0, 4, 8), adapter port, Ethernet links, DHCP answered -/
  hawserLanes : Nat := 0
  adapterPort : BitVec 2 := 0
  ethUp : Bool × Bool := (false, false)
  dhcpOk : Bool := false
  /-- stage 7: the addresses that DHCP gave the ports -/
  dhcpAddr : BitVec 128 × BitVec 128 := (0, 0)
  deriving DecidableEq, Repr

/-- One pair-window row as it arrives over the pair port (R408, R509). -/
structure PairWrite where
  ctx : BitVec 6
  addr : BitVec 48
  data : List Byte
  keySlot : BitVec 4
  keyGen : BitVec 6
  count : BitVec 64
  tag : BitVec 128
  deriving DecidableEq, Repr

/-- The commands: one constructor per row of spec/opcode_table.json. -/
inductive Instr where
  /-- NOP (R259): Descriptor that does nothing and completes with OK -/
  | nop (sq : Fin 256)
  /-- COPY (R140): Mover copies data between device, host or remote module addresses -/
  | copy (sq : Fin 256)
  /-- FILL (R140): Mover writes a repeated 64-bit pattern over a device range -/
  | fill (sq : Fin 256)
  /-- PROGRAM_LOAD (R264): Loads a checked program image into the instruction memory of every named cell -/
  | programLoad (sq : Fin 256)
  /-- WEIGHT_LOAD (R265): Copies a weight object from the host into LPDDR6 and records its digest for attestation -/
  | weightLoad (sq : Fin 256)
  /-- LAUNCH_OPEN (R266): Starts the foreground thread at a bundle on every named cell, outside owned time -/
  | launchOpen (sq : Fin 256)
  /-- TRICKLE_SUBMIT_PROGRAM (R176): Queues a trickle program run on the trickle queue -/
  | trickleSubmitProgram (sq : Fin 256)
  /-- TRICKLE_SUBMIT_PREFETCH (R176): Queues a prefetch copy on the trickle queue -/
  | trickleSubmitPrefetch (sq : Fin 256)
  /-- TIMETABLE_LOAD (R156): Checks a timetable object and loads it under a handle of the context -/
  | timetableLoad (sq : Fin 256)
  /-- TIMETABLE_ARM (R160): Arms an admitted instance at its phase frame; completes only when the instance becomes free -/
  | timetableArm (sq : Fin 256) (answers : List (Fin 512 × ArmAnswer))
  /-- STREAM_ADMIT (R163): Lead searches the phase window for a phase every member accepts and reserves resources -/
  | streamAdmit (sq : Fin 256) (answers : List MemberAnswer)
  /-- STREAM_RELEASE (R161): Releases an instance, at once or at the end of the current period -/
  | streamRelease (sq : Fin 256)
  /-- SYNC_SIGNAL_ADD (R267): Adds a signed value to a sync object -/
  | syncSignalAdd (sq : Fin 256)
  /-- SYNC_SIGNAL_ALLOCATE (R267): Allocates the lowest run of free sync objects to the context -/
  | syncSignalAllocate (sq : Fin 256)
  /-- SYNC_SIGNAL_RELEASE (R267): Frees a range of sync objects owned by the context -/
  | syncSignalRelease (sq : Fin 256)
  /-- SYNC_WAIT (R267): Waits until a sync object's count reaches a target, times out or is aborted -/
  | syncWait (sq : Fin 256)
  /-- SYNC_WAIT_TIMEOUT (R267): A SYNC_WAIT reaches timeout_ms and completes with TIMEOUT -/
  | syncWaitTimeout (sq : Fin 256) (slot : BitVec 16)
  /-- PHASE_HINT (R180): Records a barrier window for current flattening of the context's cells -/
  | phaseHint (sq : Fin 256)
  /-- FERRY_PLACE_WRITE (R193): Copies placement entries into the session's inactive bank -/
  | ferryPlaceWrite (sq : Fin 256)
  /-- FERRY_PLACE_SWAP (R194): Swaps placement banks from a given step, completing when old-bank tickets retire -/
  | ferryPlaceSwap (sq : Fin 256)
  /-- FERRY_OPEN_OPEN (R190): Opens a Ferry session for the context -/
  | ferryOpenOpen (sq : Fin 256)
  /-- FERRY_OPEN_CLOSE (R190): Closes the context's Ferry session and retires its tickets -/
  | ferryOpenClose (sq : Fin 256)
  /-- KEY_INSTALL (R506): Unwraps a tenant key blob into a key slot at a target generation -/
  | keyInstall (sq : Fin 256)
  /-- TENANT_REMOVE (R512): Removes every context using a key slot in stop, fence, wait, cut, end and complete steps -/
  | tenantRemove (sq : Fin 256)
  /-- TENANT_REMOVE_WAIT_END (R512): Removal wait ends when tenant work reaches 0 or remove_wait expires, and the cut begins -/
  | tenantRemoveWaitEnd
  /-- ATTEST (R514): Writes a signed attestation report or an identity certificate to host memory -/
  | attest (sq : Fin 256)
  /-- FW_BLOCK_HEADER (R528): Checks a signed image header and starts a receiving session -/
  | fwBlockHeader (sq : Fin 256)
  /-- FW_BLOCK_STREAM (R528): Writes a block of the difference stream to the staging region -/
  | fwBlockStream (sq : Fin 256)
  /-- FW_BLOCK_ABORT (R528): Discards the update session and any staged image -/
  | fwBlockAbort (sq : Fin 256)
  /-- REBUILD_COMPLETE (R529): Rebuild of the image into the inactive slot ends, staging it or failing -/
  | rebuildComplete (flashOk : Bool)
  /-- FW_ACTIVATE (R530): Starts the activate pause for the staged image -/
  | fwActivate (sq : Fin 256)
  /-- ACTIVATE_PAUSE_END (R532): New image runs, held work resumes and awaiting confirmation begins -/
  | activatePauseEnd (badCells : List (Fin 128))
  /-- CONFIRMATION (R535): New image confirms itself when the health conditions hold, making its slot active -/
  | confirmation
  /-- CONFIRM_WINDOW_EXPIRY (R536): Confirmation window ends unconfirmed and the module falls back -/
  | confirmWindowExpiry
  /-- FW_STATUS (R538): Writes the 128-byte update status report -/
  | fwStatus (sq : Fin 256)
  /-- CONTEXT_CREATE (R262): Creates a context with pages, key slot, slice and host windows -/
  | contextCreate (sq : Fin 256)
  /-- CONTEXT_DESTROY (R263): Ends a non-confidential context and scrubs its pages -/
  | contextDestroy (sq : Fin 256)
  /-- FENCE (R467): Waits for started descriptors in scope, optionally cancels unstarted ones and clears the fault -/
  | fence (sq : Fin 256)
  /-- QUERY_REGISTERS (R268): QUERY selector 0x01 copies register words to host memory -/
  | queryRegisters (sq : Fin 256)
  /-- QUERY_ESCAPE_COUNTERS (R268): QUERY selector 0x02 writes the escape counters of all logical cells -/
  | queryEscapeCounters (sq : Fin 256)
  /-- QUERY_CONTEXT_SUMMARY (R268): QUERY selector 0x03 writes six counts for a context -/
  | queryContextSummary (sq : Fin 256)
  /-- SQ_PRODUCER_INDEX (R250): Doorbell write of a submission ring's producer index, prompting descriptor fetch -/
  | sqProducerIndex (page : Fin 256) (value : PageWrite)
  /-- CQ_CONSUMER_INDEX (R250): Doorbell write of a completion ring's consumer index, freeing entries -/
  | cqConsumerIndex (page : Fin 256) (value : BitVec 32)
  /-- CQ_EVENT_ARM (R250): Doorbell write that arms the event of a completion ring -/
  | cqEventArm (page : Fin 256) (value : BitVec 32)
  /-- HOST_RD_DATA (R244): Read data from the adapter arrives and is matched by tag -/
  | hostRdData (tag : BitVec 10) (gen : BitVec 8) (err : BitVec 2) (data : AdapterData)
  /-- HOST_RD_TIMEOUT (R246): A host read gets no reply within rd_timeout_ms and its command completes with TIMEOUT -/
  | hostRdTimeout (tag : BitVec 10)
  /-- HOLD_MS_EXPIRY (R246): A command waiting for the down link exceeds hold_ms and completes with TIMEOUT -/
  | holdMsExpiry (sq : Fin 256) (slot : BitVec 16)
  /-- CQ_EVENT_TIMER (R253): ev_us after the first record on an armed ring, EVENT is sent -/
  | cqEventTimer (cq : Fin 256)
  /-- HAWSER_LINK_DOWN (R246): Hawser link goes down; fetch stops and records are held -/
  | hawserLinkDown
  /-- HAWSER_LINK_TRAINED (R246): Hawser link trains; held records and events are sent -/
  | hawserLinkTrained (eight : Bool) (adapterPort : BitVec 2)
  /-- HAWSER_LINK_RETRY (R489): A down Hawser link is retried every 1 s -/
  | hawserLinkRetry
  /-- FLIT_REPLAY (R243): A flit with bad CRC is negatively acknowledged and the sender replays -/
  | flitReplay
  /-- REG_WR (R248): Write to a set-up register that has no behaviour of its own -/
  | regWr (offset : BitVec 32) (value : RegAccess)
  /-- GEN_SETUP_LOCK (R543): Writing 1 sets the set-up lock until cold reset -/
  | genSetupLock (value : BitVec 32)
  /-- GEN_SETUP_ERR_CLEAR (R545): Writing 1 to valid clears the recorded set-up error -/
  | genSetupErrClear (value : BitVec 32)
  /-- GEN_AUX (R550): Assigns the AUX pin function once, refusing reassignment -/
  | genAux (value : BitVec 32)
  /-- FRY_TKT_MIN (R216): Sets the ticket partition, refusing minima above 256 units -/
  | fryTktMin (value : BitVec 32)
  /-- FAB_FC (R330): Sets open-class flow thresholds, refusing a broken order -/
  | fabFc (value : BitVec 32)
  /-- FAB_FC2 (R330): Sets management flow thresholds and escape wait, refusing a broken order -/
  | fabFc2 (value : BitVec 32)
  /-- ETH_Q_ENABLE (R290): Write of ETH_Q_n word 0 that enables or disables a queue, checked against its context -/
  | ethQEnable (q : Fin 32) (value : BitVec 32)
  /-- ETH_Q_WORD_WRITE (R545): Write of ETH_Q_n words 1-7, refused while enable is 1 -/
  | ethQWordWrite (q : Fin 32) (w : Fin 8) (value : BitVec 32)
  /-- MBOX_WR (R270): Host write to an H mailbox; the header write sets full -/
  | mboxWr (box : HostBox) (n : Fin 16) (offset : BitVec 8) (value : BitVec 32)
  /-- MBOX_STATUS_READ (R270): Receiver reads a mailbox status word, which clears full and drop -/
  | mboxStatusRead (box : Box) (n : Fin 16) (read : MboxRead)
  /-- SQ_OPEN (R272): Mailbox request to open a submission ring -/
  | sqOpen (n : Fin 16)
  /-- SQ_CLOSE (R272): Mailbox request to close a submission ring -/
  | sqClose (n : Fin 16)
  /-- CQ_OPEN (R272): Mailbox request to open a completion ring -/
  | cqOpen (n : Fin 16)
  /-- CQ_CLOSE (R272): Mailbox request to close a completion ring -/
  | cqClose (n : Fin 16)
  /-- PING (R272): Mailbox request answered with REPLY carrying its data -/
  | ping (n : Fin 16)
  /-- LDL (R92): Loads up to 16 lines of cell memory into V registers -/
  | ldl (c : Fin 128) (t : Thread)
  /-- STL (R92): Stores up to 16 lines from V registers to cell memory -/
  | stl (c : Fin 128) (t : Thread)
  /-- LDA (R92): Loads 8 bytes into an A register -/
  | lda (c : Fin 128) (t : Thread)
  /-- STA (R92): Stores an A register -/
  | sta (c : Fin 128) (t : Thread)
  /-- LDP (R92): Loads 16 bytes into a P register -/
  | ldp (c : Fin 128) (t : Thread)
  /-- STP (R92): Stores a P register -/
  | stp (c : Fin 128) (t : Thread)
  /-- MMA (R94): Queues a tile multiply-accumulate into an accumulator bank -/
  | mma (c : Fin 128) (t : Thread)
  /-- MDRAIN (R94): Queues a conversion and write of a bank's tile to cell memory -/
  | mdrain (c : Fin 128) (t : Thread)
  /-- MLOAD (R94): Queues an add of raw EWA records from memory into a tile -/
  | mload (c : Fin 128) (t : Thread)
  /-- MCLR (R94): Queues a clear of a bank and sets its mode -/
  | mclr (c : Fin 128) (t : Thread)
  /-- MWIN (R94): Writes a window register -/
  | mwin (c : Fin 128) (t : Thread)
  /-- MATRIX_QUEUE_ADVANCE (R71): A matrix instruction leaves the array queue and the next starts its work -/
  | matrixQueueAdvance (c : Fin 128)
  /-- VADD (R102): Vector add -/
  | vadd (c : Fin 128) (t : Thread)
  /-- VSUB (R102): Vector subtract -/
  | vsub (c : Fin 128) (t : Thread)
  /-- VMUL (R102): Vector multiply -/
  | vmul (c : Fin 128) (t : Thread)
  /-- VFMA (R102): Vector fused multiply-add -/
  | vfma (c : Fin 128) (t : Thread)
  /-- VMIN (R102): Vector minimum -/
  | vmin (c : Fin 128) (t : Thread)
  /-- VMAX (R102): Vector maximum -/
  | vmax (c : Fin 128) (t : Thread)
  /-- VCMP (R102): Vector compare into a predicate register -/
  | vcmp (c : Fin 128) (t : Thread)
  /-- VSEL (R102): Vector select by predicate -/
  | vsel (c : Fin 128) (t : Thread)
  /-- VAND (R102): Vector bitwise AND -/
  | vand (c : Fin 128) (t : Thread)
  /-- VOR (R102): Vector bitwise OR -/
  | vor (c : Fin 128) (t : Thread)
  /-- VXOR (R102): Vector bitwise XOR -/
  | vxor (c : Fin 128) (t : Thread)
  /-- VIADD (R102): Vector wrapping integer add -/
  | viadd (c : Fin 128) (t : Thread)
  /-- VCVT (R103): Vector format conversion -/
  | vcvt (c : Fin 128) (t : Thread)
  /-- VQMX (R52): MX quantize of 64 FP32 lanes into 2 blocks -/
  | vqmx (c : Fin 128) (t : Thread)
  /-- VRCP (R75): Vector reciprocal -/
  | vrcp (c : Fin 128) (t : Thread)
  /-- VRSQ (R75): Vector reciprocal square root -/
  | vrsq (c : Fin 128) (t : Thread)
  /-- VEXP2 (R75): Vector exp2 -/
  | vexp2 (c : Fin 128) (t : Thread)
  /-- VLOG2 (R75): Vector log2 -/
  | vlog2 (c : Fin 128) (t : Thread)
  /-- VRED (R76): Sum across lanes by a fixed tree -/
  | vred (c : Fin 128) (t : Thread)
  /-- VMOVA (R102): Broadcasts an A register to every lane -/
  | vmova (c : Fin 128) (t : Thread)
  /-- VEXT (R102): Extracts a lane into an A register -/
  | vext (c : Fin 128) (t : Thread)
  /-- VPSET (R102): Sets the first positions of a predicate register -/
  | vpset (c : Fin 128) (t : Thread)
  /-- ALI (R104): Loads an immediate into an A register -/
  | ali (c : Fin 128) (t : Thread)
  /-- AADDI (R104): Adds an immediate to an A register -/
  | aaddi (c : Fin 128) (t : Thread)
  /-- AADD (R104): Adds two A registers -/
  | aadd (c : Fin 128) (t : Thread)
  /-- AAND (R104): ANDs two A registers -/
  | aand (c : Fin 128) (t : Thread)
  /-- ASHL (R104): Shifts an A register left -/
  | ashl (c : Fin 128) (t : Thread)
  /-- ASHR (R104): Shifts an A register right arithmetically -/
  | ashr (c : Fin 128) (t : Thread)
  /-- DMA (R105): Queues a cell DMA command after its checks -/
  | dma (c : Fin 128) (t : Thread)
  /-- DMA_COMMAND_COMPLETE (R79): A DMA command's last write is accepted and its sync object is updated -/
  | dmaCommandComplete (c : Fin 128)
  /-- DMA_COMMAND_FAULT (R80): An accepted DMA command cannot finish and raises an address fault -/
  | dmaCommandFault (c : Fin 128)
  /-- PAIR_WRITE_TIMEOUT (R408): A pair-window write unaccepted 100 us after its last row completes with rows discarded -/
  | pairWriteTimeout (c : Fin 128)
  /-- SEND (R106): Builds one torus packet from a send descriptor -/
  | send (c : Fin 128) (t : Thread)
  /-- SEND_PAYLOAD_READ (R106): A queued SEND or FERRY has read its payload or record and leaves the MV queue -/
  | sendPayloadRead (c : Fin 128)
  /-- FERRY (R104): Hands a dispatch record to the Ferry -/
  | ferry (c : Fin 128) (t : Thread)
  /-- BR (R108): Unconditional branch -/
  | br (c : Fin 128) (t : Thread)
  /-- BZ (R108): Branch if zero -/
  | bz (c : Fin 128) (t : Thread)
  /-- BNZ (R108): Branch if not zero -/
  | bnz (c : Fin 128) (t : Thread)
  /-- BLT (R108): Branch if less, signed -/
  | blt (c : Fin 128) (t : Thread)
  /-- BGE (R108): Branch if greater or equal, signed -/
  | bge (c : Fin 128) (t : Thread)
  /-- TWA (R109): Waits for an absolute tick -/
  | twa (c : Fin 128) (t : Thread)
  /-- TWR (R109): Waits for a tick relative to step_base -/
  | twr (c : Fin 128) (t : Thread)
  /-- TICK_WAIT_RELEASE (R62): A tick wait releases at its tick, setting the late flag if late -/
  | tickWaitRelease (c : Fin 128)
  /-- STEP (R108): Reads and clears the late flag and advances step_base -/
  | stepOp (c : Fin 128) (t : Thread)
  /-- SETTLE (R110): Waits for selected earlier matrix, DMA and send work to finish -/
  | settle (c : Fin 128) (t : Thread)
  /-- SETTLE_RELEASE (R110): Selected conditions hold and the SETTLE bundle issues -/
  | settleRelease (c : Fin 128) (t : Thread)
  /-- SRD (R108): Reads a sync object -/
  | srd (c : Fin 128) (t : Thread)
  /-- SADD (R108): Adds to a sync object and returns the old object -/
  | sadd (c : Fin 128) (t : Thread)
  /-- SWAIT (R108): Waits until a sync object's count reaches a value -/
  | swait (c : Fin 128) (t : Thread)
  /-- SYNC_WAIT_RELEASE (R83): A sync wait releases on a satisfying add or an abort -/
  | syncWaitRelease (w : Waiter)
  /-- TRAP (R108): Raises a trap fault with an immediate -/
  | trap (c : Fin 128) (t : Thread)
  /-- HALT (R115): Stops the thread's issue -/
  | halt (c : Fin 128) (t : Thread)
  /-- THREAD_WORK_END (R115): All work of a halted thread finishes and its starting descriptor completes -/
  | threadWorkEnd (c : Fin 128) (t : Thread)
  /-- FREQUENCY_SWITCH_END (R61): A cell's glitch-free clock switch completes and issue resumes -/
  | frequencySwitchEnd (c : Fin 128)
  /-- TRICKLE_STOP (R64): Trickle thread stops at awaited tick minus 1 or on a foreground sync release -/
  | trickleStop (c : Fin 128)
  /-- TRICKLE_DISPATCH (R178): Dispatcher gives the next context's oldest entry to an idle trickle thread -/
  | trickleDispatch (c : Fin 128)
  /-- BARRIER_HOLD_START (R181): reserve_ticks before a barrier window, dispatch is held and entries are staged -/
  | barrierHoldStart (window : Nat)
  /-- RAMP_STEP (R181): At each ramp step boundary trickle issue share rises by 1/16 -/
  | rampStep
  /-- CELL_ENTRY_START (R167): An armed cell entry starts its foreground program at its start tick -/
  | cellEntryStart (inst : BitVec 10) (r : Nat)
  /-- OPEN_LAUNCH_PREEMPT (R167): An open launch still running 2 ticks before owned time is stopped with TIMEOUT -/
  | openLaunchPreempt (c : Fin 128)
  /-- TRANSFER_START (R168): An armed mover transfer starts at its start tick, preempting COPY or FILL -/
  | transferStart (inst : BitVec 10) (r : Nat)
  /-- TRANSFER_END (R168): An armed transfer's last write is accepted -/
  | transferEnd (inst : BitVec 10) (r : Nat)
  /-- ENTRY_FAILED (R172): At deadline plus 32,768 ticks a running entry or transfer is marked failed and stopped -/
  | entryFailed (inst : BitVec 10) (r : Nat)
  /-- INSTANCE_ARMED (R160): The instance becomes armed at its phase frame on each member -/
  | instanceArmed (inst : BitVec 10)
  /-- ARM_RELAY (R159): A member receives an ARM or RELEASE relayed by the lead -/
  | armRelay (relay : Relay) (inst : BitVec 10)
  /-- MEMBER_RESERVE (R163): A member tests its object at a proposed phase and holds a reservation -/
  | memberReserve (ctx : BitVec 6) (setId : BitVec 32) (inst : BitVec 10) (phase : BitVec 48) (lead : Fin 512)
  /-- MEMBER_COMMIT (R163): A member commits its held reservation -/
  | memberCommit (inst : BitVec 10) (lead : Fin 512)
  /-- MEMBER_DROP (R163): A member drops its held reservation -/
  | memberDrop (inst : BitVec 10) (lead : Fin 512)
  /-- MEMBER_ANSWER_TIMEOUT (R163): A member gives no answer within 10 ms and counts as refusing -/
  | memberAnswerTimeout (inst : BitVec 10) (member : Fin 512)
  /-- MEMBER_STATUS (R173): Lead receives a member's period status -/
  | memberStatus (inst : BitVec 10) (status : MemberReport)
  /-- STEP_RECORD_DEADLINE (R173): At last deadline plus 49,152 ticks the lead writes the step record, missing members failed -/
  | stepRecordDeadline (inst : BitVec 10) (period : Nat)
  /-- INSTANCE_FREE (R161): Releasing ends and the instance's resources return to Headgate -/
  | instanceFree (inst : BitVec 10)
  /-- FERRY_TOKEN_RECORD (R197): Ferry takes a token record and sends it to the step buffer, parks it, or holds it -/
  | ferryTokenRecord (c : Fin 128)
  /-- FERRY_CLOSE_RECORD (R201): Ferry sends close packets to the home of each valid entry -/
  | ferryCloseRecord (c : Fin 128)
  /-- FERRY_RESULT_RECORD (R202): Ferry sends a home program's result back to the origin -/
  | ferryResultRecord (c : Fin 128)
  /-- RESULT_CHUNK (R208): Origin Ferry checks and combines an arriving result chunk -/
  | resultChunk (hdr : BitVec 512) (payload : List (BitVec 8))
  /-- PARKED_TOKEN_SEND (R211): Ferry sends a parked token to its home at trickle rank -/
  | parkedTokenSend (ticket : BitVec 20)
  /-- OVERFLOW_TOKEN (R212): Home Ferry appends an overflow token to its ring or refuses it -/
  | overflowToken (hdr : BitVec 512) (payload : List (BitVec 8))
  /-- REFUSAL (R212): Origin Ferry takes a refusal, resolves the expert again and parks the ticket -/
  | refusal (hdr : BitVec 512) (payload : List (BitVec 8))
  /-- OVERFLOW_RETRY_TIMER (R218): retry_frames after a refusal the token is sent again -/
  | overflowRetryTimer (ticket : BitVec 20)
  /-- OVERFLOW_IDLE_TIMER (R212): idle_frames with no arrival queue a partial overflow batch -/
  | overflowIdleTimer (ctx : BitVec 6) (entry : Nat)
  /-- OVERFLOW_QUEUE_RETRY (R212): Each link frame a batch blocked by a full trickle queue is tried again -/
  | overflowQueueRetry
  /-- TICKET_TIMEOUT (R207): A timetabled or open ticket not retired in time is retired as lost -/
  | ticketTimeout (ticket : BitVec 20)
  /-- OVERFLOW_TICKET_TIMEOUT (R207): An overflow ticket parked longer than ovf_ms is retired as lost -/
  | overflowTicketTimeout (ticket : BitVec 20)
  /-- SCRUB_PATROL (R146): Patrol scrub reads each line and rewrites correctable or poisons uncorrectable lines -/
  | scrubPatrol (line : BitVec 42) (found : SymbolErrors)
  /-- PAGE_ZEROED (R146): Scrub engine finishes zeroing a page, which becomes free -/
  | pageZeroed (page : Fin 393216)
  /-- REFRESH (R132): Controller refreshes a bank at the package's interval -/
  | refresh (ctl : Fin 32) (bank : BitVec 8)
  /-- READ_RETRACK (R132): Every 100 ms the controller re-tracks read timing -/
  | readRetrack (ctl : Fin 32)
  /-- ETH_FRAME_RECEIVE (R288): A received Ethernet frame takes the first matching path -/
  | ethFrameReceive (port : Fin 2) (fcsOk : Bool) (frame : List (BitVec 8))
  /-- ETH_TRANSMIT (R289): Transmit engine sends the next ring entry while sent count is below tx_sync -/
  | ethTransmit (q : Fin 32)
  /-- REORDER_GAP_TIMEOUT (R225): A sequence gap is declared lost after the reorder window -/
  | reorderGapTimeout (stream : Nat)
  /-- DECODE_COMPLETE (R234): A decode engine finishes an access unit and shaping may start -/
  | decodeComplete (stream : Nat) (engine : Fin 16)
  /-- SHAPING_COMPLETE (R234): Frame shaper's last tile write is accepted -/
  | shapingComplete (stream : Nat)
  /-- READY_TICK (R234): At the ready tick Intake writes frame headers and adds to sync -/
  | readyTick (stream : Nat)
  /-- STALL_TIMEOUT (R236): No packet for stall_ms puts the stream into STALLED -/
  | stallTimeout (stream : Nat)
  /-- PACKET_ROUTE (R313): Router routes the packet at the head of an input VC, forwarding or delivering it -/
  | packetRoute (port : Fin 7) (vc : Fin 6) (arriving : Arrival)
  /-- REDUCTION_CONTRIBUTION (R328): A stored reduction packet is merged into a reduction table entry -/
  | reductionContribution (port : Fin 7) (vc : Fin 6)
  /-- REDUCTION_TIMEOUT (R328): A reduction entry is sent on after timeout_frames -/
  | reductionTimeout (entry : Fin 64)
  /-- REDUCTION_NO_ENTRY_TIMEOUT (R328): A contribution finding no free entry for 1 us is sent on unchanged -/
  | reductionNoEntryTimeout (port : Fin 7) (vc : Fin 6)
  /-- FLOW_STATE_LCB (R317): A received flow-state LCB updates the permissions of the port's VCs -/
  | flowStateLcb (port : Fin 6) (lcb : BitVec 512)
  /-- PARTNER_RECORD_SEGMENT (R284): A partner record segment LCB is received and reported -/
  | partnerRecordSegment (port : Fin 7) (lcb : BitVec 512)
  /-- RETRAIN_REQUEST (R282): Partner asks for a retrain by LCB -/
  | retrainRequest (port : Fin 6) (lcb : BitVec 512)
  /-- ACK_RECEIVED (R323): Source frees acknowledged copies and resets its re-send interval -/
  | ackReceived (src : Fin 512) (ack : BitVec 128)
  /-- ACK_TIMER (R322): Destination sends an acknowledgement after 32 packets or ack delay -/
  | ackTimer (src : Fin 512)
  /-- RESEND_TIMER (R323): Re-send timer expires and unacknowledged packets are sent again -/
  | resendTimer (dst : ResendKey)
  /-- PRUNE_NOTICE (R358): Root removes a pruned module from a tree's awaited set -/
  | pruneNotice (tree : BitVec 12) (seq : BitVec 32) (module : Fin 512)
  /-- SLUICE_DECAY (R329): decay_us without a rise lowers the Sluice level by 1 -/
  | sluiceDecay
  /-- PORT_TRAINING (R281): A torus port trains, measures its cable and chooses its lane set -/
  | portTraining (port : Fin 7) (lanesPass : BitVec 8) (delayPs : Nat)
  /-- LANE_LOCK_LOSS (R282): A lane of the set loses lock and the port retrains -/
  | laneLockLoss (port : Fin 6) (lane : Fin 8)
  /-- FEC_BURST (R282): More than 16 uncorrectable codewords in 1 ms make the port retrain -/
  | fecBurst (port : Fin 6) (codewords : Nat)
  /-- PARTNER_EXCHANGE_TIMER (R284): Every 1,000 ms each port end sends its partner record -/
  | partnerExchangeTimer (port : Fin 7)
  /-- RT_WRITE (R343): Writes a run of entries into the inactive route bank -/
  | rtWrite (env : BitVec 256) (sender : End) (table : RtTable) (first : Nat) (entries : List (BitVec 32))
  /-- RT_SWITCH (R346): Schedules activation of version v+1 at a switch tick -/
  | rtSwitch (env : BitVec 256) (sender : End) (version : BitVec 16) (at_ : BitVec 64)
  /-- SWITCH_TICK (R346): At the switch tick the version advances and old-epoch counting begins -/
  | switchTick
  /-- DRAINED_REPEAT (R347): DRAINED is repeated every 1 ms until CENSUS_DONE -/
  | drainedRepeat
  /-- CENSUS_DONE (R348): Agent learns the census of v is complete -/
  | censusDone (env : BitVec 256) (sender : End) (version : BitVec 16)
  /-- CENSUS_PURGE (R349): census_frames after a switch the router purges old-epoch packets -/
  | censusPurge
  /-- FENCE_SET (R354): Writes a fence entry marking a module fenced from a slice -/
  | fenceSet (env : BitVec 256) (sender : End) (module : Fin 512) (entry : BitVec 16)
  /-- FENCE_CLEAR (R354): Clears a fence entry -/
  | fenceClear (env : BitVec 256) (sender : End) (module : Fin 512) (entry : BitVec 16)
  /-- LEASE_RENEW (R396): Agent extends the lease expiry from the cycle number -/
  | leaseRenew (env : BitVec 256) (sender : End) (cycle : BitVec 64)
  /-- LEASE_TAKE (R397): Agent accepts a new lease epoch when its lease is not live -/
  | leaseTake (env : BitVec 256) (sender : End) (cycle : BitVec 64)
  /-- LEASE_EXPIRY (R396): The agent's lease ends at its expiry tick -/
  | leaseExpiry
  /-- LEASE_SEEK (R391): A candidate seeks the lease after 20 ms or 60 ms without a live lease -/
  | leaseSeek
  /-- SLICE_INFO (R399): Agent command setting the member's slice record -/
  | sliceInfo (env : BitVec 256) (sender : End) (record : BitVec 256)
  /-- PAIR_USER (R286): Agent command setting FAB_PAIR.user -/
  | pairUser (env : BitVec 256) (sender : End) (user : BitVec 2)
  /-- AGENT_PORT_RELEASE (R399): Agent command clearing held on a port so it retrains -/
  | agentPortRelease (env : BitVec 256) (sender : End) (port : Fin 7)
  /-- BUDGET (R419): Agent command setting the module's budget share -/
  | budget (env : BitVec 256) (sender : End) (share : BitVec 16)
  /-- PLAN_PUSH (R399): Agent command carrying a piece of a plan -/
  | planPush (env : BitVec 256) (sender : End) (offset : BitVec 32) (total : BitVec 32) (piece : List (BitVec 8))
  /-- STATE_QUERY (R399): Agent answers with its lease, version, fences and pair user -/
  | stateQuery (env : BitVec 256) (sender : End)
  /-- HELD_COMMAND_TIMEOUT (R400): A command held 10 ms makes the agent skip next_seq forward -/
  | heldCommandTimeout
  /-- MISMATCH (R401): Member receives a mismatch report of a second command copy -/
  | mismatch (agent : Sender (Fin 512)) (seq : BitVec 32) (executedByStandby : Bool) (crc0 : BitVec 32) (crc1 : BitVec 32)
  /-- PARTNER (R368): Watermaster receives a partner record report -/
  | partner (agent : Sender End) (record : BitVec 1024) (port : Fin 7) (lanes : BitVec 4)
  /-- DRAINED_REPORT (R348): Watermaster receives DRAINED for a version -/
  | drainedReport (agent : Sender (Fin 512)) (version : BitVec 16)
  /-- STATE_REPORT (R399): Watermaster receives a module's state and power demand -/
  | stateReport (agent : Sender End) (code : BitVec 8) (stage : BitVec 32) (demand : PowerDemand)
  /-- PATH_REPORT (R399): Watermaster receives an unreachable or port-width report -/
  | pathReport (agent : Sender End) (unreachable : Option (Fin 512)) (port : Fin 7) (lanes : BitVec 4)
  /-- MANAGEMENT_CYCLE (R392): Member computes a management cycle and sends its commands -/
  | managementCycle
  /-- COMMAND_RESEND_TIMEOUT (R394): A command unanswered for 10 cycles is sent again with a new seq -/
  | commandResendTimeout (agent : Fin 512) (seq : BitVec 32)
  /-- PAIR_COPY (R402): Standby receives COPY of a cycle and computes from its inputs -/
  | pairCopy (cycle : BitVec 64) (epoch : BitVec 32) (stateDigest : BitVec 64) (commandDigest : BitVec 64) (inputs : List WmInput) (last : Bool)
  /-- COPY_MIDPOINT (R392): COPY not arrived by midpoint of the next cycle, so the standby coasts -/
  | copyMidpoint
  /-- COPY_ACK (R404): Active receives the standby's digest and may send state-changing replies -/
  | copyAck (cycle : BitVec 64) (stateDigest : BitVec 64)
  /-- JOIN (R403): Active receives a request for a full state copy -/
  | joinReq
  /-- FULL (R403): Standby receives a piece of the full state -/
  | fullCopy (cycle : BitVec 64) (index : Nat) (count : Nat) (piece : List (BitVec 8))
  /-- DETACH (R401): Active learns the standby has detached -/
  | detach (cause : BitVec 8)
  /-- STATE_QUERY_TIMEOUT (R404): A new holder's wait for STATE_QUERY answers ends at 100 ms -/
  | stateQueryTimeout
  /-- UPDATE_STATE (R531): Pair partner's update state message is received -/
  | updateState (msg : BitVec 128)
  /-- UPDATE_STATE_TIMER (R531): Every 100 ms while not idle the agent sends UPDATE_STATE -/
  | updateStateTimer
  /-- PLAN_LOAD (R366): Operator loads a signed plan of higher revision -/
  | planLoad (hdr : BitVec 256) (payload : List (BitVec 8)) (sig : BitVec 512)
  /-- PLAN_GET (R388): Returns the plan held -/
  | planGet (hdr : BitVec 256) (payload : List (BitVec 8)) (sig : BitVec 512)
  /-- PLAN_ACCEPT (R374): Writes a new plan recording current findings -/
  | planAccept (hdr : BitVec 256) (payload : List (BitVec 8)) (sig : BitVec 512)
  /-- TOPO_GET (R375): Returns the position records -/
  | topoGet (hdr : BitVec 256) (payload : List (BitVec 8)) (sig : BitVec 512)
  /-- FINDINGS_GET (R388): Returns current findings and the log -/
  | findingsGet (hdr : BitVec 256) (payload : List (BitVec 8)) (sig : BitVec 512)
  /-- SLICE_CARVE (R377): Carves a slice, or twin pair, into the next route version -/
  | sliceCarve (hdr : BitVec 256) (payload : List (BitVec 8)) (sig : BitVec 512)
  /-- SLICE_FLOWS (R382): Installs timetabled flow routes in a slice -/
  | sliceFlows (hdr : BitVec 256) (payload : List (BitVec 8)) (sig : BitVec 512)
  /-- SLICE_FREE (R384): Frees a slice, optionally ending its contexts -/
  | sliceFree (hdr : BitVec 256) (payload : List (BitVec 8)) (sig : BitVec 512)
  /-- SLICE_LIST (R388): Returns every slice record -/
  | sliceList (hdr : BitVec 256) (payload : List (BitVec 8)) (sig : BitVec 512)
  /-- MODULE_CLEAR (R463): Clears a module's latched out-of-service state -/
  | moduleClear (hdr : BitVec 256) (payload : List (BitVec 8)) (sig : BitVec 512)
  /-- PORT_RELEASE (R388): Operator command clearing held on a port -/
  | portRelease (hdr : BitVec 256) (payload : List (BitVec 8)) (sig : BitVec 512)
  /-- MODULE_RESET (R388): Sends RESET_REQ to a module on the Towpath chain -/
  | moduleReset (hdr : BitVec 256) (payload : List (BitVec 8)) (sig : BitVec 512)
  /-- MODULE_FREEZE (R388): Sends FREEZE to a module on the Towpath chain -/
  | moduleFreeze (hdr : BitVec 256) (payload : List (BitVec 8)) (sig : BitVec 512)
  /-- WM_STATUS (R411): Returns the lease epoch and the active and standby ends -/
  | wmStatus (hdr : BitVec 256) (payload : List (BitVec 8)) (sig : BitVec 512)
  /-- BUDGET_SET (R437): Sets rack budgets and returns budgets and demands -/
  | budgetSet (hdr : BitVec 256) (payload : List (BitVec 8)) (sig : BitVec 512)
  /-- ROLL_CALL (R293): Module answers a roll call with PRESENT -/
  | rollCall (frame : BitVec 128)
  /-- PRESENT_TIMER (R368): Every 1,000 ms the module sends PRESENT -/
  | presentTimer
  /-- ALERT_REPEAT (R293): Every 10 ms an active ALERT is sent again -/
  | alertRepeat (code : BitVec 8)
  /-- STAGE_REPEAT (R293): Every 100 ms until stage 9 the STAGE frame is sent again -/
  | stageRepeat
  /-- FREEZE (R294): An accepted FREEZE frame freezes the module after its ACK -/
  | freeze (frame : BitVec 128)
  /-- RESET_REQ_COLD (R294): An accepted RESET_REQ of kind cold reset -/
  | resetReqCold (frame : BitVec 128)
  /-- RESET_REQ_WARM (R294): An accepted RESET_REQ of kind compute warm reset -/
  | resetReqWarm (frame : BitVec 128)
  /-- WM (R405): A WM frame segment is received and reassembled -/
  | wm (frame : BitVec 128)
  /-- ACK (R293): A Towpath ACK is received for a frame sent -/
  | ack (frame : BitVec 128)
  /-- TOWPATH_FORWARD (R292): A frame not for this module alone is checked and forwarded downstream -/
  | towpathForward (frame : BitVec 128)
  /-- WM_MESSAGE_RESEND (R405): An unacknowledged WM message is repeated after 10 ms -/
  | wmMessageResend (msgId : BitVec 16)
  /-- TOWPATH_COMMAND_RESEND (R295): FREEZE or RESET_REQ is sent again until an ACK arrives -/
  | towpathCommandResend (seq : BitVec 8)
  /-- FRAME_MARKER (R297): A frame marker sets or checks the tick count -/
  | frameMarker (word : Option (BitVec 64))
  /-- REFCLK_LOSS (R298): Loss of the rack reference moves PLLs to the on-module oscillator -/
  | refclkLoss
  /-- REFERENCE_RECOVERY (R299): After recover_ms of valid reference the tick count realigns and Headgate opens -/
  | referenceRecovery (refFrame : BitVec 64)
  /-- POWER_SAMPLE (R424): Every 256 ticks the controller forms its estimate and chooses a state -/
  | powerSample (sample : PowerSample)
  /-- TRIM_UPDATE (R414): Every 1 ms the estimate trim factor is updated -/
  | trimUpdate (measured : SupplyReading)
  /-- VOLTAGE_REACHED (R417): Regulator reports the new VCORE voltage, and a step up changes frequency -/
  | voltageReached
  /-- ALERT_N_FALL (R429): ALERT_N falling drives every cell to OP0 and closes Headgate -/
  | alertNFall
  /-- ALERT_HOLD_EXPIRY (R429): alert_hold_ms after ALERT_N rises the controller resumes climbing -/
  | alertHoldExpiry
  /-- DROOP_START (R430): Local VCORE falls below threshold and the cell clock halves -/
  | droopStart (p : Fin 136)
  /-- DROOP_END (R430): VCORE stays recovered for 64 stretched clocks and full rate resumes -/
  | droopEnd (p : Fin 136)
  /-- DROOP_DEFER_EXPIRY (R431): 5 us after the last droop deferred operating-point changes are carried out -/
  | droopDeferExpiry
  /-- THERMAL_THROTTLE (R426): Above throttle_c one down action is taken every up_us -/
  | thermalThrottle
  /-- THERMAL_TRIP (R427): A die sensor at 105 C forces a compute warm reset or cold reset hold -/
  | thermalTrip (sensor : Fin 64) (temp : BitVec 12)
  /-- THERMAL_HOLD_END (R427): Every die sensor at 85 C or less releases the thermal reset hold -/
  | thermalHoldEnd
  /-- HOT_SWAP_CLOSE (R577): Input reaches 50 V and the hot-swap stage closes -/
  | hotSwapClose (inputMv : Nat)
  /-- HOT_SWAP_OPEN (R577): Input stays below 47 V for 100 us and the stage opens -/
  | hotSwapOpen
  /-- RAIL_POWER_GOOD (R578): A rail reaches power-good and the next rail starts -/
  | railPowerGood (rail : Rail)
  /-- RAIL_POWER_GOOD_TIMEOUT (R578): A rail not good 5 ms after start is switched off -/
  | railPowerGoodTimeout (rail : Rail)
  /-- RAIL_OUT_OF_RANGE (R580): A reading out of range for 10 ms raises ALERT 0x02 -/
  | railOutOfRange (point : RailPoint)
  /-- RST_CMD_CELL (R470): RST_CMD requests a cell reset -/
  | rstCmdCell (value : BitVec 32)
  /-- RST_CMD_CELL_GROUP (R470): RST_CMD requests a cell group reset -/
  | rstCmdCellGroup (value : BitVec 32)
  /-- RST_CMD_MEMORY_CHANNEL_GROUP (R470): RST_CMD requests a memory channel group reset -/
  | rstCmdMemoryChannelGroup (value : BitVec 32)
  /-- RST_CMD_FERRY (R470): RST_CMD requests a Ferry reset -/
  | rstCmdFerry (value : BitVec 32)
  /-- RST_CMD_INTAKE (R470): RST_CMD requests an Intake reset -/
  | rstCmdIntake (value : BitVec 32)
  /-- RST_CMD_HAWSER (R470): RST_CMD requests a Hawser reset -/
  | rstCmdHawser (value : BitVec 32)
  /-- RST_CMD_COMPUTE_WARM_RESET (R470): RST_CMD requests a compute warm reset -/
  | rstCmdComputeWarmReset (value : BitVec 32)
  /-- CELL_WATCHDOG (R450): A cell without progress for its limit requests a cell reset -/
  | cellWatchdog (c : Fin 128)
  /-- MEM_CONTROLLER_WATCHDOG (R450): An unanswered memory request requests a channel group reset -/
  | memControllerWatchdog (ctl : Fin 32)
  /-- ENGINE_WATCHDOG (R450): A mover or the Ferry without progress requests its domain reset -/
  | engineWatchdog (engine : Engine)
  /-- DECODE_WATCHDOG (R450): A stuck decode engine requests an Intake reset -/
  | decodeWatchdog (engine : Fin 16)
  /-- HAWSER_WATCHDOG (R450): An unhandled Hawser message requests a Hawser reset -/
  | hawserWatchdog
  /-- HEARTBEAT_MISS (R445): Management heartbeat missed 100 ms causes a compute warm reset -/
  | heartbeatMiss
  /-- RESET_HANDSHAKE_DONE (R451): Every block answers the handshake and the domain is reset -/
  | resetHandshakeDone (dom : Domain) (check : ReadBack)
  /-- HANDSHAKE_TIMEOUT (R451): A handshake times out and the reset escalates -/
  | handshakeTimeout (dom : Domain)
  /-- COMPUTE_WARM_RESET (R459): Everything but the agent domain resets and bring-up takes the warm path -/
  | computeWarmReset (cause : WarmCause)
  /-- COLD_RESET (R461): The whole module resets, keeping only flash -/
  | coldReset (cause : ColdCause)
  /-- ABORT_RECEIVE (R465): Agent sets aborted on the slice's fabric-abort sync objects -/
  | abortReceive (src : Fin 512) (payload : BitVec 128)
  /-- ABORT_RESEND_TIMER (R464): The abort is re-sent to members that have not acknowledged -/
  | abortResendTimer
  /-- STAGE_0_POWER_SWEEP (R477): Bring-up stage 0 checks input, rails and sensors -/
  | stage0PowerSweep (seen : StageSeen)
  /-- STAGE_1_ROM_BOOT (R480): Boot ROM verifies and boots an image slot -/
  | stage1RomBoot (seen : StageSeen)
  /-- STAGE_2_FUSES (R477): Reads fuses, V/f tables and derives identity keys -/
  | stage2Fuses (seen : StageSeen)
  /-- STAGE_3_LPDDR6_TRAINING (R130): Trains or restores memory channels and builds live[] -/
  | stage3Lpddr6Training (seen : StageSeen)
  /-- STAGE_4_CELLS (R485): Cells come up in waves and the bad-cell map is built -/
  | stage4Cells (seen : StageSeen)
  /-- WAVE_RELEASE (R483): A wave of 16 cells is released for self-test or read-back check -/
  | waveRelease (wave : Fin 9)
  /-- STAGE_5_MESH (R488): Patterns run over every mesh link -/
  | stage5Mesh (seen : StageSeen)
  /-- STAGE_6_PORTS (R488): Ports train and the tick count is set -/
  | stage6Ports (seen : StageSeen)
  /-- STAGE_7_LINKS (R489): Hawser and Ethernet links are tried once -/
  | stage7Links (seen : StageSeen)
  /-- DHCP_TIMEOUT (R489): DHCP gives no answer in 3 s and addresses come from flash -/
  | dhcpTimeout
  /-- STAGE_8_JOIN (R490): Module joins the Watermaster, or holds for latch or quarantine -/
  | stage8Join (seen : StageSeen)
  /-- STAGE_9_IN_SERVICE (R491): Module enters service and Headgate opens -/
  | stage9InService (seen : StageSeen)
  /-- STAGE_LIMIT_EXPIRY (R478): A stage 0-5 passes its limit and ends FAILED -/
  | stageLimitExpiry
  /-- CONSOLE_HELP (R560): Console lists commands -/
  | consoleHelp
  /-- CONSOLE_VER (R560): Console shows serial, versions and GEN_ID -/
  | consoleVer
  /-- CONSOLE_STAGE (R560): Console shows the newest stage report -/
  | consoleStage
  /-- CONSOLE_STAGE_LOG (R560): Console shows all 64 logged stage reports -/
  | consoleStageLog
  /-- CONSOLE_STATE (R560): Console shows module state, lease, plan, slice and alerts -/
  | consoleState
  /-- CONSOLE_TEMP (R560): Console shows temperature sensors -/
  | consoleTemp
  /-- CONSOLE_VOLT (R560): Console shows voltage monitors -/
  | consoleVolt
  /-- CONSOLE_PROC (R560): Console shows process monitors -/
  | consoleProc
  /-- CONSOLE_POWER (R560): Console shows the power report -/
  | consolePower
  /-- CONSOLE_RAILS (R560): Console shows expected test point readings beside monitors -/
  | consoleRails
  /-- CONSOLE_PORTS (R560): Console shows torus and pair port status -/
  | consolePorts
  /-- CONSOLE_FAB (R560): Console shows fabric counts -/
  | consoleFab
  /-- CONSOLE_MEM (R560): Console shows memory counts -/
  | consoleMem
  /-- CONSOLE_ENG (R560): Console shows engine and reset counts -/
  | consoleEng
  /-- CONSOLE_CELLS (R560): Console shows the cell map and bad cells -/
  | consoleCells
  /-- CONSOLE_SELFTEST_CELL (R561): Service self-test of one physical cell -/
  | consoleSelftestCell (p : Fin 136) (pass : Bool)
  /-- CONSOLE_SELFTEST_DECODE (R561): Service known-answer test of one decode engine -/
  | consoleSelftestDecode (e : Fin 16) (pass : Bool)
  /-- CONSOLE_SELFTEST_MEM (R561): Service pattern test of one LPDDR6 channel -/
  | consoleSelftestMem (ch : Fin 256) (pass : Bool)
  /-- CONSOLE_DUMP (R560): Console reads memory or a register -/
  | consoleDump (addr : BitVec 48) (len : Nat)
  /-- CONSOLE_OOS_CLEAR (R463): Console clears the out-of-service latch -/
  | consoleOosClear (confirm : Bool)
  /-- CONSOLE_RESET_WARM (R560): Console starts a compute warm reset -/
  | consoleResetWarm (confirm : Bool)
  /-- CONSOLE_RESET_COLD (R567): Console starts a cold reset, ending any freeze -/
  | consoleResetCold (confirm : Bool)
  /-- CONSOLE_FREEZE (R562): Console freezes the module -/
  | consoleFreeze (confirm : Bool)
  /-- CONSOLE_READOUT (R565): Console sends the UART read-out of a frozen module -/
  | consoleReadout
  /-- CONSOLE_LED_TEST (R560): Console lights each LED in turn -/
  | consoleLedTest
  /-- FREEZE_N (R562): FREEZE_N low for 100 ns stops every island clock -/
  | freezeN
  /-- RESET_N (R572): RESET_N low for 10 us requests a cold reset -/
  | resetN
  /-- AUX_PIN_CHANGE (R558): AUX pin as external trigger starts or stops profiling counts -/
  | auxPinChange (level : Bool)
  /-- JTAG_READOUT (R566): JTAG READOUT returns read-out sections in order -/
  | jtagReadout
  /-- JTAG_DEBUG (R566): JTAG DEBUG selects run control of the management cores -/
  | jtagDebug
  /-- MOVER_COMMAND_COMPLETE (R142): A local COPY, FILL, WEIGHT_LOAD or prefetch piece has its last write accepted and completes, and the mover takes its next command -/
  | moverCommandComplete (mover : Fin 32)
  /-- PAIR_WINDOW_WRITE (R408): The partner receives a pair-window write over the pair port, checks it and writes it into its LPDDR6 -/
  | pairWindowWrite (w : PairWrite)
  /-- AGENT_ANSWER (R398): A Watermaster member receives an agent's answer (OK, BUSY, STALE_EPOCH, NO_LEASE, LEASE_LIVE) and resends, retries the take or demotes itself -/
  | agentAnswer (agent : Fin 512) (env : BitVec 256) (body : List (BitVec 8))
  /-- ALERT_N_RISE (R429): ALERT_N rises, starting the alert_hold_ms hold and ending ALERT 0x02 with bit 8 set -/
  | alertNRise
  /-- FREEZE_N_RISE (R567): FREEZE_N rises, letting a requested cold reset of a frozen module start -/
  | freezeNRise
  /-- RESET_N_RISE (R572): RESET_N returns high, and the cold reset ends once no other cause holds it -/
  | resetNRise
  /-- PAIR_LINK_CHANGE (R531): The pair link goes down or comes back up, changing FAB_PAIR.up and how the partner's update state and pair-window writes are treated -/
  | pairLinkChange (up : Bool)
  /-- ETHERNET_LINK_CHANGE (R303): An Ethernet port link goes down or comes up, changing ETH_PORT_n.up -/
  | ethernetLinkChange (port : Fin 2) (up : Bool)
  /-- CAGE_PRESENCE_CHANGE (R574): A cable cage's presence contact changes, putting the port at zero lanes on removal or calling for training on insertion -/
  | cagePresenceChange (cage : Fin 10) (present : Bool)
  /-- LEAD_SILENCE_RELEASE (R174): A member that has had no command from the lead for fail_limit consecutive periods releases its part of the instance on its own -/
  | leadSilenceRelease (inst : BitVec 10)
  /-- RAIL_BACK_IN_RANGE (R580): A rail reading back in range for 10 ms ends its ALERT 0x02 and the console's rail-out-of-range display -/
  | railBackInRange (point : RailPoint)
  /-- DEFERRED_RESET_START (R446): A reset request that waited because the instance's last reset ended less than 1 ms earlier now starts -/
  | deferredResetStart (dom : Domain)
  deriving DecidableEq, Repr

end Sys2Proof
end

