-- ==== Sys2Proof/Decode.lean ====
section
/-! DEFINITION. The decoder over the rows of spec/opcode_table.json that give bits. -/

namespace Sys2Proof

/-- The command that a word spells by the table's bits: no row of the table gives any, so no word spells one (DESIGN CHOICE, log 147). -/
def decodeTableWord (_nbits _w : Nat) : Option Instr := none

end Sys2Proof
end

