-- ==== Sys2Proof/Machine/State.lean ====
section
/-! DEFINITION. The state of the module as plain data (INVENTORY.md, '## State'), the reasons a step can stop, and the state
right after reset. A sparse table is a list of (key, value) pairs, keys strictly rising, no value equal to the table's
default; what an unlisted key holds is that default. -/

namespace Sys2Proof.Machine

/-- A table by number: sorted, without entries equal to the default of its reader. -/
abbrev Sparse (α : Type) := List (Nat × α)

/-- A device memory: bytes by 48-bit device address (R12); an unlisted byte reads 0 (R84, R130 step 5) (DEDUCED, log 70). -/
abbrev Memory := List Host.Cell

/-- Why a step can stop with a fault. -/
inductive Fault where
  /-- A command whose operand no sender can form (an odd payload length, a word index outside the register): raised by the
  meanings that take such an operand. Safe: the module is never sent it. -/
  | illFormedCommand
  deriving DecidableEq, Repr

/-- Why a step can be refused. -/
inductive Refusal where
  /-- A command that has no meaning yet, by its mnemonic. Safe: the model stops. -/
  | notModelled (mnemonic : String)
  deriving DecidableEq, Repr

/-! ### Cells (03, 04) -/

/-- What started a thread's work (R115, R167, R178, R212, R266). -/
inductive Work where
  | launch (sq : Nat) (slot : Nat)
  | trickle (id : Nat)
  | entry (inst : Nat) (idx : Nat) (period : Nat)
  deriving DecidableEq, Repr

/-- What the thread's bundle waits for (R91). -/
inductive Wait where
  | none
  | tick (awaited : Nat)
  | sync (object : Nat) (target : Int) (satisfied : Bool) (aborted : Bool)
  | settle (mask : BitVec 5)
  deriving DecidableEq, Repr

/-- A bundle in issue: the slots still to take effect (bit 0 LD, 1 MX, 2 VX, 3 MV, 4 CT), the registers as they stood at issue
(R89), and where the thread goes next. -/
structure Issue where
  left : BitVec 5 := 0
  a : Sparse (BitVec 64) := []
  v : Sparse (BitVec 2048) := []
  p : Sparse (BitVec 128) := []
  next : Nat := 0
  fault : Option (Nat × Nat × Nat) := none
  deriving DecidableEq, Repr

/-- One thread state of a cell (R53, R114). -/
structure ThreadSt where
  v : Sparse (BitVec 2048) := []
  a : Sparse (BitVec 64) := []
  p : Sparse (BitVec 128) := []
  stepBase : BitVec 64 := 0
  late : Bool := false
  pc : Nat := 0
  running : Bool := false
  halted : Bool := false
  work : Option Work := none
  ctx : BitVec 6 := 0
  hasCtx : Bool := false
  base : Nat := 0
  count : Nat := 0
  wait : Wait := .none
  released : Bool := false
  issue : Option Issue := none
  staged : Bool := false
  paused : Bool := false
  share : Nat := 0
  lastIssue : Nat := 0
  fresh : Bool := false
  outcome : BitVec 8 := 0
  deriving DecidableEq, Repr

/-- An exact-window accumulator: S and the sticky flags (R37, R38). In an FP32 bank s[31:0] is the FP32 value (R48). -/
structure Acc where
  s : BitVec 120 := 0
  n : Bool := false
  p : Bool := false
  m : Bool := false
  r : Bool := false
  t : Bool := false
  deriving DecidableEq, Repr

/-- An accumulator bank: its mode (R96) and accumulators, (i, j) at 64 i + j. -/
structure Bank where
  fp32 : Bool := false
  acc : Sparse Acc := []
  deriving DecidableEq, Repr

/-- The matrix instructions that enter the array's queue (R71, R94). -/
inductive MxOp where
  | mma | mdrain | mload | mclr
  deriving DecidableEq, Repr

/-- A queued matrix instruction with its copy of the window (R95). -/
structure MxInstr where
  op : MxOp := .mclr
  thread : Thread := .fg
  bundle : Nat := 0
  desc : Nat := 0
  acc : BitVec 2 := 0
  win : BitVec 32 := 0
  zero : Bool := false
  deriving DecidableEq, Repr

/-- A matrix instruction that the array has begun, with its descriptor as read and the k-steps done (R65, R71, R97). -/
structure MxRun where
  q : MxInstr := {}
  desc : Line := 0
  pos : Nat := 0
  deriving DecidableEq, Repr

/-- What holds a place in the MV queue (R78). -/
inductive MvKind where
  | dma | send | ferry
  deriving DecidableEq, Repr

/-- A place of the MV queue: a DMA's or SEND's descriptor as read at issue, or the address of a dispatch record. moved counts the
bytes that a host window has given a DMA so far, asked says that a host read is out, done that the Ferry has taken the record. -/
structure MvEntry where
  kind : MvKind := .dma
  thread : Thread := .fg
  ctx : BitVec 6 := 0
  bundle : Nat := 0
  addr : Nat := 0
  desc : Line := 0
  moved : Nat := 0
  asked : Bool := false
  failed : Option Nat := none
  done : Bool := false
  sentAt : Nat := 0
  deriving DecidableEq, Repr

/-- A program image in a cell's instruction memory (R112, R515). -/
structure Image where
  ctx : BitVec 6 := 0
  base : Nat := 0
  count : Nat := 0
  entry : Nat := 0
  thread : Thread := .fg
  digest : BitVec 384 := 0
  deriving DecidableEq, Repr

/-- The record of a program fault (R117). -/
structure FaultRec where
  ctx : BitVec 6 := 0
  cell : Nat := 0
  thread : Thread := .fg
  bundle : Nat := 0
  code : BitVec 8 := 0
  detail : BitVec 32 := 0
  deriving DecidableEq, Repr

/-- The event counts of MON_PROF_n (R553). -/
structure Prof where
  fg : Nat := 0
  tr : Nat := 0
  ksteps : Nat := 0
  lines : Nat := 0
  deriving DecidableEq, Repr

/-- A logical cell (R53) (DESIGN CHOICE, log 8). mxq holds the matrix instructions that have issued and not left the array's queue; mxRun is the
one of them that the array runs, mxHeld one of the trickle thread that it has suspended (R65, R71). stepAt and stepBefore are one more than
the last two ramp steps in which the cell issued a bundle, trCount the bundles that its trickle thread issued in stepAt (R181). -/
structure CellSt where
  fg : ThreadSt := {}
  tr : ThreadSt := {}
  win : Sparse (BitVec 32) := []
  bank0 : Bank := {}
  bank1 : Bank := {}
  bank2 : Bank := {}
  mxq : List MxInstr := []
  mxRun : Option MxRun := none
  mxHeld : Option MxRun := none
  mvq : List MvEntry := []
  escape : Nat := 0
  imem : Sparse (BitVec 256) := []
  images : List Image := []
  gen : BitVec 8 := 0
  failed : Bool := false
  inReset : Bool := false
  switching : Bool := false
  stepAt : Nat := 0
  stepBefore : Nat := 0
  trCount : Nat := 0
  launches : List (Nat × Nat) := []
  prof : Prof := {}
  resetTimes : List Nat := []
  progress : Nat := 0
  deriving DecidableEq, Repr

/-- A sync object (R81). -/
structure SyncObj where
  count : Int := 0
  ctx : BitVec 6 := 0
  valid : Bool := false
  fabricAbort : Bool := false
  aborted : Bool := false
  deriving DecidableEq, Repr

/-- A SYNC_WAIT descriptor in wait (R267). -/
structure SyncWaiter where
  sq : Nat := 0
  slot : Nat := 0
  object : Nat := 0
  target : Int := 0
  satisfied : Bool := false
  aborted : Bool := false
  due : Nat := 0
  deriving DecidableEq, Repr

/-! ### Memory, pages, movers (05) -/

/-- A line's tag as it was written (R122) and the symbols of the line in error since, bytes 0 to 63 data, 64 to 66 tag,
67 to 71 check code, with the bits that are wrong (R123) (DEDUCED, log 108). -/
structure LineTag where
  keySlot : BitVec 4 := 0
  keyGen : BitVec 6 := 0
  poison : Bool := false
  err : Sparse Byte := []
  deriving DecidableEq, Repr

/-- The state of a page (R128). -/
inductive PageState where
  | free | owned | shared | scrubbing
  deriving DecidableEq, Repr

/-- A page ownership table entry (R128), with the key slot it was last owned under (R506, R520). -/
structure Page where
  state : PageState := .free
  retained : Bool := false
  ctx : BitVec 6 := 0
  keySlot : BitVec 4 := 0
  lastSlot : BitVec 4 := 0
  deriving DecidableEq, Repr

/-- What a mover command is (R139, R143, R168, R178, R265). -/
inductive MoverKind where
  | copy | fill | weight | prefetch | transfer
  deriving DecidableEq, Repr

/-- A command, or one 256 KiB piece of it, on a mover: foreign for a piece that is no ring command of the mover (R143), stopping for
a failed transfer that goes on to its next 4 KiB boundary (R172), buf the bytes that have
come and are not yet written or sent, by offset, final for the piece of a spread remote copy that carries its last packet (R140), lastAcked
that the piece's last packet is acknowledged (R142). -/
structure MoverCmd where
  kind : MoverKind := .copy
  sq : Nat := 0
  slot : Nat := 0
  piece : Nat := 0
  ctx : BitVec 6 := 0
  srcSpace : BitVec 2 := 0
  dstSpace : BitVec 2 := 0
  src : Nat := 0
  dst : Nat := 0
  len : Nat := 0
  pattern : BitVec 64 := 0
  foreign : Bool := false
  stopping : Bool := false
  asked : Nat := 0
  arrived : Nat := 0
  buf : List (Nat × List Byte) := []
  poisoned : Option Nat := none
  dstMod : Nat := 0
  dstEp : Nat := 0
  rsync : Option Nat := none
  ordered : Bool := false
  trickleId : Nat := 0
  inst : Nat := 0
  recIdx : Nat := 0
  period : Nat := 0
  final : Bool := false
  lastAcked : Bool := false
  sent : Nat := 0
  deriving DecidableEq, Repr

/-- A memory mover: what it runs, what waits in ring order, pieces behind those, the timetabled transfer (R139, R143). -/
structure Mover where
  cur : Option MoverCmd := none
  queue : List MoverCmd := []
  pieces : List MoverCmd := []
  xfer : Option MoverCmd := none
  inReset : Bool := false
  gen : BitVec 8 := 0
  progress : Nat := 0
  deriving DecidableEq, Repr

/-- A recorded memory error (R138), and whether it is an address-check error (R124). -/
structure MemErr where
  addr : Nat := 0
  channel : Nat := 0
  ctx : BitVec 6 := 0
  tick : Nat := 0
  addrCheck : Bool := false
  deriving DecidableEq, Repr

/-! ### Hawser, rings, contexts (09) -/

/-- A fetched descriptor (R251). -/
structure Fetched where
  slot : Nat := 0
  desc : Line := 0
  deriving DecidableEq, Repr

/-- What remains of a started descriptor's work, as its owning chapter states it. -/
inductive JobKind where
  /-- host data is gathered: need bytes from a host address, asked so far -/
  | gather (need : Nat) (asked : Nat) (base : Nat) (got : List (Nat × List Byte))
  /-- pieces left on the movers, the lowest failing piece with its status, result0, detail (R143) -/
  | move (left : Nat) (failPiece : Option Nat) (status : Nat) (r0 : Nat) (detail : Nat) (acked : Nat) (got : List (Nat × List Byte))
  /-- cells still to end, cells not OK, first fault (R266) -/
  | launch (left : List Nat) (notOk : Nat) (timeout : Bool) (fenced : Bool) (fault : Option (Nat × Nat × Nat))
  | trickle (id : Nat)
  | arm (inst : Nat)
  | release (inst : Nat)
  | syncWait
  | fence (waits : List (Nat × Nat)) (cancelled : Nat) (clear : Bool)
  | swap
  | removal
  | createZero (pages : List Nat)
  | rebuild
  | activate
  | search
  | destroy
  /-- a report made and not yet written, while the link is down: where it goes and what its record says (R246) -/
  | report (addr : Nat) (bytes : List Byte) (r0 : Nat) (r1 : Nat)
  deriving DecidableEq, Repr

/-- A started descriptor (R252). -/
structure Job where
  sq : Nat := 0
  slot : Nat := 0
  desc : Line := 0
  start : Nat := 0
  kind : JobKind
  deriving DecidableEq, Repr

/-- A submission ring (R249 to R252, R272). -/
structure Sq where
  isOpen : Bool := false
  ctx : BitVec 6 := 0
  cq : Nat := 0
  weight : BitVec 4 := 0
  base : Nat := 0
  log2n : Nat := 0
  producer : Nat := 0
  fetched : Nat := 0
  error : Bool := false
  closing : Bool := false
  closeSeq : Nat := 0
  closeBox : Nat := 0
  ready : List Fetched := []
  deriving DecidableEq, Repr

/-- A completion record, as its 32 bytes (R256). -/
abbrev Record := BitVec 256

/-- A completion ring (R249 to R253). -/
structure Cq where
  isOpen : Bool := false
  vector : BitVec 8 := 0
  base : Nat := 0
  log2n : Nat := 0
  written : Nat := 0
  consumed : Nat := 0
  reserved : Nat := 0
  armed : Bool := false
  evCount : Nat := 0
  evUs : Nat := 0
  evSeen : Nat := 0
  evFirst : Nat := 0
  deriving DecidableEq, Repr

/-- What a host read serves (R244, R251). -/
inductive ReadFor where
  | fetch (sq : Nat) (first : Nat) (count : Nat)
  | job (sq : Nat) (slot : Nat) (off : Nat)
  | piece (mover sq slot piece : Nat) (off : Nat)
  | cellDma (cell : Nat)
  /-- of a block that a reset has stopped: its reply is stale (R448) -/
  | gone
  /-- of a command that has failed already (R246): its reply is dropped -/
  | spent
  deriving DecidableEq, Repr

/-- An outstanding host read (R244). -/
structure HostRead where
  tag : Nat := 0
  addr : Nat := 0
  len : Nat := 0
  purpose : ReadFor
  at_ : Nat := 0
  deriving DecidableEq, Repr

/-- A Hawser message sent by the module (R244), with the generation tag of its Hawser domain; record for a completion record, whose tick is that of its
writing (R256). -/
structure HMsg where
  type : BitVec 8 := 0
  gen : BitVec 8 := 0
  record : Bool := false
  tag : Nat := 0
  addr : Nat := 0
  data : List Byte := []
  len : Nat := 0
  deriving DecidableEq, Repr

/-- A flit that the module put on the Hawser link: its number, or a negative acknowledgement, and its message bytes (R243). -/
structure Flit where
  seq : Nat := 0
  nack : Bool := false
  data : List Byte := []
  deriving DecidableEq, Repr

/-- A mailbox: 252 bytes of header and payload as words, and its status word (R269, R270). -/
structure Mbox where
  words : Sparse (BitVec 32) := []
  full : Bool := false
  drop : Bool := false
  deriving DecidableEq, Repr

/-- A host window of a context (R247). -/
structure Window where
  base : Nat := 0
  len : Nat := 0
  deriving DecidableEq, Repr

/-- A weight record (R265). -/
structure WeightRec where
  id : Nat := 0
  dst : Nat := 0
  len : Nat := 0
  digest : BitVec 384 := 0
  deriving DecidableEq, Repr

/-- A context (R255, R261, R454). -/
structure Context where
  live : Bool := false
  keySlot : BitVec 4 := 0
  slice : BitVec 8 := 0
  windows : List Window := []
  itkBase : Nat := 0
  itkCount : Nat := 0
  weights : List WeightRec := []
  faulted : Bool := false
  removing : Bool := false
  stopped : Bool := false
  pruned : Nat := 0
  deriving DecidableEq, Repr

/-! ### Timetables and trickle work (06) -/

/-- A cell entry record (R155 type 1). -/
structure CellEntry where
  cell : Nat := 0
  bundle : Nat := 0
  args : Nat := 0
  start : Nat := 0
  dur : Nat := 0
  rate : Nat := 0
  deriving DecidableEq, Repr

/-- A mover transfer record (R155 type 2). -/
structure Transfer where
  mover : Nat := 0
  start : Nat := 0
  dur : Nat := 0
  src : Nat := 0
  dst : Nat := 0
  len : Nat := 0
  rate : Nat := 0
  deriving DecidableEq, Repr

/-- A link run record (R155 type 3). -/
structure LinkRun where
  port : Nat := 0
  frame : Nat := 0
  slot : Nat := 0
  count : Nat := 0
  flow : Nat := 0
  bytes : Nat := 0
  deriving DecidableEq, Repr

/-- A timetable object as loaded (R154 to R158); records keep their place in the object. -/
structure TtObject where
  ctx : BitVec 6 := 0
  handle : Nat := 0
  setId : Nat := 0
  member : Nat := 0
  memberCount : Nat := 0
  period : Nat := 0
  lead : Nat := 0
  tickets : Nat := 0
  digest : BitVec 384 := 0
  addr : Nat := 0
  len : Nat := 0
  entries : List (Nat × CellEntry) := []
  transfers : List (Nat × Transfer) := []
  runs : List (Nat × LinkRun) := []
  barriers : List (Nat × Nat × Nat) := []
  members : List (Nat × Nat × Nat × Nat) := []
  deriving DecidableEq, Repr

/-- The states of an instance (06 table of instance states), with the reservation of R163 before them. -/
inductive InstState where
  | reserved | admitted | armed | releasing
  deriving DecidableEq, Repr

/-- The kinds seen in one period of an instance on this module (R171). -/
structure Kinds where
  lateStart : Bool := false
  lateStep : Bool := false
  lateEnd : Bool := false
  failed : Bool := false
  aborted : Bool := false
  deriving DecidableEq, Repr

/-- What the lead and the members of an instance tell each other on the management class (R159, R163, R173). -/
inductive RelayMsg where
  | reserve (ctx : BitVec 6) (setId phase : Nat)
  | commit
  | drop
  | arm (phase argAddr : Nat) (quiet : Bool)
  | release (now : Bool)
  | answer (reason : Nat)
  | armAnswer (a : ArmAnswer)
  | status (r : MemberReport)
  deriving DecidableEq, Repr

/-- A message about an instance to a module of its set, with the member it is for or from (R159, R381). -/
structure Relayed where
  msg : RelayMsg
  inst : Nat := 0
  member : Nat := 0
  module : Nat := 0
  deriving DecidableEq, Repr

/-- An instance of a timetable on this module (R157 to R174); argsHeld are argument sets read by their start tick for entries that have not
started (R591). -/
structure Instance where
  id : Nat := 0
  ctx : BitVec 6 := 0
  leader : Nat := 0
  isLead : Bool := false
  object : TtObject := {}
  state : InstState := .reserved
  phase : Nat := 0
  firstPeriod : Nat := 0
  args : Nat := 0
  quiet : Bool := false
  sq : Nat := 0
  slot : Nat := 0
  itk : Nat := 0
  active : List (Nat × Nat) := []
  argsHeld : List ((Nat × Nat) × List (BitVec 64)) := []
  ended : List (Nat × Nat) := []
  kinds : Sparse Kinds := []
  reports : List MemberReport := []
  recorded : Nat := 0
  failStreak : Nat := 0
  silent : Nat := 0
  endStatus : BitVec 8 := 0
  endR0 : Nat := 0
  endR1 : Nat := 0
  endDetail : Nat := 0
  releaseNow : Bool := false
  lastPeriod : Nat := 0
  arming : Bool := false
  deriving DecidableEq, Repr

/-- A phase search under way on the lead (R163): own is the lead's answer at the phase, record the stream's as read at STREAM_ADMIT (R221). -/
structure Search where
  sq : Nat := 0
  slot : Nat := 0
  inst : Nat := 0
  phase : Nat := 0
  last : Nat := 0
  answers : List MemberAnswer := []
  asked : Nat := 0
  object : TtObject := {}
  itk : Nat := 0
  record : Option (BitVec 1024) := none
  own : Nat := 0
  deriving DecidableEq, Repr

/-- What a trickle entry of the Ferry holds: its ring and the slots of its batch (R212). -/
structure FerryBatch where
  entry : Nat := 0
  base : Nat := 0
  slots : List Nat := []
  deriving DecidableEq, Repr

/-- An entry of the trickle queue (R176, R212). -/
structure TrickleEntry where
  id : Nat := 0
  ctx : BitVec 6 := 0
  prefetch : Bool := false
  bundle : Nat := 0
  argAddr : Nat := 0
  args : List (BitVec 64) := []
  mask : BitVec 128 := 0
  src : Nat := 0
  dst : Nat := 0
  len : Nat := 0
  sq : Nat := 0
  slot : Nat := 0
  ferry : Option FerryBatch := none
  left : Nat := 0
  fail : Option (Nat × Nat × Nat × Nat) := none
  deriving DecidableEq, Repr

/-- A barrier window (R180, R181). -/
structure Barrier where
  ctx : BitVec 6 := 0
  start : Nat := 0
  len : Nat := 0
  holding : Bool := false
  deriving DecidableEq, Repr

/-- The timetable and trickle part of the module. -/
structure Timetables where
  objects : List TtObject := []
  instances : List Instance := []
  search : Option Search := none
  hgRef : Bool := false
  hgPause : Bool := false
  hgPower : Bool := false
  hgOpen : Bool := false
  queue : List TrickleEntry := []
  running : List (Nat × TrickleEntry) := []
  nextId : Nat := 0
  turn : BitVec 6 := 0
  barriers : List Barrier := []
  stepQueue : List (Nat × Record × Nat) := []
  skipped : Sparse Nat := []
  relayed : List Relayed := []
  deriving DecidableEq, Repr

/-! ### Ferry (07) -/

/-- A placement entry, as its 32 bytes (R191). -/
abbrev Placement := BitVec 256

/-- The life cycle states of a ticket (R204). -/
inductive TicketState where
  | free | issued | parked | sent | combining
  deriving DecidableEq, Repr

/-- The ticket classes (R205). -/
inductive TicketClass where
  | timetabled | open_ | overflow
  deriving DecidableEq, Repr

/-- A ticket (R203), with the length of its parked bytes, when a refused one is sent again (R212), and whether its parked token is on its way out. -/
structure Ticket where
  state : TicketState := .free
  cls : TicketClass := .timetabled
  ctx : BitVec 6 := 0
  tgen : BitVec 8 := 0
  bank : Bool := false
  cmode : Bool := false
  k : Nat := 0
  expert : Nat := 0
  home : Nat := 0
  homeCell : Nat := 0
  instance_ : Nat := 0
  originCell : Nat := 0
  aux : Nat := 0
  step : Nat := 0
  rlen : Nat := 0
  rmask : BitVec 16 := 0
  sync : Nat := 0
  syncEn : Bool := false
  due : Nat := 0
  park : Nat := 0
  parkLen : Nat := 0
  retryAt : Nat := 0
  leaving : Bool := false
  deriving DecidableEq, Repr

/-- A Ferry session (R188, R189, R194). -/
structure Session where
  ctx : BitVec 6 := 0
  pbase : Nat := 0
  pcount : Nat := 0
  srcIndex : Nat := 0
  nSrc : Nat := 0
  openMax : Nat := 0
  parkBase : Nat := 0
  parkBytes : Nat := 0
  active : Bool := false
  swapStep : Option Nat := none
  swapJob : Nat × Nat := (0, 0)
  lastStep : Option Nat := none
  deriving DecidableEq, Repr

/-- An overflow ring at the home (R212): the entry it was filled by last, the slot that the next token takes, the slots in use, and those
that wait for a batch, with the bytes of each. -/
structure OvfRing where
  ctx : BitVec 6 := 0
  entry : Nat := 0
  place : Placement := 0
  head : Nat := 0
  taken : List Nat := []
  waiting : List (Nat × Nat) := []
  lastArrival : Nat := 0
  blocked : Bool := false
  deriving DecidableEq, Repr

/-- The Ferry (07). -/
structure Ferry where
  sessions : List Session := []
  bank0 : Sparse Placement := []
  bank1 : Sparse Placement := []
  lastStep : Sparse (Nat × Nat) := []
  tickets : Sparse Ticket := []
  rings : List OvfRing := []
  gen : BitVec 8 := 0
  low : Bool := false
  inReset : Bool := false
  progress : Nat := 0
  deriving DecidableEq, Repr

/-! ### Intake (08) -/

/-- A picture in slot `slot` of its stream's work area on its way through the shaper, the period for which it is shaped, and its samples once
the shaper has read them (R230, R234). -/
structure Frame where
  ts : BitVec 32 := 0
  arrival : Nat := 0
  slot : Nat := 0
  pic : Picture
  period : Nat := 0
  deriving DecidableEq, Repr

/-- An RTP packet that a stream holds: its timestamp, its marker, whether it was kept and not dropped under R226 or R231, and the runs of bytes of
the packet share that hold it, as offset and length (R225, R230). -/
structure RtpPkt where
  ts : BitVec 32 := 0
  marker : Bool := false
  kept : Bool := true
  runs : List (Nat × Nat) := []
  deriving DecidableEq, Repr

/-- An access unit at the engine: its timestamp, the arrival of its last packet, its packets, and whether it is incomplete (R226). -/
structure AccessUnit where
  ts : BitVec 32 := 0
  arrival : Nat := 0
  pkts : List RtpPkt := []
  broken : Bool := false
  deriving DecidableEq, Repr

/-- A stream admitted to Intake (R221 to R236): held are packets out of order with number and arrival, unit the access unit being gathered, dpb the
slots of the work area that hold its reference pictures, engState what else the engine holds of it. -/
structure Stream where
  inst : Nat := 0
  ctx : BitVec 6 := 0
  record : BitVec 1024 := 0
  engine : Nat := 0
  steering : Bool := false
  armed : Bool := false
  highest : Option Nat := none
  next : Nat := 0
  held : List (Nat × RtpPkt × Nat) := []
  unit : Option AccessUnit := none
  decoding : List AccessUnit := []
  dpb : List Nat := []
  engState : List Byte := []
  shaping : Option Frame := none
  waiting : Option Frame := none
  shaped : Option (BitVec 32 × Nat × Nat) := none
  superseded : Nat := 0
  lost : Nat := 0
  bad : Nat := 0
  late : Nat := 0
  waitKey : Bool := false
  stalled : Bool := false
  lastPacket : Nat := 0
  period : Nat := 0
  progress : Nat := 0
  deriving DecidableEq, Repr

/-! ### Ports, Towpath, reference (10) -/

/-- A torus port or the pair port (R281 to R284, R300, R302); txSlot and txUsed are the link slot that its last packet ends in and the
packet bytes taken of it (R170, R278); lcbWait are link control blocks that wait for a free slot (R309), and begun is one more than the last slot
whose flow-state LCB has gone. -/
structure PortSt where
  lanes : Nat := 0
  mask : BitVec 8 := 0
  cableCm : Nat := 0
  overLength : Bool := false
  held : Bool := false
  retrains : Nat := 0
  retrainTimes : List Nat := []
  training : Bool := false
  present : Bool := false
  partner : BitVec 1024 := 0
  segments : List (Nat × BitVec 256) := []
  foreign : Bool := false
  nextExchange : Nat := 0
  txSlot : Nat := 0
  txUsed : Nat := 0
  lcbWait : List (BitVec 512) := []
  begun : Nat := 0
  deriving DecidableEq, Repr

/-- An Ethernet queue's ring positions (R289). -/
structure EthRing where
  txSent : Nat := 0
  rxNext : Nat := 0
  deriving DecidableEq, Repr

/-- A Towpath message being received (R405). -/
structure WmRx where
  src : End := 0
  msgId : Nat := 0
  segments : Nat := 0
  next : Nat := 0
  bytes : List Byte := []
  deriving DecidableEq, Repr

/-- A message sent on the Towpath that waits for its ACK (R295, R405). -/
structure TowTx where
  msgId : Nat := 0
  dst : End := 0
  frames : List (BitVec 128) := []
  seq : Nat := 0
  at_ : Nat := 0
  tries : Nat := 0
  deriving DecidableEq, Repr

/-- The Towpath interface and the reference (R292 to R299); agentOn says that the agent domain is out of its cold reset (R295, R479). -/
structure Towpath where
  slot : BitVec 6 := 0
  rack : BitVec 3 := 0
  culvertOpen : Bool := false
  agentOn : Bool := false
  seq : Nat := 0
  alerts : List (BitVec 8) := []
  alertAt : Sparse Nat := []
  stageAt : Nat := 0
  presentAt : Nat := 0
  rx : List WmRx := []
  tx : List TowTx := []
  nextMsg : Nat := 0
  inbox : List (End × List Byte) := []
  out : List (BitVec 128) := []
  deriving DecidableEq, Repr

/-- The tick count and the rack reference (R16, R296 to R299) (DESIGN CHOICE, log 4). -/
structure TimeSt where
  tick : Nat := 0
  tickSet : Bool := false
  refLost : Bool := false
  validSince : Option Nat := none
  word : Option (BitVec 64) := none
  badFrames : Nat := 0
  hold : Nat := 0
  clock : Nat := 0
  live : Nat := 0
  deriving DecidableEq, Repr

/-! ### Router (11, 12) -/

/-- A route table bank (R335): entries as the words of R326, R339 to R341. -/
structure RouteBank where
  dest : Sparse (BitVec 32) := []
  port : Sparse (BitVec 32) := []
  flow : Sparse (BitVec 16) := []
  tree : Sparse (BitVec 32) := []
  deriving DecidableEq, Repr

/-- A packet in an input VC buffer, with the tick it came, the outputs (bit 6 local) that a multicast copy still has to take (R327),
and its ticket. -/
structure Buffered where
  pkt : Packet
  at_ : Nat := 0
  todo : Option Nat := none
  tkt : Option (Nat × BitVec 8) := none
  deriving DecidableEq, Repr

/-- A flow state of a virtual channel (R317). -/
inductive FlowSt where
  | off | escape | on
  deriving DecidableEq, Repr

/-- The remote copy that a packet belongs to, its piece, and whether the packet is the piece's last (R142, R143). -/
structure CopyPkt where
  sq : Nat := 0
  slot : Nat := 0
  piece : Nat := 0
  last : Bool := false
  deriving DecidableEq, Repr

/-- A packet that waits at injection (R320 to R323, R329), what sent it, whether it has trickle rank, the ticket that it makes
sent when it leaves (R204), and whether it waits for a re-send timer (R323). -/
structure Waiting where
  pkt : Packet
  trickle : Bool := false
  job : Option CopyPkt := none
  tkt : Option (Nat × BitVec 8) := none
  noTimer : Bool := false
  deriving DecidableEq, Repr

/-- The source side of one destination or tree (R320, R323, R327); a copy has its seq, its packet and when it was last sent. -/
structure E2eSrc where
  next : Nat := 0
  unacked : List (Nat × Packet × Nat) := []
  timer : Nat := 0
  interval : Nat := 0
  tries : Nat := 0
  pruned : List Nat := []
  awaited : List (Nat × Nat) := []
  deriving DecidableEq, Repr

/-- The destination side of one source or tree (R320, R322, R325). -/
structure E2eDst where
  low : Nat := 0
  above : List Nat := []
  pending : Nat := 0
  firstAt : Nat := 0
  ce : Nat := 0
  held : List (Nat × Packet) := []
  deriving DecidableEq, Repr

/-- A reduction table entry (R328, R350). -/
structure RedEntry where
  used : Bool := false
  ready : Bool := false
  tree : Nat := 0
  raddr : Nat := 0
  ctx : BitVec 6 := 0
  epoch : Bool := false
  hdr : BitVec 512 := 0
  records : List (BitVec 128) := []
  contrib : Nat := 0
  inputs : BitVec 7 := 0
  at_ : Nat := 0
  sentAt : Option Nat := none
  deriving DecidableEq, Repr

/-- The telemetry of one router port (R334). -/
structure Tel where
  tt : Nat := 0
  op : Nat := 0
  mg : Nat := 0
  txBytes : Nat := 0
  offSlots : Nat := 0
  hdrErr : Nat := 0
  ttDrop : Nat := 0
  ttlDrop : Nat := 0
  ce : Nat := 0
  maxOcc : Nat := 0
  deriving DecidableEq, Repr

/-- The router, its tables and the end-to-end layer (11, 12). -/
structure Fabric where
  bank0 : RouteBank := {}
  bank1 : RouteBank := {}
  version : BitVec 16 := 0
  switchAt : Option Nat := none
  switchedAt : Nat := 0
  counting : Bool := false
  drained : Bool := false
  censusDone : Bool := true
  drainedAt : Nat := 0
  fences : Sparse (BitVec 16) := []
  ports : Sparse PortSt := []
  pairUp : Bool := false
  pairUser : BitVec 2 := 0
  vcs : Sparse (List Buffered) := []
  learned : Sparse (FlowSt × Nat) := []
  states : Sparse FlowSt := []
  src : Sparse E2eSrc := []
  trees : Sparse E2eSrc := []
  dst : Sparse E2eDst := []
  treeDst : Sparse E2eDst := []
  storeBytes : Nat := 0
  mgmtBytes : Nat := 0
  ttSeq : Sparse Nat := []
  inject : List Waiting := []
  track : List (Nat × Nat × CopyPkt) := []
  cutCopies : List CopyPkt := []
  outBytes : Sparse (Nat × Nat) := []
  red : Sparse RedEntry := []
  sluice : Nat := 0
  sluiceAt : Nat := 0
  ceRiseAt : Option Nat := none
  bucket : Nat := 0
  bucketAt : Nat := 0
  storeHigh : Bool := false
  abortMap : List (Nat × Packet) := []
  abortAt : Nat := 0
  abortInterval : Nat := 0
  abortTries : Nat := 0
  out : List (Nat × Packet) := []
  local_ : List Packet := []
  lcbOut : List (Nat × BitVec 512) := []
  markOut : List (Nat × BitVec 64) := []
  pairTx : List PairWrite := []
  pairFlitNext : Nat := 0
  pairFlits : List Flit := []
  pairWire : List Flit := []
  deriving DecidableEq, Repr

/-! ### Watermaster (13, 14) -/

/-- The lease and command state of the agent (R395, R400). -/
structure Agent where
  epoch : BitVec 32 := 0
  holder : End := 0
  hasLease : Bool := false
  expiry : Nat := 0
  nextSeq : Nat := 0
  held : List (Instr × Nat × Nat) := []
  kept : List (Nat × BitVec 32 × BitVec 8 × Bool) := []
  sliceRec : BitVec 256 := 0
  share : Option Nat := none
  planParts : List (Nat × List Byte) := []
  planTotal : Nat := 0
  reports : List (BitVec 8 × List Byte) := []
  lastLive : Nat := 0
  deriving DecidableEq, Repr

/-- The roles of a Watermaster candidate (R403, R410). -/
inductive WmRole where
  | none | active | joining | synced | coasting | detached
  deriving DecidableEq, Repr

/-- A finding record (R371). -/
structure Finding where
  code : BitVec 8 := 0
  endA : End := 0
  endB : End := 0
  planA : End := 0
  planB : End := 0
  planned : BitVec 16 := 0
  found : BitVec 16 := 0
  seen : BitVec 64 := 0
  deriving DecidableEq, Repr

/-- What the Watermaster knows of a position or end (R375): matched holds, by port, the finding row that matches now and the cycle
since which it does (R371). -/
structure Position where
  code : BitVec 8 := 0
  stage : BitVec 32 := 0
  demand : Nat := 0
  demandCycle : Nat := 0
  lastSeen : Nat := 0
  records : Sparse (BitVec 1024) := []
  lanes : Sparse Nat := []
  matched : Sparse (Nat × Nat) := []
  deriving DecidableEq, Repr

/-- The topology that a route version is built from (R372, R378): module indices present and quarantined, usable link ends as
8 m + port, slices and their flow maps. -/
structure WmView where
  present : List Nat := []
  quarantined : List Nat := []
  links : List Nat := []
  slices : List (BitVec 256) := []
  flows : List (Nat × List (BitVec 64)) := []
  deriving DecidableEq, Repr

/-- A change accepted by the Watermaster that waits for its route version (R380), with the header of its command. -/
inductive WmChange where
  | carve (rec : BitVec 256) (twin : Option (BitVec 256)) (hdr : BitVec 256)
  | flows (slice : Nat) (entries : List (BitVec 64)) (hdr : BitVec 256)
  | free (slice : Nat) (hdr : BitVec 256)
  deriving DecidableEq, Repr

/-- A command not yet answered (R394): seq 0 for one that waits until its agent has accepted the take (R398); again for one answered BUSY. -/
structure WmCommand where
  agent : Nat := 0
  seq : Nat := 0
  type : BitVec 8 := 0
  body : List Byte := []
  cycle : Nat := 0
  again : Bool := false
  deriving DecidableEq, Repr

/-- A reply held until the COPY of its cycle is acknowledged (R404). -/
structure HeldReply where
  hdr : BitVec 256 := 0
  payload : List Byte := []
  cycle : Nat := 0
  deriving DecidableEq, Repr

/-- The state that both Watermaster members compute (R392). version is the route version in force or being switched to, built the
topology it was built from; tick is its switch tick while its census runs; users the pair port users that members were given last
(R286); untaken are the agents that have not accepted the holder's take (R397, R398); keepsRole says that a plan was accepted that names
a twin member as a candidate, so that the members keep their role under it (R390). -/
structure WmShared where
  cycle : Nat := 0
  seqs : Sparse Nat := []
  outstanding : List WmCommand := []
  untaken : List Nat := []
  findings : List Finding := []
  log : List Finding := []
  positions : Sparse Position := []
  slices : List (BitVec 256) := []
  flows : List (Nat × List (BitVec 64)) := []
  changes : List WmChange := []
  building : List WmChange := []
  version : Nat := 0
  built : WmView := {}
  inForce : WmView := {}
  writing : Bool := false
  tick : Option Nat := none
  drained : List Nat := []
  fences : Sparse (BitVec 16) := []
  budgets : Sparse Nat := []
  shares : Sparse Nat := []
  perRail : List Nat := []
  users : Sparse Nat := []
  keySeq : Sparse Nat := []
  keyReply : Sparse (BitVec 256 × List Byte) := []
  detaches : List Nat := []
  stayDetached : Bool := false
  keepsRole : Bool := false
  deriving DecidableEq, Repr, Inhabited

/-- A Watermaster member (13, 14): the shared state, and what is its own. epoch is the lease epoch it holds or seeks, known the
highest it has seen; inputs are those of the cycle in progress as it received them; digest and prevDigest are of the state after the
last cycle computed and the one before; standby says, on the active, that a standby holds the state. -/
structure Wm where
  sh : WmShared := {}
  role : WmRole := .none
  epoch : Nat := 0
  known : Nat := 0
  seeking : Bool := false
  inputs : List WmInput := []
  copied : List WmInput := []
  copyCycle : Option Nat := none
  coasts : Nat := 0
  replies : List HeldReply := []
  fullParts : List (Nat × List Byte) := []
  queryWait : Option Nat := none
  queryLeft : List Nat := []
  seekAfter : Nat := 0
  standby : Bool := false
  joinAsked : Bool := false
  digest : BitVec 64 := 0
  prevDigest : BitVec 64 := 0
  opOut : List (BitVec 256 × List Byte × BitVec 512) := []
  pairOut : List (BitVec 8 × List Byte) := []
  deriving DecidableEq, Repr

/-! ### Power (15), security (18), update (19), resets (16), bring-up (17), service (21, 22) -/

/-- The power controller (15): est and est1ms in mW, the shares and rail currents of the last interval beside them, hist those of the last 390
intervals; sampled is the interval sampled last; droopLog the droops of the last second by time and cell group. -/
structure Power where
  op : Nat := 0
  target : Option Nat := none
  issue : Nat := 16
  mem : Nat := 16
  shed : Bool := false
  overRun : Nat := 0
  lastStep : Nat := 0
  fullSince : Nat := 0
  trimNum : Nat := 1000
  estFault : Bool := false
  railTrim : List Nat := [1000, 1000, 1000, 1000, 1000, 1000]
  sampled : Nat := 0
  est : Nat := 0
  est1ms : Nat := 0
  shares : List Nat := []
  railAvg : List Nat := []
  hist : List (Nat × List Nat) := []
  demand : List (Nat × Nat × Bool) := []
  thermalHold : Bool := false
  thermalTrip : Bool := false
  agentTrip : Bool := false
  noUpUntil : Nat := 0
  alert : Bool := false
  alertHold : Option Nat := none
  alertCount : Nat := 0
  droops : List Nat := []
  lastDroop : Nat := 0
  deferred : Option Nat := none
  voltageHalted : Bool := false
  storm : List Nat := []
  storms : Nat := 0
  droopLog : List (Nat × Nat) := []
  capNotMet : Bool := false
  railOver : BitVec 6 := 0
  temps : Sparse (BitVec 13) := []
  tempMin : Sparse (BitVec 12) := []
  tempMax : Sparse (BitVec 12) := []
  deriving DecidableEq, Repr

/-- A key slot (R502, R508). -/
structure KeySlot where
  keyed : Bool := false
  gen : BitVec 6 := 0
  xts : BitVec 512 := 0
  link : BitVec 256 := 0
  wraps : Nat := 0
  pairCount : Nat := 0
  stopped : Bool := false
  deriving DecidableEq, Repr

/-- The seeds of the identity keys, as the key keeper's SRAM holds them from stage 2 on (R499, R500). -/
structure IdKeys where
  ed : BitVec 256 := 0
  mldsa : BitVec 256 := 0
  x : BitVec 256 := 0
  kem : BitVec 512 := 0
  deriving DecidableEq, Repr

/-- A tenant removal under way (R512): the ring and slot of its descriptor (none where SLICE_FREE forces it), the contexts that it
ends, when its wait ends, and whether it wrote the fence entry of its own module. -/
structure Removal where
  slot : Nat := 0
  job : Option (Nat × Nat) := none
  ctxs : List Nat := []
  waitUntil : Nat := 0
  fenced : Bool := false
  deriving DecidableEq, Repr

/-- Work that waits for the key keeper (R506): the removal of a slot, for a descriptor or none, or with its blob an install. -/
structure KeeperWork where
  slot : Nat := 0
  job : Option (Nat × Nat) := none
  blob : Option (List Byte) := none
  deriving DecidableEq, Repr

/-- The update states (R527). -/
inductive FwState where
  | idle | receiving | rebuilding | staged | activating | awaiting
  deriving DecidableEq, Repr

/-- A flash image slot: the image header and the image (R522, R524). -/
structure FwImage where
  present : Bool := false
  hdr : List Byte := []
  bytes : List Byte := []
  deriving DecidableEq, Repr

/-- The firmware update (19) with the flash image slots: slot 0 holds the factory image at first (DESIGN CHOICE, logs 71, 74, 193). -/
structure Update where
  state : FwState := .idle
  slot0 : FwImage := { present := true, hdr := Config.factoryHeader, bytes := Config.factoryImage }
  slot1 : FwImage := {}
  activeSlot : Bool := false
  running : Bool := false
  trial : Option Bool := none
  header : List Byte := []
  blocks : List (Nat × List Byte) := []
  lastResult : BitVec 4 := 0
  lastCode : BitVec 8 := 0
  minSvn : Nat := 0
  withUcode : Bool := false
  pauseAt : Nat := 0
  confirmUntil : Nat := 0
  hawserWasUp : Bool := false
  hadRole : Bool := false
  stateBefore : BitVec 8 := 0
  ucodeBad : Bool := false
  falling : Bool := false
  pauseWait : Bool := false
  partnerState : BitVec 3 := 0
  partnerAt : Nat := 0
  oldFormat : Bool := false
  nextUpdate : Nat := 0
  deriving DecidableEq, Repr

/-- The saved training values of a channel, with the package's vendor, revision and temperature then and the module serial (R131). -/
structure Training where
  values : List Byte := []
  vendor : BitVec 8 := 0
  revision : BitVec 16 := 0
  serial : BitVec 128 := 0
  temp : BitVec 12 := 0
  deriving DecidableEq, Repr

/-- What survives every reset (R444 cold reset row, R533). -/
structure Flash where
  plan : Option (List Byte) := none
  oldPlan : Option (List Byte) := none
  faultCells : List Nat := []
  faultChannels : List Nat := []
  faultDecode : List Nat := []
  trained : List (Nat × Training) := []
  selftestDigest : Option (BitVec 384) := none
  selftestBad : List Nat := []
  oosLatched : Bool := false
  events : List Nat := []
  addr : Sparse (BitVec 128) := []
  mac : Sparse (BitVec 48) := []
  deriving DecidableEq, Repr

/-- A reset in progress (R446, R451). -/
structure Resetting where
  dom : Domain
  cause : BitVec 8 := 0
  at_ : Nat := 0
  due : Nat := 0
  ctxs : List Nat := []
  deriving DecidableEq, Repr

/-- RST_LAST (R473). -/
structure LastReset where
  dom : BitVec 4 := 0
  inst : BitVec 8 := 0
  replay : Bool := false
  outcome : BitVec 2 := 0
  ctx : BitVec 6 := 0
  gen : BitVec 8 := 0
  cause : BitVec 8 := 0
  tick : BitVec 64 := 0
  deriving DecidableEq, Repr

/-- A replay in progress after an engine reset (R457): open launches and moves as (context, ring, slot), and trickle entries, that
are still to be run again, with the program images that the reset has taken from the cell (R84). -/
structure Replay where
  dom : Domain
  works : List (Nat × Nat × Nat) := []
  entries : List TrickleEntry := []
  images : List (Image × List (BitVec 256)) := []
  deriving DecidableEq, Repr

/-- The reset logic (16). -/
structure Resets where
  colds : Nat := 0
  active : List Resetting := []
  lastEnd : List (Domain × Nat) := []
  deferred : List (Domain × BitVec 8) := []
  warm : Bool := false
  cold : Bool := false
  byResetN : Bool := false
  byThermal : Bool := false
  byFreeze : Bool := false
  escalations : Nat := 0
  last : LastReset := {}
  replay : Option Replay := none
  hawserGen : BitVec 8 := 0
  intakeGen : BitVec 8 := 0
  deriving DecidableEq, Repr

/-- How far a stage has come (R475). -/
inductive StagePhase where
  | pending | started | waiting | ended
  deriving DecidableEq, Repr

/-- Bring-up (17). -/
structure Boot where
  stage : Nat := 0
  phase : StagePhase := .pending
  startedAt : Nat := 0
  warm : Bool := false
  fastCells : Bool := false
  fastUsed : Bool := false
  halted : Bool := false
  heldLatch : Bool := false
  heldQuar : Bool := false
  ended : Bool := false
  report : BitVec 32 := 0
  log : Sparse (BitVec 32) := []
  logNext : Nat := 0
  warmCount : Nat := 0
  slot : Bool := false
  otherSlot : Bool := false
  waves : Nat := 0
  waveAt : Nat := 0
  stage4Done : Bool := false
  dhcpFlash : Bool := false
  waitMask : Nat := 0
  meshBad : Bool := false
  ferryBad : Bool := false
  decodeBad : List Nat := []
  failedStage : Bool := false
  deriving DecidableEq, Repr

/-- A physical cell (R56): its island clock runs, it is held in cell reset, its power switch joins it to VCORE. -/
structure PhysCell where
  clocked : Bool := false
  held : Bool := true
  powered : Bool := true
  deriving DecidableEq, Repr

/-- The results of stages 3 and 4 (R55, R85, R120, R148, R149); phys is by physical number. -/
structure Maps where
  live : List Nat := []
  badChannels : List Nat := []
  memDone : Bool := false
  cells : List Nat := []
  phys : Sparse PhysCell := []
  badCells : List (Nat × BitVec 4) := []
  good : Nat := 0
  spares : Nat := 0
  cellsDone : Bool := false
  oldLive : List Nat := []
  deriving DecidableEq, Repr

/-- The readings that only the console shows (R555, R556), with their extremes since cold reset: voltage monitors in mV and process monitors in
MHz. -/
structure Monitors where
  volts : Sparse Nat := []
  voltMin : Sparse Nat := []
  voltMax : Sparse Nat := []
  rings : Sparse Nat := []
  ringMin : Sparse Nat := []
  ringMax : Sparse Nat := []
  deriving DecidableEq, Repr

/-- Freeze and read-out (R511, R562 to R567). -/
structure Freeze where
  frozen : Bool := false
  conf : Bool := false
  cause : BitVec 8 := 0
  tick : Nat := 0
  snapTemps : Sparse (BitVec 13) := []
  snapMon : Monitors := {}
  alerts : Nat := 0
  computeLost : Bool := false
  agentLost : Bool := false
  deriving DecidableEq, Repr

/-- A rail's state in the sequence (R578). -/
inductive RailSt where
  | off | ramping | good | failed
  deriving DecidableEq, Repr

/-- Supplies and pins (22). -/
structure Supply where
  hotSwap : Bool := true
  rails : List (Rail × RailSt) :=
    [(.aux, .good), (.vser, .good), (.vpp, .good), (.vsram, .good), (.vcore, .good), (.vddq, .good)]
  rangeBad : List RailPoint := []
  resetN : Bool := true
  freezeN : Bool := true
  aux : Bool := true
  alertN : Bool := true
  slotId : BitVec 6 := 0
  rackId : BitVec 3 := 0
  cages : List Nat := []
  deriving DecidableEq, Repr

/-- Counts since cold reset that stop at their maximum; the rule of each stands at its register (DESIGN CHOICE, log 150). -/
structure Counts where
  badDoorbell : Nat := 0
  mboxDrop : Nat := 0
  hstStale : Nat := 0
  replays : Nat := 0
  hstRetrains : Nat := 0
  memCe : Sparse Nat := []
  memUe : Sparse Nat := []
  memTag : Sparse Nat := []
  ovrLate : Nat := 0
  ovrFailed : Nat := 0
  fryLost : Nat := 0
  fryStale : Nat := 0
  fryHeld : Nat := 0
  fryRefused : Nat := 0
  itkMalformed : Nat := 0
  itkBad : Nat := 0
  fecUncorr : Sparse Nat := []
  skew : Sparse Nat := []
  routeDrop : Nat := 0
  fenceDrop : Nat := 0
  purged : Nat := 0
  pruned : Nat := 0
  wmDup : Nat := 0
  wmMismatch : Nat := 0
  wmStale : Nat := 0
  pairDrop : Nat := 0
  resends : Nat := 0
  unreachable : Nat := 0
  crcDrop : Nat := 0
  dupDrop : Nat := 0
  badDest : Nat := 0
  resetDrop : Nat := 0
  staleGen : Nat := 0
  keyDrop : Nat := 0
  wheelFull : Nat := 0
  tel : Sparse Tel := []
  engineResets : Nat := 0
  rstStale : Nat := 0
  aborts : Nat := 0
  badCmd : Nat := 0
  installDenied : Nat := 0
  removals : Nat := 0
  partials : Nat := 0
  nonceStop : Nat := 0
  towCrc : Nat := 0
  towRefused : Nat := 0
  ethTxErr : Sparse Nat := []
  ethRxDrop : Sparse Nat := []
  deriving DecidableEq, Repr

/-- GEN_SETUP_ERR (R545). -/
structure SetupErr where
  offset : BitVec 24 := 0
  code : BitVec 7 := 0
  valid : Bool := false
  count : Nat := 0
  deriving DecidableEq, Repr

/-- The Hawser interface (09) (DESIGN CHOICE, log 149): flits are the last 256 that the module has sent, wire those it has put on the link since it
trained (R243), keeperWakes the wake events of the key keeper (R271). -/
structure Hawser where
  up : Bool := false
  trainedOnce : Bool := false
  downAt : Nat := 0
  lanes : Nat := 0
  adapterPort : BitVec 2 := 0
  retryAt : Nat := 0
  reads : List HostRead := []
  sqs : Sparse Sq := []
  cqs : Sparse Cq := []
  hbox : Sparse Mbox := []
  fbox : Sparse Mbox := []
  kbox : Sparse Mbox := []
  fqueue : List (Nat × List (BitVec 32)) := []
  heldOut : List HMsg := []
  out : List HMsg := []
  flitNext : Nat := 0
  flits : List Flit := []
  wire : List Flit := []
  keeperWakes : Nat := 0
  inReset : Bool := false
  paused : Bool := false
  rrRing : Nat := 0
  rrLeft : Nat := 0
  deriving DecidableEq, Repr

/-- The whole module. -/
structure State where
  pending : List Instr := []
  freeCtr : Nat := 0
  time : TimeSt := {}
  setup : Sparse (BitVec 32) := []
  setupErr : SetupErr := {}
  cnt : Counts := {}
  mem : Memory := []
  tags : Sparse LineTag := []
  pages : Sparse Page := []
  movers : Sparse Mover := []
  memErrs : List MemErr := []
  scrubLine : Nat := 0
  cells : Sparse CellSt := []
  faultRecs : List FaultRec := []
  sync : Sparse SyncObj := []
  syncWaits : List SyncWaiter := []
  hst : Hawser := {}
  ctxs : Sparse Context := [(0, { live := true })]
  jobs : List Job := []
  tt : Timetables := {}
  fry : Ferry := {}
  streams : List Stream := []
  itkReset : Bool := false
  ethq : Sparse (BitVec 32) := []
  eth : Sparse EthRing := []
  ethUp : Sparse Bool := []
  ethAddr : Sparse (BitVec 128) := []
  ethOut : List (Nat × List Byte) := []
  mgmtRx : List (List Byte) := []
  tow : Towpath := {}
  fab : Fabric := {}
  agent : Agent := {}
  wm : Wm := {}
  pw : Power := {}
  mon : Monitors := {}
  keys : Sparse KeySlot := []
  ids : Option IdKeys := none
  removal : Option Removal := none
  removeQueue : List KeeperWork := []
  fw : Update := {}
  flash : Flash := {}
  rst : Resets := {}
  boot : Boot := {}
  maps : Maps := {}
  frz : Freeze := {}
  sup : Supply := {}
  uart : List String := []
  jtag : List (BitVec 8) := []
  ledTestEnd : Nat := 0
  debugLocked : Bool := false
  debugOpen : Bool := false
  selftestFailed : Bool := false
  deriving DecidableEq, Repr

/-- The module right after a cold reset has ended: every register at its reset word (R547, R548), set-up values at their
defaults, every memory and table empty, supplies good and the hot-swap stage closed (R578; log 5), VCORE at OP0 and full issue
and memory permille (R412, R578 step 5), the Culvert relays closed until stage 0 ends (R479), FAB_EPOCH.census_done 1 (R359),
bring-up about to begin stage 0 (R477). The flash holds what it held (R461): here nothing (log 6) (DESIGN CHOICE, log 9). -/
def State.reset : State := {}

end Sys2Proof.Machine
end

