-- ==== Sys2Proof/Machine/Sparse.lean ====
section
/-! DEFINITION. Reading and writing a sparse table: a list of (key, value) pairs, keys strictly rising, that never lists the
default, so that equal tables are equal data; and the few list helpers the meanings share. -/

namespace Sys2Proof.Machine

/-- What the table holds at k; d where it lists nothing. -/
def sget {α : Type} (d : α) : List (Nat × α) → Nat → α
  | [], _ => d
  | (a, v) :: r, k => if a = k then v else sget d r k

/-- The table with v at k: an entry equal to d is removed. -/
def sset {α : Type} [DecidableEq α] (d : α) : List (Nat × α) → Nat → α → List (Nat × α)
  | [], k, v => if v = d then [] else [(k, v)]
  | (a, w) :: r, k, v =>
    if k < a then (if v = d then (a, w) :: r else (k, v) :: (a, w) :: r)
    else if k = a then (if v = d then r else (k, v) :: r)
    else (a, w) :: sset d r k v

/-- Every key of the table is at least lo, keys rise strictly and no entry is d. -/
def swfFrom {α : Type} [DecidableEq α] (d : α) : Nat → List (Nat × α) → Bool
  | _, [] => true
  | lo, (a, v) :: r => decide (lo ≤ a) && decide (v ≠ d) && swfFrom d (a + 1) r

/-- The canonical form of a sparse table. -/
def swf {α : Type} [DecidableEq α] (d : α) (m : List (Nat × α)) : Bool := swfFrom d 0 m

/-- The table changed at k by a function. -/
def supd {α : Type} [DecidableEq α] (d : α) (m : List (Nat × α)) (k : Nat) (f : α → α) : List (Nat × α) :=
  sset d m k (f (sget d m k))

/-- The table with a run of values from k on. -/
def ssetRun {α : Type} [DecidableEq α] (d : α) : List (Nat × α) → Nat → List α → List (Nat × α)
  | m, _, [] => m
  | m, k, v :: vs => ssetRun d (sset d m k v) (k + 1) vs

/-- The n values from k on. -/
def sgetRun {α : Type} (d : α) (m : List (Nat × α)) (k n : Nat) : List α := (List.range n).map fun i => sget d m (k + i)

/-- The table without the keys lo ≤ k < hi. -/
def sclear {α : Type} (m : List (Nat × α)) (lo hi : Nat) : List (Nat × α) := m.filter fun e => e.1 < lo || hi ≤ e.1

/-- The value of an association list under a key. -/
def lfind {κ α : Type} [DecidableEq κ] (m : List (κ × α)) (k : κ) : Option α := (m.find? fun e => e.1 = k).map (·.2)

/-- The state after f on every element in turn. -/
def forEach {σ α : Type} (xs : List α) (f : σ → α → σ) (s : σ) : σ := xs.foldl f s

/-- The smallest of a list of numbers, or d of none. -/
def minOf (d : Nat) (xs : List Nat) : Nat := xs.foldl min (xs.headD d)

/-- The largest of a list of numbers, 0 of none. -/
def maxOf (xs : List Nat) : Nat := xs.foldl max 0

/-- The sum of a list of numbers. -/
def sumOf (xs : List Nat) : Nat := xs.foldl (· + ·) 0

/-- The list sorted, smallest key first, elements of equal keys in their order. -/
def insBy {α : Type} (key : α → Nat) (x : α) : List α → List α
  | [] => [x]
  | y :: ys => if key x < key y then x :: y :: ys else y :: insBy key x ys

/-- A stable insertion sort by a key. -/
def sortBy {α : Type} (key : α → Nat) (xs : List α) : List α := xs.foldl (fun acc x => insBy key x acc) []

/-- The first n from start for which p holds. -/
def firstFrom (p : Nat → Bool) : Nat → Nat → Option Nat
  | 0, _ => none
  | n + 1, k => if p k then some k else firstFrom p n (k + 1)

end Sys2Proof.Machine
end

