-- ==== Sys2Proof/Machine/Crypto.lean ====
section
/-! DEFINITION. The checks and ciphers the spec names by their standards: CRC-16/CCITT (R587), CRC-32C (R306), SHA-384, HMAC and HKDF, AES-256,
AES-XTS (R125) and AES-GCM (R409, R516); and what is built of them: identity keys and certificates (R500, R501), image signatures, the
signature block of a report, and key blobs (R504, R505). The signature and key agreement schemes stand in Config as functions without a
body. -/

namespace Sys2Proof.Machine

/-! ### CRCs -/

/-- One bit step of a CRC of width w that shifts left. -/
def crcStep {w : Nat} (poly : BitVec w) (c : BitVec w) (bit : Bool) : BitVec w :=
  let top := c.toNat.testBit (w - 1)
  let c' := c <<< 1
  if top != bit then c' ^^^ poly else c'

/-- A byte fed most significant bit first. -/
def crcByte {w : Nat} (poly c : BitVec w) (b : Byte) : BitVec w :=
  [7, 6, 5, 4, 3, 2, 1, 0].foldl (fun c i => crcStep poly c (b.toNat.testBit i)) c

/-- Bytes fed one by one from a register value. The value is held as a number and matched after each byte, so that evaluation stays flat. -/
def crcRun {w : Nat} (f : BitVec w → Byte → BitVec w) : List Byte → Nat → BitVec w
  | [], c => BitVec.ofNat w c
  | b :: bs, c =>
    match (f (BitVec.ofNat w c) b).toNat with
    | 0 => crcRun f bs 0
    | n + 1 => crcRun f bs (n + 1)

/-- CRC-16/CCITT with the parameters of R587. -/
def crc16 (bs : List Byte) : BitVec 16 := crcRun (crcByte 0x1021) bs 0xFFFF

/-- One reflected bit step of CRC-32C. -/
def crc32cStep (c : BitVec 32) : BitVec 32 :=
  if c.toNat.testBit 0 then (c >>> 1) ^^^ 0x82F63B78 else c >>> 1

/-- CRC-32C (Castagnoli, reflected, initial value and final XOR all ones; PRESUMED, log 11). -/
def crc32c (bs : List Byte) : BitVec 32 :=
  let c := crcRun (fun (c : BitVec 32) (b : Byte) =>
    let c := c ^^^ b.zeroExtend 32
    [0, 1, 2, 3, 4, 5, 6, 7].foldl (fun c _ => crc32cStep c) c) bs 0xFFFFFFFF
  c ^^^ 0xFFFFFFFF

/-! ### SHA-384 -/

/-- The greatest number whose power e is at most n, from its bits below bit b; r holds those above. -/
def rootBits (e n : Nat) : Nat → Nat → Nat
  | 0, r => r
  | b + 1, r => rootBits e n b (if (r + 2 ^ b) ^ e ≤ n then r + 2 ^ b else r)

/-- The first 80 primes. -/
def shaPrimes : List Nat := (List.range 410).filter fun n => decide (2 ≤ n) && (List.range 19).all fun d => decide (n ≤ d + 2 ∨ n % (d + 2) ≠ 0)

/-- The round constants of SHA-384: the first 64 bits of the fractions of the cube roots of the first 80 primes (PRESUMED, log 114). -/
def shaK : List (BitVec 64) := shaPrimes.map fun p => BitVec.ofNat 64 (rootBits 3 (p * 2 ^ 192) 67 0)

/-- The initial hash value of SHA-384: likewise of the square roots of the ninth to the sixteenth prime. -/
def shaH : List (BitVec 64) := ((shaPrimes.take 16).drop 8).map fun p => BitVec.ofNat 64 (rootBits 2 (p * 2 ^ 128) 67 0)

/-- A block as a number, first byte most significant. -/
def beNat (bs : List Byte) : Nat := bs.foldl (fun n b => 256 * n + b.toNat) 0

/-- The n low bytes of a number, most significant first. -/
def beBytes (n v : Nat) : List Byte := (leBytes n v).reverse

/-- The message with its padding, a whole number of 128-byte blocks. -/
def shaPad (bs : List Byte) : List Byte :=
  bs ++ [0x80] ++ List.replicate ((256 - (bs.length + 17) % 128) % 128) 0 ++ beBytes 16 (8 * bs.length)

/-- A word turned right by each of some distances, the results added modulo 2. -/
def rotXor (x : BitVec 64) (ns : List Nat) : BitVec 64 := ns.foldl (fun y n => y ^^^ x.rotateRight n) 0

/-- The window of 16 message words moves on by one. -/
def shaSlide (w : List (BitVec 64)) : List (BitVec 64) :=
  let p := w.getD 1 0
  let q := w.getD 14 0
  w.drop 1 ++ [w.headD 0 + (rotXor p [1, 8] ^^^ (p >>> 7)) + w.getD 9 0 + (rotXor q [19, 61] ^^^ (q >>> 6))]

/-- One round on the eight working words; kw is the sum of its constant and its message word. -/
def shaStep (kw : BitVec 64) : List (BitVec 64) → List (BitVec 64)
  | [a, b, c, d, e, f, g, h] =>
    let t := kw + h + rotXor e [14, 18, 41] + (g ^^^ (e &&& (f ^^^ g)))
    [t + rotXor a [28, 34, 39] + ((a &&& b) ||| (c &&& (a ||| b))), a, b, c, d + t, e, f, g]
  | st => st

/-- The rounds of a block: a constant, the window and the working words go along together. -/
def shaRounds : List (BitVec 64) → List (BitVec 64) → List (BitVec 64) → List (BitVec 64)
  | [], _, st => st
  | k :: ks, w, st => shaRounds ks (shaSlide w) (shaStep (k + w.headD 0) st)

/-- The hash value after one block. -/
def shaBlock (h : List (BitVec 64)) (blk : List Byte) : List (BitVec 64) :=
  h.zipWith (· + ·) (shaRounds shaK ((chunks 8 blk).map fun c => BitVec.ofNat 64 (beNat c)) h)

/-- The SHA-384 digest as 48 bytes. -/
def sha384 (bs : List Byte) : List Byte :=
  let h := (chunks 128 (shaPad bs)).foldl shaBlock shaH
  (h.take 6).flatMap fun w => beBytes 8 w.toNat

/-- The digest as a number of 384 bits, its first byte lowest (R6). -/
def sha384Nat (bs : List Byte) : BitVec 384 := BitVec.ofNat 384 (leNat (sha384 bs))

/-! ### HMAC and HKDF over SHA-384 (R500, R505) -/

/-- HMAC-SHA-384 (RFC 2104) (PRESUMED, log 114). -/
def hmac384 (key msg : List Byte) : List Byte :=
  let k := if 128 < key.length then sha384 key else key
  let pad (v : Byte) : List Byte := (k ++ List.replicate (128 - k.length) 0).map (· ^^^ v)
  sha384 (pad 0x5C ++ sha384 (pad 0x36 ++ msg))

/-- HKDF-Extract (RFC 5869). -/
def hkdfExtract (salt ikm : List Byte) : List Byte := hmac384 salt ikm

/-- n blocks of HKDF-Expand after the block prev, which has number i. -/
def hkdfBlocks (prk info : List Byte) : Nat → Nat → List Byte → List Byte
  | 0, _, _ => []
  | n + 1, i, prev =>
    let t := hmac384 prk (prev ++ info ++ [BitVec.ofNat 8 (i + 1)])
    t ++ hkdfBlocks prk info n (i + 1) t

/-- HKDF-Expand (RFC 5869). -/
def hkdfExpand (prk info : List Byte) (length : Nat) : List Byte := (hkdfBlocks prk info ((length + 47) / 48) 0 []).take length

/-- The ASCII bytes of a text. -/
def ascii (t : String) : List Byte := t.toList.map fun c => BitVec.ofNat 8 c.toNat

/-- The n bytes of b from off, as a number, first byte lowest (R6). -/
def bytesNat (b : List Byte) (off n : Nat) : Nat := leNat ((b.drop off).take n)

/-! ### AES-256 -/

/-- The product of two elements of GF(2^8) modulo x^8 + x^4 + x^3 + x + 1. -/
def gfMul (a b : Nat) : Nat :=
  ((List.range 8).foldl (fun (acc : Nat × Nat) i =>
    let p := if b.testBit i then acc.1 ^^^ acc.2 else acc.1
    let x := 2 * acc.2
    (p, if 256 ≤ x then (x ^^^ 0x11B) % 256 else x)) (0, a)).1

/-- The inverse in GF(2^8), a to the 254th power. -/
def gfInv (a : Nat) : Nat :=
  let a2 := gfMul a a
  let a4 := gfMul a2 a2
  let a8 := gfMul a4 a4
  let a16 := gfMul a8 a8
  let a32 := gfMul a16 a16
  let a64 := gfMul a32 a32
  let a128 := gfMul a64 a64
  gfMul a128 (gfMul a64 (gfMul a32 (gfMul a16 (gfMul a8 (gfMul a4 a2)))))

/-- A byte rotated left by k. -/
def rotl8 (b k : Nat) : Nat := (b * 2 ^ k + b / 2 ^ (8 - k)) % 256

/-- The AES S-box. -/
def aesSub (b : Nat) : Nat :=
  let i := gfInv b
  i ^^^ rotl8 i 1 ^^^ rotl8 i 2 ^^^ rotl8 i 3 ^^^ rotl8 i 4 ^^^ 0x63

/-- The inverse S-box. -/
def aesSubInv (b : Nat) : Nat := gfInv (rotl8 b 1 ^^^ rotl8 b 3 ^^^ rotl8 b 6 ^^^ 0x05)

/-- The round constant of a key expansion step. -/
def aesRcon : Nat → Nat
  | 0 => 1
  | n + 1 => gfMul 2 (aesRcon n)

/-- The expanded key, four-byte words, newest first. -/
def aesExpand : Nat → Nat → List (List Nat) → List (List Nat)
  | 0, _, ws => ws
  | n + 1, i, ws =>
    let prev := ws.getD 0 []
    let t :=
      if i % 8 = 0 then
        let r := (prev.drop 1 ++ prev.take 1).map aesSub
        (r.headD 0 ^^^ aesRcon (i / 8 - 1)) :: r.drop 1
      else if i % 8 = 4 then prev.map aesSub
      else prev
    aesExpand n (i + 1) (((ws.getD 7 []).zipWith (· ^^^ ·) t) :: ws)

/-- The fifteen round keys of a 256-bit key of 32 bytes. -/
def aesKeys (key : List Nat) : List (List Nat) :=
  (chunks 4 ((aesExpand 52 8 (chunks 4 key).reverse).reverse)).map List.flatten

/-- The bytes of the state moved by ShiftRows (k = 1) or its inverse (k = 3). -/
def aesShift (k : Nat) (st : List Nat) : List Nat :=
  (List.range 16).map fun i => st.getD ((i % 4) + 4 * ((i / 4 + k * (i % 4)) % 4)) 0

/-- MixColumns by a circulant row. -/
def aesMix (row : List Nat) (st : List Nat) : List Nat :=
  (List.range 16).map fun i =>
    (List.range 4).foldl (fun acc j => acc ^^^ gfMul (row.getD ((j + 4 - i % 4) % 4) 0) (st.getD (4 * (i / 4) + j) 0)) 0

/-- The encryption of one 16-byte block (PRESUMED, log 114). -/
def aesEnc (key blk : List Nat) : List Nat :=
  let ks := aesKeys key
  let x0 := blk.zipWith (· ^^^ ·) (ks.getD 0 [])
  let mid := ((ks.drop 1).take 13).foldl (fun st k =>
    (aesMix [2, 3, 1, 1] (aesShift 1 (st.map aesSub))).zipWith (· ^^^ ·) k) x0
  (aesShift 1 (mid.map aesSub)).zipWith (· ^^^ ·) (ks.getD 14 [])

/-- The decryption of one 16-byte block. -/
def aesDec (key blk : List Nat) : List Nat :=
  let ks := (aesKeys key).reverse
  let x0 := blk.zipWith (· ^^^ ·) (ks.getD 0 [])
  let mid := ((ks.drop 1).take 13).foldl (fun st k =>
    aesMix [14, 11, 13, 9] (((aesShift 3 st).map aesSubInv).zipWith (· ^^^ ·) k)) x0
  ((aesShift 3 mid).map aesSubInv).zipWith (· ^^^ ·) (ks.getD 14 [])

/-- The next XTS tweak: the block, little-endian, times x. -/
def xtsDouble (t : Nat) : Nat := if 2 ^ 127 ≤ t then (2 * t) % 2 ^ 128 ^^^ 0x87 else 2 * t

/-- Bytes as numbers below 256. -/
def toNats (bs : List Byte) : List Nat := bs.map BitVec.toNat

/-- Numbers as bytes. -/
def toBytes (ns : List Nat) : List Byte := ns.map (BitVec.ofNat 8)

/-- The four blocks of a data unit through a block cipher between two uses of the tweak (IEEE 1619). -/
def xtsUnit (cipher : List Nat → List Nat) (tweak : Nat) : Nat → List Nat → List Nat
  | 0, _ => []
  | n + 1, bs =>
    let t := toNats (leBytes 16 tweak)
    ((cipher ((bs.take 16).zipWith (· ^^^ ·) t)).zipWith (· ^^^ ·) t) ++ xtsUnit cipher (xtsDouble tweak) n (bs.drop 16)

/-- The first tweak of a data unit number under the second key half. -/
def xtsTweak (key2 : List Nat) (unit : Nat) : Nat :=
  leNat (toBytes (aesEnc key2 (toNats (leBytes 16 unit))))

/-- AES-256-XTS encryption of a 64-byte line under a 512-bit key, its low half the data key (R125). -/
def xtsEnc (key : BitVec 512) (unit : Nat) (line : List Byte) : List Byte :=
  let kb := toNats (leBytes 64 key.toNat)
  toBytes (xtsUnit (aesEnc (kb.take 32)) (xtsTweak (kb.drop 32) unit) 4 (toNats line))

/-- AES-256-XTS decryption of a 64-byte line (R125). -/
def xtsDec (key : BitVec 512) (unit : Nat) (line : List Byte) : List Byte :=
  let kb := toNats (leBytes 64 key.toNat)
  toBytes (xtsUnit (aesDec (kb.take 32)) (xtsTweak (kb.drop 32) unit) 4 (toNats line))

/-! ### AES-256-GCM -/

/-- The product in GF(2^128) of GHASH, blocks read most significant bit first. -/
def ghashMul (x y : Nat) : Nat :=
  ((List.range 128).foldl (fun (acc : Nat × Nat) i =>
    let z := if x.testBit (127 - i) then acc.1 ^^^ acc.2 else acc.1
    (z, if acc.2 % 2 = 1 then (acc.2 / 2) ^^^ (0xE1 * 2 ^ 120) else acc.2 / 2)) (0, y)).1

/-- Zeros to a whole number of 16-byte blocks. -/
def pad16 (bs : List Byte) : List Byte := bs ++ List.replicate ((16 - bs.length % 16) % 16) 0

/-- The GHASH of the associated data and the ciphertext. -/
def ghash (h : Nat) (aad ct : List Byte) : Nat :=
  (chunks 16 (pad16 aad ++ pad16 ct ++ beBytes 8 (8 * aad.length) ++ beBytes 8 (8 * ct.length))).foldl
    (fun y b => ghashMul (y ^^^ beNat b) h) 0

/-- The counter-mode key stream from counter c. -/
def ctrStream (key : List Nat) (iv : List Byte) : Nat → Nat → List Nat
  | 0, _ => []
  | n + 1, c => aesEnc key (toNats (iv ++ beBytes 4 c)) ++ ctrStream key iv n (c + 1)

/-- AES-256-GCM with a 96-bit nonce: the text turned by the key stream. -/
def gcmText (key : List Byte) (iv txt : List Byte) : List Byte :=
  toBytes ((toNats txt).zipWith (· ^^^ ·) (ctrStream (toNats key) iv ((txt.length + 15) / 16) 2))

/-- The 16-byte tag of a ciphertext with its associated data. -/
def gcmTag (key : List Byte) (iv aad ct : List Byte) : List Byte :=
  let k := toNats key
  let h := beNat (toBytes (aesEnc k (List.replicate 16 0)))
  let s := ghash h aad ct
  toBytes ((toNats (beBytes 16 s)).zipWith (· ^^^ ·) (aesEnc k (toNats (iv ++ beBytes 4 1))))

/-! ### Identity keys, certificates and signatures (R3, R498, R500, R501, R505, R516, R523) -/

/-- The identity keys of a module, by its unique device secret (R500). -/
def idKeysOf (uds : BitVec 256) : IdKeys :=
  let prk := hkdfExtract (ascii "KTM8130 UDS v1") (leBytes 32 uds.toNat)
  let seed (info : String) (n : Nat) : Nat := leNat (hkdfExpand prk (ascii info) n)
  { ed := BitVec.ofNat 256 (seed "KTM8130 id ed25519" 32), mldsa := BitVec.ofNat 256 (seed "KTM8130 id mldsa65" 32),
    x := BitVec.ofNat 256 (seed "KTM8130 kem x25519" 32), kem := BitVec.ofNat 512 (seed "KTM8130 kem mlkem768" 64) }

/-- Both signatures over a message, one after the other: 64 and 3,309 bytes. -/
def bothSigns (ed mldsa : BitVec 256) (msg : List Byte) : List Byte :=
  leBytes 64 (Config.edSign ed msg).toNat ++ leBytes 3309 (Config.mldsaSign mldsa msg).toNat

/-- An identity certificate of 6,656 bytes: kind, serial or name, issuer, the four public keys, and the issuer's signatures (R501). -/
def certificate (kind : Nat) (name : BitVec 128) (issuer : BitVec 32) (pub : List Byte) (ed mldsa : BitVec 256) : List Byte :=
  let body := leBytes 64 (0x5452434B + 0x8130 * 2 ^ 32 + 2 ^ 48 + kind * 2 ^ 64 + name.toNat * 2 ^ 128 + issuer.toNat * 2 ^ 256) ++ pub
  body ++ bothSigns ed mldsa body ++ leBytes 19 0

/-- The public signing keys of two seeds. -/
def signPublic (ed mldsa : BitVec 256) : List Byte := leBytes 32 (Config.edPublic ed).toNat ++ leBytes 1952 (Config.mldsaPublic mldsa).toNat

/-- The device certificate in flash: the serial with the four public keys, signed by the device CA (R501). The X25519 public key is that of
the base point 9 (PRESUMED, log 114). -/
def deviceCert : List Byte :=
  let k := idKeysOf Config.uds
  certificate 1 Config.serial Config.caId
    (signPublic k.ed k.mldsa ++ leBytes 32 (Config.x25519 k.x 9).toNat ++ leBytes 1184 (Config.kemPublic k.kem).toNat) Config.caEd Config.caMldsa

/-- The CA certificate in flash: the device CA's signing keys, signed by the Kyovis root (R501). -/
def caCert : List Byte :=
  certificate 2 Config.caName Config.rootId (signPublic Config.caEd Config.caMldsa ++ leBytes 1216 0) Config.rootEd Config.rootMldsa

/-- Both signatures of an image header verify, over its bytes 0 to 511 (R3, R523, R524). -/
def imageSigned (h : List Byte) : Bool :=
  Config.edVerify Config.imageEd (h.take 512) (BitVec.ofNat 512 (bytesNat h 512 64))
    && Config.mldsaVerify Config.imageMldsa (h.take 512) (BitVec.ofNat 26472 (bytesNat h 576 3309))

/-- The signature block of a report (R516). -/
def attestBlock (k : IdKeys) (body : List Byte) : List Byte :=
  bothSigns k.ed k.mldsa (ascii "KTM8130 attest v1" ++ sha384 body) ++ leBytes 19 0

/-- The XTS key and the link key that a key blob wraps; none where its GCM tag fails (R504, R505). -/
def keyUnwrap (k : IdKeys) (b : List Byte) : Option (BitVec 512 × BitVec 256) :=
  let part (off n : Nat) : List Byte := (b.drop off).take n
  let ss1 := Config.kemDecaps k.kem (BitVec.ofNat 8704 (bytesNat b 64 1088))
  let ss2 := Config.x25519 k.x (BitVec.ofNat 256 (bytesNat b 1152 32))
  let info := ascii "KTM8130 wrap v1" ++ part 64 1088 ++ part 1152 32 ++ part 0 64
  let kek := hkdfExpand (hkdfExtract [] (leBytes 32 ss1.toNat ++ leBytes 32 ss2.toNat)) info 32
  if gcmTag kek (part 1184 12) (part 0 64) (part 1200 96) ≠ part 1296 16 then none
  else
    let keys := gcmText kek (part 1184 12) (part 1200 96)
    some (BitVec.ofNat 512 (bytesNat keys 0 64), BitVec.ofNat 256 (bytesNat keys 64 32))

end Sys2Proof.Machine
end

