-- ==== Sys2Proof/Machine/Ops.lean ====
section
/-! DEFINITION. The operations every family shares: time, set-up words, contexts and keys, device memory with the checks of R124
and R588, page ownership, messages to the host, completion records, and the frame that every command keeps. -/

namespace Sys2Proof.Machine

/-! ### The frame of a command -/

/-- What a command that is no register write leaves of its own effect t on s: the queue is as it was, and set-up values and
their errors change only by a cold reset, which returns every register to its reset word (R544, R547). -/
def commit (s t : State) : State :=
  if t.rst.colds = s.rst.colds then
    { t with pending := s.pending, setup := s.setup, setupErr := s.setupErr }
  else { t with pending := s.pending, setup := [], setupErr := {} }

/-- The outcome of a command whose effect is f (DESIGN CHOICE, log 1). -/
def act (f : State → State) (s : State) : Host.Outcome State Fault Refusal := .next (commit s (f s))

/-- The outcome of a command with an operand that only well-formed senders form: a fault for others. -/
def actIf (ok : Bool) (f : State → State) (s : State) : Host.Outcome State Fault Refusal :=
  if ok then act f s else .fault .illFormedCommand

/-! ### Time (00 Conventions, R152) -/

/-- Ticks in n microseconds. -/
def usTicks (n : Nat) : Nat := 100 * n

/-- Ticks in n milliseconds. -/
def msTicks (n : Nat) : Nat := 100000 * n

/-- Ticks in a link frame (R152). -/
def frameTicks : Nat := 16384

/-- Elapsed time in ticks since power-on, for timers. -/
def State.now (s : State) : Nat := s.time.clock

/-- The link frame of the tick count (R152). -/
def State.frame (s : State) : Nat := s.time.tick / frameTicks

/-! ### Set-up words (R541, R548) -/

/-- The reset word of the RW and RWL registers (R548); 0 for every other offset. -/
def resetWord (off : Nat) : BitVec 32 :=
  match off with
  | 0x100010 => 0x0003E80A
  | 0x200040 => 0x00000A18
  | 0x300020 => 0x00000008
  | 0x400010 => 0x004B4E00
  | 0x400020 => 0x00400010
  | 0x500010 => 0x08202040
  | 0x500020 => 0x0007D100
  | 0x500030 => 0x00000011
  | 0x600010 => 0x000001F4
  | 0x700044 => 0x00000440
  | 0x701070 => 0x0000002F
  | 0x702000 => 0x02384850
  | 0x702004 => 0x00143840
  | 0x702010 => 0x00014614
  | 0x702014 => 0x00000001
  | 0x702020 => 0x02994B60
  | 0x800010 => 0x00000514
  | 0x800014 => 0x14287864
  | 0x800020 => 0x00001028
  | 0x800030 => 0x0000005F
  | 0x900000 => 0x012C23E8
  | 0x900010 => 0x05010A0A
  | 0xA00010 => 0x00000014
  | 0xB00010 => 0x0000003C
  | 0xD00010 => 0x1D111D10
  | 0xE00010 => 0x00000064
  | _ => 0

/-- The word a set-up register holds: what was written to it since cold reset, else its reset word. -/
def State.word (s : State) (off : Nat) : BitVec 32 := ((lfind s.setup off).getD (resetWord off))

/-- The number in the field [lo + n - 1 : lo] of a set-up register. -/
def State.fld (s : State) (off lo n : Nat) : Nat := (s.word off).toNat / 2 ^ lo % 2 ^ n

/-- A value held to a range, the nearest end standing for values beyond it (R592). -/
def clamp (lo hi v : Nat) : Nat := max lo (min hi v)

/-- GEN_SETUP_LOCK.lock (R543). -/
def State.locked (s : State) : Bool := s.fld 0x8 0 1 = 1

/-- HST_CFG.rd_timeout_ms (R275) in ticks. -/
def State.rdTimeout (s : State) : Nat := msTicks (max 1 (s.fld 0x100010 0 8))

/-- HST_CFG.hold_ms (R275) in ticks. -/
def State.holdTicks (s : State) : Nat := msTicks (max 10 (s.fld 0x100010 8 12))

/-- HST_CFG.mbox_vector (R275). -/
def State.mboxVector (s : State) : Nat := s.fld 0x100010 20 8

/-- MON_CFG.prof_en (R551). -/
def State.profEn (s : State) : Bool := s.fld 0xC00000 0 1 = 1

/-! ### Contexts and keys -/

/-- A context; not live where it does not exist. -/
def State.ctx (s : State) (c : Nat) : Context := sget {} s.ctxs c

/-- The state with context c changed. -/
def State.updCtx (s : State) (c : Nat) (f : Context → Context) : State := { s with ctxs := supd {} s.ctxs c f }

/-- A key slot (R502). -/
def State.key (s : State) (k : Nat) : KeySlot := sget {} s.keys k

/-- The key slot of a context (R261). -/
def State.ctxSlot (s : State) (c : Nat) : BitVec 4 := (s.ctx c).keySlot

/-- The current generation of a key slot; slot 0 has generation 0 (R502). -/
def State.slotGen (s : State) (k : BitVec 4) : BitVec 6 := if k = 0 then 0 else (s.key k.toNat).gen

/-- Whether a context is confidential (R24 mode C). -/
def State.conf (s : State) (c : Nat) : Bool := decide (s.ctxSlot c ≠ 0)

/-! ### Device memory -/

/-- The base of the cell memory region (R11). -/
def cellRegion : Nat := 0xF00000000000

/-- The device address of local address a of logical cell n (R11). -/
def cellAddr (n a : Nat) : Nat := cellRegion + n * 0x200000 + a

/-- The LPDDR6 capacity (R121). -/
def State.capacity (s : State) : Nat := s.maps.live.length * (3 * 2 ^ 30)

/-- The regions of the device address map (R12). -/
inductive Region where
  | lpddr | hostWin | cellMem | sync | pair | regs | none
  deriving DecidableEq, Repr

/-- The region of a device address (R12). -/
def regionOf (a : Nat) : Region :=
  if a < 0x00C000000000 then .lpddr
  else if a < 0xE00000000000 then .none
  else if a < 0xE10000000000 then .hostWin
  else if a < 0xF00000000000 then .none
  else if a < 0xF10000000000 then .cellMem
  else if a < 0xF10000010000 then .sync
  else if a < 0xF20000000000 then .none
  else if a < 0xF2C000000000 then .pair
  else if a < 0xFF0000000000 then .none
  else if a < 0xFF0004000000 then .regs
  else .none

/-- A populated cell memory address (R11). -/
def inCells (a : Nat) : Bool := cellRegion ≤ a && a < 0xF00010000000

/-- The logical cell whose memory holds a populated cell memory address (R11). -/
def cellOf (a : Nat) : Nat := (a - cellRegion) / 0x200000

/-- The stored bytes from a on; an unlisted byte is 0 (R84, R130). -/
def memGet (m : Memory) (a n : Nat) : List Byte := sgetRun 0 m a n

/-- The memory with the bytes from a on stored. -/
def memPut (m : Memory) (a : Nat) (bs : List Byte) : Memory := ssetRun 0 m a bs

/-- The canonical form of the memory. -/
def Memory.wf (m : Memory) : Bool := swf (0 : Byte) m

/-- Local bytes of a cell's memory. -/
def State.cellGet (s : State) (n a len : Nat) : List Byte := memGet s.mem (cellAddr n a) len

/-- The state with local bytes of a cell's memory written. -/
def State.cellPut (s : State) (n a : Nat) (bs : List Byte) : State := { s with mem := memPut s.mem (cellAddr n a) bs }

/-- The number held in bytes of a cell's memory. -/
def State.cellNat (s : State) (n a len : Nat) : Nat := leNat (s.cellGet n a len)

/-- Where an LPDDR6 address lies: physical channel, byte offset within the channel, sub-channel (R120). -/
structure Place where
  chan : Nat
  coff : Nat
  sub : Nat
  deriving DecidableEq, Repr

/-- The place of an LPDDR6 address over the live channels (R120). -/
def placeOf (live : List Nat) (a : Nat) : Place :=
  let g := a / 256
  let l := live.length
  let r := g / l
  let h := (r % 256) ^^^ (r / 256 % 256) ^^^ (r / 65536 % 256)
  { chan := live.getD ((g % l + h) % l) 0, coff := r * 256 + a % 256, sub := a / 64 % 2 }

/-- The physical channel of an LPDDR6 address over the live channels (R120). -/
def channelOf (live : List Nat) (a : Nat) : Nat := (placeOf live a).chan

/-- The controller that serves an LPDDR6 address (R118). -/
def State.controllerOf (s : State) (a : Nat) : Nat := channelOf s.maps.live a / 8

/-- A channel recorded as failing in the fault record (R136). -/
def Flash.channelFault (f : Flash) (ch : Nat) : Flash :=
  if f.faultChannels.contains ch then f else { f with faultChannels := f.faultChannels ++ [ch] }

/-- A saturating count by index raised by one. -/
def bump (w : Nat) (m : Sparse Nat) (k : Nat) : Sparse Nat := sset 0 m k (satAdd w (sget 0 m k) 1)

/-- A memory error counted and recorded (R138, R151), as an address-check error where step 3 of R124 failed; a channel with 16 of them within
1 s goes into the fault record (R136). The errors that R136 calls uncorrectable are taken to be those that MEM_ERRCNT_n counts as such: every
failure of steps 1 to 3 of R124 (DEDUCED, log 170). -/
def State.noteMemErr (s : State) (ctx : BitVec 6) (a : Nat) (addrCheck : Bool := false) : State :=
  let ch := channelOf s.maps.live a
  let errs := s.memErrs ++ [{ addr := a, channel := ch, ctx := ctx, tick := s.now, addrCheck := addrCheck }]
  let recent := (errs.filter fun e => e.channel = ch && decide (s.now < e.tick + msTicks 1000)).length
  { s with cnt := { s.cnt with memUe := bump 8 s.cnt.memUe (s.controllerOf a) }, memErrs := errs,
           flash := if 16 ≤ recent then s.flash.channelFault ch else s.flash }

/-- A correctable error counted (R137). -/
def State.noteCe (s : State) (a : Nat) : State :=
  { s with cnt := { s.cnt with memCe := bump 16 s.cnt.memCe (s.controllerOf a) } }

/-- A tag mismatch counted (R124, R151). -/
def State.noteTag (s : State) (a : Nat) : State :=
  { s with cnt := { s.cnt with memTag := bump 8 s.cnt.memTag (s.controllerOf a) } }

/-- The metadata of the line that holds a (R122). -/
def State.tag (s : State) (a : Nat) : LineTag := sget {} s.tags (a / 64)

/-- What a line read gives: its data, a memory error, or a tag mismatch (R124). -/
inductive LineRes where
  | data (bs : List Byte)
  | bad
  | stale
  deriving DecidableEq, Repr

/-- addr_chk of a line's device address (R122). -/
def addrChk (a : Nat) : BitVec 12 :=
  BitVec.ofNat 12 (a / 2 ^ 6) ^^^ BitVec.ofNat 12 (a / 2 ^ 18) ^^^ BitVec.ofNat 12 (a / 2 ^ 30) ^^^ BitVec.ofNat 12 (a / 2 ^ 42 % 64)

/-- The 24-bit tag of the line at a as it was written (R122). -/
def LineTag.word (t : LineTag) (a : Nat) : BitVec 24 :=
  addrChk a ++ (0 : BitVec 1) ++ BitVec.ofBool t.poison ++ t.keyGen ++ t.keySlot

/-- The bytes of a line's 72 symbols with its errors laid over them: 64 data bytes, 3 of the tag, 5 of the check code (R122, R123). -/
def withErrs (err : Sparse Byte) (bs : List Byte) : List Byte := bs.zipIdx.map fun e => e.1 ^^^ sget 0 err e.2

/-- The 64 metadata bits of the line at a as they were written: the tag and the check code over data and tag (R122). -/
def State.lineMeta (s : State) (a : Nat) : BitVec 64 :=
  let w := (s.tag a).word a
  Config.checkCode (memGet s.mem a 64) w ++ w

/-- The 72 bytes that a read of the line at a receives (R119, R122). -/
def State.lineReceived (s : State) (a : Nat) : List Byte :=
  withErrs (s.tag a).err (memGet s.mem a 64 ++ leBytes 8 (s.lineMeta a).toNat)

/-- Step 1 of R124: what the check code makes of a line with errors in the symbols err (R123). Up to 2 are corrected, which the flag says,
3 are uncorrectable, and of more the part decides. -/
def LineTag.decode (t : LineTag) (a : Nat) (received bs : List Byte) : Option (Bool × List Byte × BitVec 24) :=
  match t.err.length with
  | 0 => some (false, bs, t.word a)
  | 1 => some (true, bs, t.word a)
  | 2 => some (true, bs, t.word a)
  | 3 => none
  | _ => Config.eccBeyond received

/-- Steps 1 to 3 of R124 on the line at a: its data as corrected with the tag's key slot and generation, or none for a memory error, which is
counted and recorded. -/
def State.checkLine (s : State) (ctx : BitVec 6) (a : Nat) : State × Option (List Byte × BitVec 24) :=
  match (s.tag a).decode a (s.lineReceived a) (memGet s.mem a 64) with
  | none => (s.noteMemErr ctx a, none)
  | some (fixed, bs, w) =>
    let s1 := if fixed then s.noteCe a else s
    if bitAt w 10 then (s1.noteMemErr ctx a, none)
    else if slice w 12 12 ≠ addrChk a then (s1.noteMemErr ctx a true, none)
    else (s1, some (bs, w))

/-- Step 4 of R124 for a requester with key slot k. -/
def State.tagOk (s : State) (k : BitVec 4) (w : BitVec 24) : Bool := slice w 0 4 = k && slice w 4 6 = s.slotGen k

/-- The data of a stored line under its own key slot (R125); raw leaves it as stored (R126). -/
def State.open_ (s : State) (k : BitVec 4) (raw : Bool) (a : Nat) (bs : List Byte) : List Byte :=
  if k = 0 ∨ raw then bs else xtsDec (s.key k.toNat).xts (a / 64) bs

/-- A line as it is stored under a key slot (R125, R126). -/
def State.seal (s : State) (k : BitVec 4) (raw : Bool) (a : Nat) (bs : List Byte) : List Byte :=
  if k = 0 ∨ raw then bs else xtsEnc (s.key k.toNat).xts (a / 64) bs

/-- The read of the line at a (a multiple of 64) for a requester with key slot k, checked in the order of R124. Cell memory
holds plaintext without metadata. -/
def State.readLine (s : State) (ctx : BitVec 6) (k : BitVec 4) (raw : Bool) (a : Nat) : State × LineRes :=
  if regionOf a = .lpddr then
    match s.checkLine ctx a with
    | (s1, none) => (s1, .bad)
    | (s1, some (bs, w)) => if s.tagOk k w then (s1, .data (s.open_ k raw a bs)) else (s1.noteTag a, .stale)
  else (s, .data (memGet s.mem a 64))

/-- A whole line written: data, check code, the writer's tag, poison 0 (R588). -/
def State.putLine (s : State) (k : BitVec 4) (raw : Bool) (a : Nat) (bs : List Byte) : State :=
  { s with mem := memPut s.mem a (s.seal k raw a bs),
           tags := sset {} s.tags (a / 64) { keySlot := k, keyGen := s.slotGen k } }

/-- A line marked poisoned under its old tag (R138, R146, R588 step 3). -/
def State.poisonLine (s : State) (a : Nat) : State :=
  { s with tags := supd {} s.tags (a / 64) fun t => { t with poison := true, err := [] } }

/-- A write of the bytes bs at offset off of the line at a (R588); the flag says that a memory error kept them out. A raw write of part of a
line (R126) merges ciphertext with the ciphertext stored, no byte of which is decrypted (DESIGN CHOICE, log 171). -/
def State.writeLine (s : State) (ctx : BitVec 6) (k : BitVec 4) (raw : Bool) (a off : Nat) (bs : List Byte) : State × Bool :=
  if regionOf a = .lpddr then
    if off = 0 ∧ bs.length = 64 then (s.putLine k raw a bs, false)
    else
      match s.checkLine ctx a with
      | (s1, none) => (s1.poisonLine a, true)
      | (s1, some (was, w)) =>
        let old := if s.tagOk k w then s.open_ k raw a was else List.replicate 64 0
        (s1.putLine k raw a (old.take off ++ bs ++ old.drop (off + bs.length)), false)
  else ({ s with mem := memPut s.mem (a + off) bs }, false)

/-- What a read of a run of bytes gave: the bytes up to the first failing line, and that line with stale = true for a tag
mismatch. -/
structure ReadRes where
  st : State
  bytes : List Byte
  fail : Option (Bool × Nat)

/-- The lines that the bytes [a, a + len) touch, by address. -/
def linesOf (a len : Nat) : List Nat :=
  if len = 0 then [] else (List.range ((a + len - 1) / 64 - a / 64 + 1)).map fun i => (a / 64 + i) * 64

/-- The group of channels of a controller is in reset (R133). -/
def State.groupInReset (s : State) (m : Nat) : Bool := s.rst.active.any fun r => match r.dom with
  | .memGroup g => g.val = m
  | _ => false

/-- A range of LPDDR6 has a line whose group of channels is in reset: a request for it waits (R133). -/
def State.memWaits (s : State) (a len : Nat) : Bool :=
  !s.rst.active.isEmpty && regionOf a = .lpddr && (linesOf a len).any fun l => s.groupInReset (s.controllerOf l)

/-- The read of len bytes at a; a requester that meets an error reads no further line (R138). -/
def State.readBytes (s : State) (ctx : BitVec 6) (k : BitVec 4) (raw : Bool) (a len : Nat) : ReadRes :=
  (linesOf a len).foldl (fun r ln =>
    if r.fail.isSome then r
    else
      match r.st.readLine ctx k raw ln with
      | (s', .data bs) =>
        { st := s', bytes := r.bytes ++ (bs.take (a + len - ln)).drop (a - ln), fail := none }
      | (s', .bad) => { st := s', bytes := r.bytes, fail := some (false, ln) }
      | (s', .stale) => { st := s', bytes := r.bytes, fail := some (true, ln) })
    { st := s, bytes := [], fail := none }

/-- The write of bytes at a, line by line, with the first line that a memory error kept out. A requester that stops there writes no further
line; with goOn it goes on (R138). -/
def State.writeBytes (s : State) (ctx : BitVec 6) (k : BitVec 4) (raw goOn : Bool) (a : Nat) (bs : List Byte) :
    State × Option Nat :=
  (linesOf a bs.length).foldl (fun r ln =>
    if r.2.isSome && !goOn then r
    else
      let w := r.1.writeLine ctx k raw ln (a - ln) ((bs.take (ln + 64 - a)).drop (ln - a))
      (w.1, if w.2 then r.2.orElse fun _ => some ln else r.2)) (s, none)

/-- Whole pages from lo to hi zeroed with the tag key_slot 0, key_gen 0 (R130, R146). -/
def State.zeroRange (s : State) (lo hi : Nat) : State :=
  { s with mem := sclear s.mem lo hi, tags := sclear s.tags (lo / 64) (hi / 64) }

/-! ### Page ownership (R128, R129) -/

/-- Bytes of a page. -/
def pageSize : Nat := 0x200000

/-- A page ownership table entry (R128). -/
def State.page (s : State) (n : Nat) : Page := sget {} s.pages n

/-- Whether context c may reach a page (R129). -/
def Page.allows (p : Page) (c : BitVec 6) (write byMover : Bool) : Bool :=
  match p.state with
  | .owned => p.ctx = c
  | .shared => if write then byMover && decide (p.ctx = c) else true
  | .free => false
  | .scrubbing => false

/-- The pages that the bytes [a, a + len) touch. -/
def pagesOf (a len : Nat) : List Nat :=
  if len = 0 then [] else (List.range ((a + len - 1) / pageSize - a / pageSize + 1)).map fun i => a / pageSize + i

/-- The page check of R129 on a range of LPDDR6: the lowest address of the first failing page that the range touches. -/
def State.pageFail (s : State) (c : BitVec 6) (write byMover : Bool) (a len : Nat) : Option Nat :=
  ((pagesOf a len).find? fun p => !(s.page p).allows c write byMover).map fun p => max a (p * pageSize)

/-! ### Modules and slices (R366, R376) -/

/-- The module index 64x + 8y + z (R339). -/
def modIdx (c : Nat × Nat × Nat) : Nat := 64 * c.1 + 8 * c.2.1 + c.2.2

/-- The coordinates of a module index. -/
def idxXYZ (m : Nat) : Nat × Nat × Nat := (m / 64 % 8, m / 8 % 8, m % 8)

/-- The extent of a slice in a dimension, and its origin. -/
def sliceExt (r : BitVec 256) (d : Nat) : Nat := fieldNat r (11 + 3 * d) (9 + 3 * d) + 1
def sliceOrg (r : BitVec 256) (d : Nat) : Nat := fieldNat r (2 + 3 * d) (3 * d)

/-- The coordinates of a member at offsets (R376). -/
def memberAt (r : BitVec 256) (o : Nat × Nat × Nat) : Nat :=
  modIdx ((sliceOrg r 0 + o.1) % 8, (sliceOrg r 1 + o.2.1) % 8, (sliceOrg r 2 + o.2.2) % 8)

/-! ### Messages to the host (R244, R246) -/

/-- The bytes of a message: its 16-byte header and its payload (R244). -/
def HMsg.bytes (m : HMsg) : List Byte :=
  leBytes 16 (m.type.toNat + m.len % 2 ^ 13 * 2 ^ 8 + m.tag % 2 ^ 10 * 2 ^ 24 + m.gen.toNat * 2 ^ 40 + m.addr % 2 ^ 64 * 2 ^ 64) ++ m.data

/-- The 256 bytes of a flit (R243): its header, 240 bytes of message data and the CRC-32C over both. -/
def Flit.bytes (f : Flit) : List Byte :=
  let body := leBytes 12 (Config.flitHeader f.seq f.nack).toNat ++ f.data ++ List.replicate (240 - f.data.length) 0
  body ++ leBytes 4 (crc32c body).toNat

/-- Message bytes cut into flits that number on from next. -/
def flitsOf (next : Nat) (bytes : List Byte) : List Flit := (chunks 240 bytes).zipIdx.map fun e => { seq := next + e.2, data := e.1 }

/-- The flits that a sender keeps for replay. -/
def lastFlits (fs : List Flit) : List Flit := fs.drop (fs.length - 256)

/-- A message goes out in the next flits, which the module keeps for replay, the last 256 of them (R243, R244; DESIGN CHOICE, log 180). -/
def State.sendMsg (s : State) (m : HMsg) : State :=
  let fs := flitsOf s.hst.flitNext m.bytes
  { s with hst := { s.hst with out := s.hst.out ++ [m], flitNext := s.hst.flitNext + fs.length, wire := s.hst.wire ++ fs,
                               flits := lastFlits (s.hst.flits ++ fs) } }

/-- A message of the pair port goes out in flits by the same rules (R285). -/
def State.pairCarry (s : State) (type : BitVec 8) (body : List Byte) : State :=
  let fs := flitsOf s.fab.pairFlitNext (Config.pairBytes type body)
  { s with fab := { s.fab with pairFlitNext := s.fab.pairFlitNext + fs.length, pairWire := s.fab.pairWire ++ fs,
                               pairFlits := lastFlits (s.fab.pairFlits ++ fs) } }

/-- A message of the Watermaster or of updates on the pair port (R402, R531). -/
def State.pairNote (s : State) (type : BitVec 8) (body : List Byte) : State :=
  ({ s with wm := { s.wm with pairOut := s.wm.pairOut ++ [(type, body)] } }).pairCarry type body

/-! ### Multicast groups of Intake streams (R288) -/

/-- A stream configuration record (R221). -/
abbrev StreamRec := BitVec 1024

def rPort (r : StreamRec) : Nat := fieldNat r 4 4
def rIpv6 (r : StreamRec) : Bool := bitAt r 5
def rIp (r : StreamRec) : Nat := fieldNat r 191 64

/-- The multicast group that a stream's address is, with its IP version: 224.0.0.0/4 or ff00::/8 (PRESUMED, log 184). -/
def rGroup (r : StreamRec) : Option (Bool × Nat) :=
  if rIpv6 r then (if rIp r / 2 ^ 120 % 256 = 0xFF then some (true, rIp r) else none)
  else if rIp r / 2 ^ 28 % 16 = 0xE then some (false, rIp r) else none

/-- The groups that the streams of a port make it a member of. -/
def State.groups (s : State) (p : Nat) : List (Bool × Nat) := ((s.streams.filter fun x => rPort x.record = p).filterMap fun x => rGroup x.record).eraseDups

/-- A port joins a group, or leaves it, where its link is up. -/
def State.tellGroup (s : State) (join : Bool) (p : Nat) (g : Bool × Nat) : State :=
  if sget false s.ethUp p then
    { s with ethOut := s.ethOut ++ [(p, Config.groupReport g.1 (sget 0 s.flash.mac p) (sget 0 s.ethAddr p) g.2 join)] }
  else s

/-- What the management complex sends when the streams of the module are no longer those of before: a join for each new group and a leave for each
one gone (R288). -/
def State.tellGroups (s before : State) : State :=
  forEach [0, 1] (fun (s : State) p =>
    let new := (s.groups p).filter fun g => !(before.groups p).contains g
    let old := (before.groups p).filter fun g => !(s.groups p).contains g
    forEach old (fun s g => s.tellGroup false p g) (forEach new (fun s g => s.tellGroup true p g) s)) s

/-- The Hawser link carries messages. -/
def State.linkOpen (s : State) : Bool := s.hst.up && !s.hst.inReset

/-- A message sent with the generation tag in force, or held while the link is down (R244, R246). -/
def State.hostMsg (s : State) (m : HMsg) : State :=
  if s.linkOpen then s.sendMsg { m with gen := s.rst.hawserGen }
  else { s with hst := { s.hst with heldOut := s.hst.heldOut ++ [m] } }

/-- HOST_WR messages of at most 4,096 bytes (R244). -/
def State.hostWr (s : State) (addr : Nat) (bs : List Byte) : State :=
  ((chunks 4096 bs).zipIdx).foldl (fun s ci =>
    s.hostMsg { type := 0x02, addr := addr + 4096 * ci.2, data := ci.1, len := ci.1.length }) s

/-- EVENT with a vector (R244, R253). -/
def State.hostEvent (s : State) (vector : Nat) : State := s.hostMsg { type := 0x03, addr := vector }

/-- The lowest tag without an outstanding read (R244). -/
def State.freeTag (s : State) : Option Nat := firstFrom (fun t => s.hst.reads.all fun r => r.tag ≠ t) 1024 0

/-- A HOST_RD sent for a purpose, where a tag is free and the link is up. -/
def State.hostRd (s : State) (addr len : Nat) (p : ReadFor) : Option State :=
  match s.freeTag with
  | none => none
  | some t =>
    if s.linkOpen then
      let r : HostRead := { tag := t, addr := addr, len := len, purpose := p, at_ := s.now }
      some (({ s with hst := { s.hst with reads := s.hst.reads ++ [r] } } : State).hostMsg { type := 0x01, tag := t, addr := addr, len := len })
    else none

/-! ### Status codes (R260) and completion records (R253, R256) -/

def stOk : Nat := 0x00
def stPartial : Nat := 0x01
def stRejected : Nat := 0x02
def stBadDesc : Nat := 0x03
def stFaultCtx : Nat := 0x04
def stTimeout : Nat := 0x05
def stGenStale : Nat := 0x06
def stFenced : Nat := 0x07
def stSecDenied : Nat := 0x08
def stOverrun : Nat := 0x09
def stBusy : Nat := 0x0A
def stNotInService : Nat := 0x0B
def stBadOpcode : Nat := 0x0C

/-- A submission ring. -/
def State.sq (s : State) (n : Nat) : Sq := sget {} s.hst.sqs n

/-- A completion ring. -/
def State.cq (s : State) (n : Nat) : Cq := sget {} s.hst.cqs n

/-- The state with a submission ring changed. -/
def State.updSq (s : State) (n : Nat) (f : Sq → Sq) : State :=
  { s with hst := { s.hst with sqs := supd {} s.hst.sqs n f } }

/-- The state with a completion ring changed. -/
def State.updCq (s : State) (n : Nat) (f : Cq → Cq) : State :=
  { s with hst := { s.hst with cqs := supd {} s.hst.cqs n f } }

/-- Entries of a completion ring neither consumed-pending nor reserved (R251). -/
def Cq.room (q : Cq) : Nat :=
  2 ^ q.log2n - min (2 ^ q.log2n) ((q.written % 2 ^ 32 + 2 ^ 32 - q.consumed) % 2 ^ 32) - q.reserved

/-- The phase bit of the next record of a ring: 1 on the first pass, then alternating (R253). -/
def Cq.phase (q : Cq) : Nat := (q.written / 2 ^ q.log2n + 1) % 2

/-- A value held at the maximum of its field (R257). -/
def cap (w v : Nat) : Nat := min v (2 ^ w - 1)

/-- The 32 bytes of a completion record (R256). -/
def mkRecord (tag opcode ctx step phase status sq index r0 r1 detail tick : Nat) : Record :=
  BitVec.ofNat 256 (tag % 2 ^ 16 + opcode % 2 ^ 8 * 2 ^ 16 + ctx % 2 ^ 6 * 2 ^ 24 + step % 2 * 2 ^ 30 + phase % 2 * 2 ^ 31
    + status % 2 ^ 8 * 2 ^ 32 + sq % 2 ^ 8 * 2 ^ 40 + index % 2 ^ 16 * 2 ^ 48 + cap 64 r0 * 2 ^ 64 + cap 64 r1 * 2 ^ 128
    + cap 32 detail * 2 ^ 192 + tick % 2 ^ 32 * 2 ^ 224)

/-- The event rule of R253 after a record went to a ring. -/
def State.cqEvent (s : State) (n : Nat) : State :=
  let q := s.cq n
  if q.armed then
    let seen := q.evSeen + 1
    if q.evCount ≤ seen ∨ q.evUs = 0 then
      (s.updCq n fun q => { q with armed := false, evSeen := 0 }).hostEvent q.vector.toNat
    else s.updCq n fun q => { q with evSeen := seen, evFirst := if q.evSeen = 0 then s.now else q.evFirst }
  else s

/-- A record written at the ring's next entry as one 32-byte write, with its phase bit (R253). -/
def State.putRecord (s : State) (n : Nat) (r : Record) : State :=
  let q := s.cq n
  if q.isOpen then
    let r' : Record := BitVec.ofNat 256 (r.toNat - bitN r.toNat 31 + q.phase * 2 ^ 31)
    let s1 := s.hostMsg { type := 0x02, addr := q.base + 32 * (q.written % 2 ^ q.log2n), data := leBytes 32 r'.toNat, len := 32, record := true }
    (s1.updCq n fun q => { q with written := q.written + 1 }).cqEvent n
  else s
where
  /-- The weight of bit i in v. -/
  bitN (v i : Nat) : Nat := v / 2 ^ i % 2 * 2 ^ i

/-- What a completion says. -/
structure Done where
  status : Nat
  r0 : Nat := 0
  r1 : Nat := 0
  detail : Nat := 0

/-- BAD_DESCRIPTOR with the bit of the field at fault (R255). -/
def badBit (b : Nat) : Done := { status := stBadDesc, detail := b }

/-- BAD_DESCRIPTOR for a bit inside an object that the descriptor names (R255). -/
def badObj (b : Nat) : Done := { status := stBadDesc, detail := 2 ^ 31 + b }

/-- The completion record of a descriptor of ring sq in slot; its reserved entry is used (R251). -/
def State.complete (s : State) (sq slot : Nat) (d : Line) (r : Done) : State :=
  let q := s.sq sq
  let rec_ := mkRecord (fieldNat d 31 16) (fieldNat d 7 0) (fieldNat d 13 8) 0 0 r.status sq slot r.r0 r.r1 r.detail s.time.tick
  (s.updCq q.cq fun c => { c with reserved := c.reserved - 1 }).putRecord q.cq rec_

/-! ### Started descriptors (R252) -/

/-- A fence no longer waits for a descriptor of its set that has completed (R467). -/
def Job.unwait (j : Job) (sq slot : Nat) : Job :=
  match j.kind with
  | .fence waits n clear => { j with kind := .fence (waits.filter fun w => decide (w ≠ (sq, slot))) n clear }
  | _ => j

/-- The started descriptor of a ring and slot. -/
def State.job (s : State) (sq slot : Nat) : Option Job := s.jobs.find? fun j => j.sq = sq && j.slot = slot

/-- The state with the started descriptor's remaining work changed. -/
def State.updJob (s : State) (sq slot : Nat) (f : JobKind → JobKind) : State :=
  { s with jobs := s.jobs.map fun j => if j.sq = sq ∧ j.slot = slot then { j with kind := f j.kind } else j }

/-- A descriptor becomes started (R252). -/
def State.startJob (s : State) (sq slot : Nat) (d : Line) (k : JobKind) : State :=
  { s with jobs := s.jobs ++ [{ sq := sq, slot := slot, desc := d, start := s.now, kind := k }] }

/-- A report goes to host memory and its descriptor completes; while the link is down the command waits for it (R246). -/
def State.reportOut (s : State) (sq slot : Nat) (d : Line) (addr : Nat) (bs : List Byte) (r0 r1 : Nat) : State :=
  if s.linkOpen then (s.hostWr addr bs).complete sq slot d { status := stOk, r0 := r0, r1 := r1 }
  else s.startJob sq slot d (.report addr bs r0 r1)

/-- Started descriptors of a ring. -/
def State.started (s : State) (sq : Nat) : List Job := s.jobs.filter fun j => j.sq = sq

/-- A SYNC_WAIT or FENCE holds back the ring (R252). -/
def State.heldBack (s : State) (sq : Nat) : Bool :=
  (s.started sq).any fun j => match j.kind with
    | .syncWait => true
    | .fence _ _ _ => true
    | _ => false

/-- The started descriptor leaves with its record; nothing where it is not started. -/
def State.retire (s : State) (sq slot : Nat) (r : Done) : State :=
  match s.job sq slot with
  | none => s
  | some j =>
    ({ s with jobs := List.map (fun (x : Job) => x.unwait sq slot) (s.jobs.filter fun x => !(x.sq = sq && x.slot = slot)) }).complete sq slot j.desc r

/-- Free-value fields: the counter read and advanced. -/
def State.free (s : State) (w : Nat) : State × BitVec w := ({ s with freeCtr := s.freeCtr + 1 }, Config.freeValue w s.freeCtr)

/-- n free bytes: values the spec leaves open (log 3). -/
def State.freeBytes (s : State) (n : Nat) : State × List Byte :=
  ({ s with freeCtr := s.freeCtr + n }, (List.range n).map fun i => Config.freeValue 8 (s.freeCtr + i))

/-- The field [hi:lo] of a header in bytes. -/
def bytesField (bs : List Byte) (hi lo : Nat) : Nat := leNat bs / 2 ^ lo % 2 ^ (hi + 1 - lo)

/-! ### Image slots (R522, R524) -/

/-- The field [hi:lo] of a 4,096-byte image header (R524). -/
def hdrField (h : List Byte) (hi lo : Nat) : Nat := bytesField (h.take 512) hi lo

/-- What a slot's header says of its image, and the digests of the image and of its cell microcode (R515, R524); 0 for an empty slot. -/
def FwImage.version (i : FwImage) : BitVec 32 := BitVec.ofNat 32 (hdrField i.hdr 95 64)
def FwImage.svn (i : FwImage) : Nat := hdrField i.hdr 102 96
def FwImage.fmt (i : FwImage) : Nat := hdrField i.hdr 127 112
def FwImage.sections (i : FwImage) : BitVec 2 := BitVec.ofNat 2 (hdrField i.hdr 105 104)
def FwImage.digest (i : FwImage) : BitVec 384 := if i.present then sha384Nat i.bytes else 0
def FwImage.ucode (i : FwImage) : BitVec 384 := if i.present then Config.ucodeOf i.bytes else 0

/-- The running image, and the other slot's. -/
def State.runImage (s : State) : FwImage := if s.fw.running then s.fw.slot1 else s.fw.slot0
def State.otherImage (s : State) : FwImage := if s.fw.running then s.fw.slot0 else s.fw.slot1

end Sys2Proof.Machine
end

