-- ==== Sys2Proof/Machine/Num.lean ====
section
/-! DEFINITION. Number formats (R27 to R30, R98), exact values and the single rounding (R44, R50 to R52). A finite value is
(-1)^neg x m x 2^e with a natural m, held exactly. -/

namespace Sys2Proof.Machine

/-- What a code of a format stands for (R28). -/
inductive Val where
  | nan
  | inf (neg : Bool)
  | fin (neg : Bool) (m : Nat) (e : Int)
  deriving DecidableEq, Repr

/-- How a binary format ends at the top: as IEEE 754, as E4M3 (one NaN code per sign, no Inf), or without specials (R28). -/
inductive Top where
  | ieee | e4m3 | plain
  deriving DecidableEq, Repr

/-- A sign, exponent and fraction format (R27). -/
structure Fmt where
  ebits : Nat
  mbits : Nat
  bias : Int
  top : Top

def fE4M3 : Fmt := ⟨4, 3, 7, .e4m3⟩
def fE5M2 : Fmt := ⟨5, 2, 15, .ieee⟩
def fE3M2 : Fmt := ⟨3, 2, 3, .plain⟩
def fE2M3 : Fmt := ⟨2, 3, 1, .plain⟩
def fE2M1 : Fmt := ⟨2, 1, 1, .plain⟩
def fBF16 : Fmt := ⟨8, 7, 127, .ieee⟩
def fFP16 : Fmt := ⟨5, 10, 15, .ieee⟩
def fFP32 : Fmt := ⟨8, 23, 127, .ieee⟩

/-- Bits of a format. -/
def Fmt.width (f : Fmt) : Nat := 1 + f.ebits + f.mbits

/-- The largest finite code without its sign (R28). -/
def Fmt.maxCode (f : Fmt) : Nat :=
  match f.top with
  | .ieee => (2 ^ f.ebits - 1) * 2 ^ f.mbits - 1
  | .e4m3 => 2 ^ (f.ebits + f.mbits) - 2
  | .plain => 2 ^ (f.ebits + f.mbits) - 1

/-- The value of a code (R28). -/
def Fmt.decode (f : Fmt) (c : Nat) : Val :=
  let neg := decide (c / 2 ^ (f.ebits + f.mbits) % 2 = 1)
  let ex := c / 2 ^ f.mbits % 2 ^ f.ebits
  let man := c % 2 ^ f.mbits
  let top := decide (ex = 2 ^ f.ebits - 1)
  if f.top = .ieee ∧ top then (if man = 0 then .inf neg else .nan)
  else if f.top = .e4m3 ∧ top ∧ man = 2 ^ f.mbits - 1 then .nan
  else if ex = 0 then .fin neg man (1 - f.bias - f.mbits)
  else .fin neg (2 ^ f.mbits + man) ((ex : Int) - f.bias - f.mbits)

/-- The sign placed above a code. -/
def Fmt.signed (f : Fmt) (neg : Bool) (c : Nat) : Nat := c + neg.toNat * 2 ^ (f.ebits + f.mbits)

/-- The canonical NaN (R43, R51). -/
def Fmt.nanCode (f : Fmt) : Nat :=
  match f.top with
  | .ieee => if f.ebits = 5 ∧ f.mbits = 2 then 0x7F else (2 ^ f.ebits - 1) * 2 ^ f.mbits + 2 ^ (f.mbits - 1)
  | .e4m3 => 0x7F
  | .plain => 0

/-- Inf of an IEEE format. -/
def Fmt.infCode (f : Fmt) (neg : Bool) : Nat := f.signed neg ((2 ^ f.ebits - 1) * 2 ^ f.mbits)

/-- The rounding directions (R34). -/
inductive RMode where
  | nearest | zero | down | up
  deriving DecidableEq, Repr

/-- The rounding direction of a window's rmode. -/
def rmodeOf : Nat → RMode
  | 0 => .nearest
  | 1 => .zero
  | 2 => .down
  | _ => .up

/-- A magnitude away from zero is chosen in a direction, for a value strictly between two results. -/
def RMode.away (r : RMode) (neg : Bool) : Bool :=
  match r with
  | .nearest => false
  | .zero => false
  | .down => neg
  | .up => !neg

/-- m x 2^(-s) rounded to a natural, for a value of sign neg. -/
def roundNat (r : RMode) (neg : Bool) (m : Nat) (s : Int) : Nat :=
  if s ≤ 0 then m * 2 ^ (-s).toNat
  else
    let d := 2 ^ s.toNat
    let q := m / d
    let x := m % d
    let up := match r with
      | .nearest => decide (d < 2 * x) || (decide (2 * x = d) && decide (q % 2 = 1))
      | _ => decide (x ≠ 0) && r.away neg
    if up then q + 1 else q

/-- The code, without sign, of m x 2^e (m > 0) rounded to the format with an unbounded exponent; a result above maxCode is beyond
the largest finite value. -/
def Fmt.roundCode (f : Fmt) (r : RMode) (neg : Bool) (m : Nat) (e : Int) : Nat :=
  let emin : Int := 1 - f.bias
  let top : Int := e + (Nat.log2 m : Nat)
  let ex := max top emin
  (ex - emin).toNat * 2 ^ f.mbits + roundNat r neg m (ex - f.mbits - e)

/-- A value rounded once to an IEEE format in a direction (R44): overflow gives Inf or the largest finite value by the direction, a
zero keeps its sign. -/
def Fmt.round (f : Fmt) (r : RMode) : Val → Nat
  | .nan => f.nanCode
  | .inf neg => f.infCode neg
  | .fin neg 0 _ => f.signed neg 0
  | .fin neg m e =>
    let c := f.roundCode r neg m e
    if c ≤ f.maxCode then f.signed neg c
    else if r = .nearest ∨ r.away neg then f.infCode neg else f.signed neg f.maxCode

/-- m x 2^e as a signed integer in units of 2^u, u at most e. -/
def inUnits (neg : Bool) (m : Nat) (e u : Int) : Int :=
  let v : Int := m * 2 ^ (e - u).toNat
  if neg then -v else v

/-- The exact sum (R50): an exact zero is +0 unless both addends are -0. -/
def Val.add : Val → Val → Val
  | .nan, _ => .nan
  | _, .nan => .nan
  | .inf a, .inf b => if a = b then .inf a else .nan
  | .inf a, _ => .inf a
  | _, .inf b => .inf b
  | .fin a m e, .fin b n d =>
    let u := min e d
    let s := inUnits a m e u + inUnits b n d u
    if s = 0 then .fin (a && b && decide (m = 0) && decide (n = 0)) 0 0 else .fin (decide (s < 0)) s.natAbs u

/-- The exact product. -/
def Val.mul : Val → Val → Val
  | .nan, _ => .nan
  | _, .nan => .nan
  | .inf a, .inf b => .inf (a != b)
  | .inf a, .fin b n _ => if n = 0 then .nan else .inf (a != b)
  | .fin a m _, .inf b => if m = 0 then .nan else .inf (a != b)
  | .fin a m e, .fin b n d => .fin (a != b) (m * n) (e + d)

/-- The value with its sign changed. -/
def Val.neg : Val → Val
  | .nan => .nan
  | .inf a => .inf (!a)
  | .fin a m e => .fin (!a) m e

/-- a < b, false with a NaN; -0 equals +0. -/
def Val.lt : Val → Val → Bool
  | .nan, _ => false
  | _, .nan => false
  | .inf a, .inf b => a && !b
  | .inf a, .fin _ _ _ => a
  | .fin _ _ _, .inf b => !b
  | .fin a m e, .fin b n d => let u := min e d; decide (inUnits a m e u < inUnits b n d u)

/-- a = b as IEEE 754 compares. -/
def Val.eq : Val → Val → Bool
  | .nan, _ => false
  | _, .nan => false
  | .inf a, .inf b => a = b
  | .inf _, .fin _ _ _ => false
  | .fin _ _ _, .inf _ => false
  | .fin a m e, .fin b n d => let u := min e d; decide (inUnits a m e u = inUnits b n d u)

/-- The sign bit of a value that is not NaN. -/
def Val.isNeg : Val → Bool
  | .nan => false
  | .inf a => a
  | .fin a _ _ => a

/-- minimum and maximum as IEEE 754-2019 defines them: NaN if an input is NaN, -0 below +0 (DEDUCED, log 18). -/
def Val.minOf (a b : Val) : Val :=
  if a = .nan ∨ b = .nan then .nan else if a.lt b then a else if b.lt a then b else if a.isNeg then a else b

def Val.maxOf (a b : Val) : Val :=
  if a = .nan ∨ b = .nan then .nan else if a.lt b then b else if b.lt a then a else if a.isNeg then b else a

/-- A code of the format is NaN or Inf. -/
def Fmt.special (f : Fmt) (c : Nat) : Bool :=
  match f.decode c with
  | .fin _ _ _ => false
  | _ => true

/-! ### FP32 (R48, R50) -/

/-- The sum of two FP32 codes, rounded to nearest. -/
def add32 (a b : Nat) : Nat := fFP32.round .nearest ((fFP32.decode a).add (fFP32.decode b))

/-- The pairwise tree over 2^n codes (R48 step 3, R76). -/
def tree32 : Nat → List Nat → Nat
  | 0, xs => xs.headD 0
  | n + 1, xs => tree32 n ((chunks 2 xs).map fun p => add32 (p.getD 0 0) (p.getD 1 0))

/-! ### Elements (R27, R30, R98) -/

/-- The bits of an element format by its code; 0 for a reserved one. -/
def elemBits (code : Nat) : Nat :=
  match code with
  | 0 => 8
  | 1 => 8
  | 2 => 6
  | 3 => 6
  | 4 => 4
  | 5 => 8
  | 6 => 8
  | 7 => 4
  | 8 => 16
  | 9 => 16
  | 10 => 32
  | 11 => 8
  | _ => 0

/-- The MX formats of R31. -/
def isMx (code : Nat) : Bool := code ≤ 5

/-- The value of an integer element. -/
def intVal (i : Int) (e : Int) : Val := .fin (decide (i < 0)) i.natAbs e

/-- The value of an element (R27, R28). -/
def elemVal (code x : Nat) : Val :=
  match code with
  | 0 => fE4M3.decode x
  | 1 => fE5M2.decode x
  | 2 => fE3M2.decode x
  | 3 => fE2M3.decode x
  | 4 => fE2M1.decode x
  | 5 => intVal (signed 8 x) (-6)
  | 6 => intVal (signed 8 x) 0
  | 7 => intVal (signed 4 x) 0
  | 8 => fBF16.decode x
  | 9 => fFP16.decode x
  | _ => fFP32.decode x

/-- Elements packed from bit 0 with no gaps (R30). -/
def packElems (w : Nat) (xs : List Nat) : Nat := xs.foldr (fun x acc => x % 2 ^ w + acc * 2 ^ w) 0

/-- Element i of a packed run. -/
def elemAt (w run i : Nat) : Nat := run / 2 ^ (w * i) % 2 ^ w

/-! ### Conversions of the vector unit (R51, R52) -/

/-- A value rounded to nearest and clamped to a two's complement integer of n bits in units of 2^u; NaN gives 0 (R51). -/
def toInt (n : Nat) (u : Int) : Val → Nat
  | .nan => 0
  | .inf neg => unsigned n (if neg then -(2 ^ (n - 1)) else 2 ^ (n - 1) - 1)
  | .fin neg m e =>
    let q : Int := roundNat .nearest neg m (u - e)
    unsigned n (max (-(2 ^ (n - 1))) (min (2 ^ (n - 1) - 1) (if neg then -q else q)))

/-- E4M3 of R51: beyond the range, decided after rounding (DEDUCED, log 19), the saturating form gives 448 and the other NaN by
sign. -/
def toE4M3 (sat : Bool) : Val → Nat
  | .nan => 0x7F
  | .inf neg => fE4M3.signed neg (if sat then 0x7E else 0x7F)
  | .fin neg 0 _ => fE4M3.signed neg 0
  | .fin neg m e =>
    let c := fE4M3.roundCode .nearest neg m e
    fE4M3.signed neg (if c ≤ 0x7E then c else if sat then 0x7E else 0x7F)

/-- The conversion of R51 from FP32 to a format code of VCVT. -/
def cvtFrom32 (code x : Nat) : Nat :=
  let v := fFP32.decode x
  match code with
  | 0 => toE4M3 true v
  | 1 => fE5M2.round .nearest v
  | 6 => toInt 8 0 v
  | 7 => toInt 4 0 v
  | 8 => fBF16.round .nearest v
  | 9 => fFP16.round .nearest v
  | _ => toE4M3 false v

/-- emax of a format (R52). -/
def emaxOf (code : Nat) : Int :=
  match code with
  | 0 => 8
  | 1 => 15
  | 2 => 4
  | 3 => 2
  | 4 => 2
  | _ => 0

/-- The binary format of an MX floating point code. -/
def mxFmt (code : Nat) : Fmt :=
  match code with
  | 0 => fE4M3
  | 1 => fE5M2
  | 2 => fE3M2
  | 3 => fE2M3
  | _ => fE2M1

/-- One element of MX quantize: the value over 2^s, rounded to nearest and saturated (R52 step 5). -/
def quantElem (code : Nat) (s : Int) : Val → Nat
  | .fin neg 0 _ => if code = 5 then 0 else (mxFmt code).signed neg 0
  | .fin neg m e =>
    if code = 5 then toInt 8 (-6) (.fin neg m (e - s))
    else (mxFmt code).signed neg (min (mxFmt code).maxCode ((mxFmt code).roundCode .nearest neg m (e - s)))
  | _ => 0

/-- floor(log2) of a finite magnitude, and none for zero or a special. -/
def Val.exp : Val → Option Int
  | .fin _ m e => if m = 0 then none else some (e + (Nat.log2 m : Nat))
  | _ => none

/-- MX quantize of a block of FP32 codes: the scale code and the elements (R52). -/
def quantBlock (code : Nat) (xs : List Nat) : Nat × List Nat :=
  let vs := xs.map fFP32.decode
  if xs.any fFP32.special then (0xFF, xs.map fun _ => 0)
  else
    match vs.filterMap Val.exp with
    | [] => (0, xs.map fun _ => 0)
    | e :: es =>
      let s := max (-127) (min 127 (es.foldl max e - emaxOf code))
      ((s + 127).toNat, vs.map (quantElem code s))

end Sys2Proof.Machine
end

