-- ==== Sys2Proof/Machine/Operands.lean ====
section
/-! DEFINITION. The operand forms of a bundle (R88, R92, R94, R102, R104, R108): slots, fields, and the checks a bundle passes at
PROGRAM_LOAD (R113). -/

namespace Sys2Proof.Machine

/-- The five slots of a bundle, with their bit in Issue.left. -/
inductive Slot where
  | ld | mx | vx | mv | ct
  deriving DecidableEq, Repr

/-- The bit of a slot in Issue.left. -/
def Slot.idx : Slot → Nat
  | .ld => 0
  | .mx => 1
  | .vx => 2
  | .mv => 3
  | .ct => 4

/-- The lowest bundle bit of a slot (R88). -/
def Slot.base : Slot → Nat
  | .ct => 0
  | .mv => 48
  | .vx => 96
  | .mx => 152
  | .ld => 208

/-- The width of a slot. -/
def Slot.width : Slot → Nat
  | .vx => 56
  | .mx => 56
  | _ => 48

/-- The slot of a bundle, as a number. -/
def slotOf (b : BitVec 256) (k : Slot) : Nat := b.toNat / 2 ^ k.base % 2 ^ k.width

/-- A slot's opcode. -/
def slotOp (b : BitVec 256) (k : Slot) : Nat := slotOf b k % 64

/-- The field [lo + n - 1 : lo] of a slot. -/
def sf (x lo n : Nat) : Nat := x / 2 ^ lo % 2 ^ n

/-- The slots of a bundle that are not NOP. -/
def slotsOf (b : BitVec 256) : BitVec 5 :=
  BitVec.ofNat 5 (([Slot.ld, .mx, .vx, .mv, .ct].filter fun k => slotOp b k ≠ 0).foldl (fun n k => n + 2 ^ k.idx) 0)

/-- The signed line offset of the LD slot (R92). -/
def ldOff (x : Nat) : Int := signed 22 (sf x 26 22)

/-- The immediate of the MV slot (R104), sign-extended. -/
def mvImm (x : Nat) : BitVec 64 := BitVec.ofInt 64 (signed 32 (sf x 16 32))

/-- The immediate of the CT slot (R108). -/
def ctImm (x : Nat) : Nat := sf x 21 27

/-- The operation is a wait (R91). -/
def isWait (op : Nat) : Bool := op = 0x08 || op = 0x09 || op = 0x0B || op = 0x0E

/-! ### Checks at PROGRAM_LOAD (R113) -/

/-- Field checks of the LD slot (R92, R93): slot bit and whether it fails. -/
def ldBad (x : Nat) : List (Nat × Bool) :=
  let op := sf x 0 6
  let lines := op = 1 || op = 2
  if op = 0 then [(0, x ≠ 0)]
  else
    [(0, 6 < op), (6, (op = 5 || op = 6) && 8 ≤ sf x 6 5), (21, !lines && sf x 21 4 ≠ 0),
     (6, lines && 31 < sf x 6 5 + sf x 21 4 / 4), (16, !lines && sf x 16 5 ≠ 0), (25, sf x 25 1 ≠ 0)]

/-- Field checks of the MX slot (R94). -/
def mxBad (x : Nat) : List (Nat × Bool) :=
  let op := sf x 0 6
  if op = 0 then [(0, x ≠ 0)]
  else if op = 5 then [(6, sf x 6 7 ≠ 0), (48, sf x 48 8 ≠ 0)]
  else
    [(0, 5 < op), (6, op = 4 && sf x 6 5 ≠ 0), (11, sf x 11 2 = 3), (16, (op = 2 || op = 4) && sf x 16 1 ≠ 0),
     (17, op = 4 && sf x 17 14 ≠ 0), (31, sf x 31 25 ≠ 0)]

/-- VX operations that read source a as a V register. -/
def vxA (op : Nat) : Bool := (1 ≤ op && op ≤ 0x13) || op = 0x15

/-- VX operations that read source b. -/
def vxB (op : Nat) : Bool := 1 ≤ op && op ≤ 0x0C

/-- The unused part of a VX immediate, by its lowest slot bit. -/
def vxImmBad (op imm : Nat) : Bool :=
  if op = 7 then imm / 64 ≠ 0
  else if op = 0x0D ∨ op = 0x0E then imm / 16 ≠ 0
  else if op = 0x15 then imm / 64 ≠ 0
  else if op = 0x16 then imm / 2048 ≠ 0
  else imm ≠ 0

/-- The VCVT combinations of R103. -/
def cvtOk (ty code : Nat) : Bool :=
  if ty = 0 then [0x0, 0x1, 0x6, 0x7, 0x8, 0x9, 0xB].contains code else code = 0xA

/-- A VX type that an operation refuses: 0b11, and any but FP32 for the operations that are FP32 only (R102, R103). The sum across
lanes, VMOVA, VEXT and VPSET act on 32-bit lanes and positions whatever the type (DEDUCED, log 22). -/
def vxTypeBad (op ty code : Nat) : Bool :=
  ty = 3 || (0x0F ≤ op && op ≤ 0x12 && ty ≠ 0) || (op = 0x0D && !cvtOk ty code) || (op = 0x0E && (ty ≠ 0 || 5 < code))

/-- Field checks of the VX slot (R102, R103). -/
def vxBad (x : Nat) : List (Nat × Bool) :=
  let op := sf x 0 6
  let imm := sf x 33 23
  if op = 0 then [(0, x ≠ 0)]
  else
    [(0, 0x16 < op), (6, vxTypeBad op (sf x 6 2) (imm % 16)), (8, (op = 7 || op = 0x16) && sf x 8 5 ≠ 0),
     (13, !(vxA op || op = 0x14) && sf x 13 5 ≠ 0), (18, !vxB op && sf x 18 5 ≠ 0), (23, op ≠ 4 && sf x 23 5 ≠ 0),
     (28, sf x 31 1 = 0 && op ≠ 8 && sf x 28 3 ≠ 0), (31, op = 8 && sf x 31 1 ≠ 0), (32, sf x 31 1 = 0 && sf x 32 1 ≠ 0),
     (33, vxImmBad op imm || (op = 7 && 4 ≤ imm / 8) || (op = 0x16 && 128 < imm / 8))]

/-- Field checks of the MV slot (R104). -/
def mvBad (x : Nat) : List (Nat × Bool) :=
  let op := sf x 0 6
  let reg := op = 3 || op = 4
  if op = 0 then [(0, x ≠ 0)]
  else
    [(0, op = 7 || 0x0A < op), (6, 8 ≤ op && sf x 6 5 ≠ 0), (11, op = 1 && sf x 11 5 ≠ 0), (21, reg && sf x 21 27 ≠ 0),
     (16, (op = 5 || op = 6) && 64 ≤ sf x 16 32)]

/-- CT operations that write A[ad]. -/
def ctWrites (op : Nat) : Bool := op = 0x0A || op = 0x0C || op = 0x0D

/-- CT operations that read A[as]. -/
def ctReadsS (op : Nat) : Bool := (2 ≤ op && op ≤ 5) || op = 8 || (0x0C ≤ op && op ≤ 0x0E)

/-- CT operations that read A[at]. -/
def ctReadsT (op : Nat) : Bool := op = 4 || op = 5 || op = 0x0D || op = 0x0E

/-- The bits of the immediate that a CT operation uses. -/
def ctImmBits (op : Nat) : Nat :=
  if 1 ≤ op ∧ op ≤ 5 then 12
  else if op = 0x0B then 5
  else if op = 0x0F then 16
  else if op = 8 ∨ op = 0x10 then 0
  else 27

/-- Field checks of the CT slot in an image of count bundles from base, for a thread (R108, R109). -/
def ctBad (base count : Nat) (tr : Bool) (x : Nat) : List (Nat × Bool) :=
  let op := sf x 0 6
  let target := sf x 21 12
  if op = 0 then [(0, x ≠ 0)]
  else
    [(0, op = 6 || op = 7 || 0x10 < op || (tr && (op = 8 || op = 9 || op = 0x0A))), (6, !ctWrites op && sf x 6 5 ≠ 0),
     (11, !ctReadsS op && sf x 11 5 ≠ 0), (16, !ctReadsT op && sf x 16 5 ≠ 0),
     (21, 2 ^ ctImmBits op ≤ ctImm x || (1 ≤ op && op ≤ 5 && (target < base || base + count ≤ target)))]

/-- The A registers that the slots of a bundle write, each with the bundle bit of its field; A0 apart (R89). -/
def writesA (b : BitVec 256) : List (Nat × Nat) :=
  let x := slotOf b
  let c := if ctWrites (slotOp b .ct) then [(sf (x .ct) 6 5, 6)] else []
  let m := if 1 ≤ slotOp b .mv ∧ slotOp b .mv ≤ 6 then [(sf (x .mv) 6 5, 54)] else []
  let v := if slotOp b .vx = 0x15 then [(sf (x .vx) 8 5, 104)] else []
  let l := if slotOp b .ld = 3 then [(sf (x .ld) 6 5, 214)] else []
  (c ++ m ++ v ++ l).filter fun w => w.1 ≠ 0

/-- The bundle bit of the lowest field by which two slots write the same register (R89). -/
def writeClash (b : BitVec 256) : Option Nat :=
  let a := writesA b
  let twiceA := (a.find? fun w => 2 ≤ (a.filter fun z => z.1 = w.1).length).map (·.2)
  let lx := slotOf b .ld
  let vx := slotOf b .vx
  let lop := slotOp b .ld
  let vop := slotOp b .vx
  let r := sf lx 6 5
  let vd := sf vx 8 5
  let vV := vop ≠ 0 && vop ≠ 7 && vop ≠ 0x15 && vop ≠ 0x16
  let twiceV := lop = 1 && vV && r ≤ vd && vd ≤ r + sf lx 21 4 / 4
  let twiceP := lop = 5 && (vop = 7 || vop = 0x16) && sf vx 33 3 = r % 8
  twiceA.orElse fun _ => if twiceV then some 104 else if twiceP then some 129 else none

/-- The lowest bundle bit at fault of a refused bundle (R113, R255); none for an accepted one. -/
def bundleBad (base count : Nat) (tr : Bool) (b : BitVec 256) : Option Nat :=
  let one (k : Slot) (l : List (Nat × Bool)) : List Nat := (l.filter (·.2)).map fun p => k.base + p.1
  let bad := one .ct (ctBad base count tr (slotOf b .ct)) ++ one .mv (mvBad (slotOf b .mv)) ++ one .vx (vxBad (slotOf b .vx))
    ++ one .mx (mxBad (slotOf b .mx)) ++ one .ld (ldBad (slotOf b .ld)) ++ (writeClash b).toList
  match bad with
  | [] => none
  | x :: xs => some (xs.foldl min x)

end Sys2Proof.Machine
end

