-- ==== Sys2Proof/Machine/Flags.lean ====
section
/-! DEFINITION. The exact-window accumulator (R33 to R49): products cut at the window, the flags N, P, M, R, T and O, records, the
rounding on conversion, and accumulation in FP32. -/

namespace Sys2Proof.Machine

/-! ### Windows (R34, R35) -/

def winWl (w : BitVec 32) : Int := signed 10 (fieldNat w 9 0)
def winRm (w : BitVec 32) : RMode := rmodeOf (fieldNat w 11 10)
def winOut (w : BitVec 32) : Nat := fieldNat w 14 12
def winFp32 (w : BitVec 32) : Bool := bitAt w 15

/-- The check of R35 that needs no operand format: out_fmt and the reserved field; a drain also refuses raw records of FP32. -/
def winBad (w : BitVec 32) (drain : Bool) : Bool :=
  4 ≤ winOut w || fieldNat w 31 16 ≠ 0 || (drain && winOut w = 3 && winFp32 w)

/-! ### Accumulation (R36 to R42) -/

/-- The flags that a product sets, and what it adds to S (R36, R37, R42). -/
def Acc.addProduct (a : Acc) (wl : Int) : Val → Acc
  | .nan => { a with n := true }
  | .inf false => { a with p := true }
  | .inf true => { a with m := true }
  | .fin neg m e =>
    let sh := wl - e
    let q : Nat := if sh ≤ 0 then m * 2 ^ (-sh).toNat else m / 2 ^ sh.toNat
    let lost := decide (0 < sh) && decide (m % 2 ^ sh.toNat ≠ 0)
    let qi : Int := if neg then -(q : Int) else q
    { a with s := a.s + BitVec.ofInt 120 qi, r := a.r || decide (2 ^ 95 ≤ q), t := a.t || lost }

/-- The product of two elements under their block scales: 2^(ea + eb - 254) for MX, a scale of 0xFF makes it NaN (R33, R42). -/
def mxProduct (a b : Val) (ea eb : Nat) : Val :=
  if ea = 255 ∨ eb = 255 then .nan
  else
    match a.mul b with
    | .fin neg m e => .fin neg m (e + ea + eb - 254)
    | v => v

/-- S as an integer. -/
def Acc.int (a : Acc) : Int := a.s.toInt

/-- S[95:0] as an integer. -/
def Acc.low (a : Acc) : Int := signed 96 (a.s.toNat % 2 ^ 96)

/-- Flag O, computed when the value is written out or converted (R38). -/
def Acc.o (a : Acc) : Bool := a.r || decide (a.int < -(2 ^ 95)) || decide (2 ^ 95 ≤ a.int)

/-- The 16-byte EWA record (R39). -/
def Acc.record (a : Acc) : BitVec 128 :=
  BitVec.ofNat 128 (a.s.toNat + a.n.toNat * 2 ^ 120 + a.p.toNat * 2 ^ 121 + a.m.toNat * 2 ^ 122 + a.r.toNat * 2 ^ 123
    + a.o.toNat * 2 ^ 124 + a.t.toNat * 2 ^ 125)

/-- A record added into an accumulator (R40): o and the reserved bits are ignored. -/
def Acc.addRecord (a : Acc) (x : BitVec 128) : Acc :=
  { s := a.s + slice x 0 120, n := a.n || bitAt x 120, p := a.p || bitAt x 121, m := a.m || bitAt x 122, r := a.r || bitAt x 123,
    t := a.t || bitAt x 125 }

/-- A flag that counts as an escape (R46) (DEDUCED, log 112). -/
def Acc.escaped (a : Acc) : Bool := a.n || a.p || a.m || a.r || a.o

/-! ### Conversion (R43 to R46, R48) -/

/-- The output format of out_fmt; raw records apart. -/
def outFmt (code : Nat) : Fmt :=
  match code with
  | 1 => fBF16
  | 2 => fFP16
  | _ => fFP32

/-- Bytes of an output (R101). -/
def outSize (code : Nat) : Nat :=
  match code with
  | 0 => 4
  | 3 => 16
  | _ => 2

/-- The overflow NaN (R43). -/
def Fmt.overNan (f : Fmt) : Nat := f.nanCode + 1

/-- An exact product with the scales of R45: a zero scale beside finite ones gives +0, as does V = 0. -/
def scaledVal (v sa sw : Val) : Val :=
  match v.mul (sa.mul sw) with
  | .fin neg m e => if m = 0 then .fin false 0 0 else .fin neg m e
  | x => x

/-- An accumulator of an EWA bank converted to a format, with the scales of its channel where it is scaled (R43, R44, R45)
(DEDUCED, log 155). -/
def Acc.convert (a : Acc) (f : Fmt) (rm : RMode) (wl : Int) (scales : Option (Nat × Nat)) : Nat :=
  if a.n ∨ (a.p ∧ a.m) then f.nanCode
  else if a.p then f.infCode false
  else if a.m then f.infCode true
  else if a.o then f.overNan
  else
    let v : Val := if a.low = 0 then .fin false 0 0 else .fin (decide (a.low < 0)) a.low.natAbs wl
    match scales with
    | none => f.round rm v
    | some (sa, sw) =>
      let x := fFP32.decode sa
      let y := fFP32.decode sw
      let neg := decide (a.low < 0) ^^ x.isNeg ^^ y.isNeg
      match x, y with
      | .nan, _ => f.nanCode
      | _, .nan => f.nanCode
      | .fin _ _ _, .fin _ _ _ => if a.s = 0 then 0 else f.round rm (scaledVal v x y)
      | _, _ => if a.low = 0 then f.nanCode else f.infCode neg

/-- An accumulator of an FP32 bank converted (R48): one rounding to nearest of the value or of its exact scaled product. -/
def convert32 (x : Nat) (f : Fmt) (scales : Option (Nat × Nat)) : Nat :=
  match scales with
  | none => f.round .nearest (fFP32.decode x)
  | some (sa, sw) => f.round .nearest ((fFP32.decode x).mul ((fFP32.decode sa).mul (fFP32.decode sw)))

/-! ### FP32 in fixed order (R48) -/

/-- The running accumulator after the products of one instruction, in groups of 32. -/
def accumulate32 (acc : Nat) (products : List Nat) : Nat :=
  (chunks 32 products).foldl (fun a g => add32 a (tree32 5 (g ++ List.replicate (32 - g.length) 0))) acc

/-! ### Operand pairs (R32) -/

/-- A pair of format codes that the array accepts. -/
def pairOk (a b : Nat) : Bool :=
  (isMx a && isMx b) || ((a = 6 || a = 7) && (b = 6 || b = 7)) || (a = 8 && b = 8) || (a = 9 && b = 9)

end Sys2Proof.Machine
end

