-- ==== Sys2Proof/Machine/MatrixArray.lean ====
section
/-! DEFINITION. The cells and the matrix array (R53, R54, R65, R71, R72, R96 to R101, R117): the threads of a cell, what a matrix
instruction's descriptor asks for, what each instruction does to its bank and to memory, and how the array suspends or stops one. -/

namespace Sys2Proof.Machine

/-! ### Cells and threads -/

/-- A logical cell. -/
def State.cell (s : State) (c : Nat) : CellSt := sget {} s.cells c

/-- The state with a cell changed. -/
def State.updCell (s : State) (c : Nat) (f : CellSt → CellSt) : State := { s with cells := supd {} s.cells c f }

/-- A thread of a cell. -/
def CellSt.th (x : CellSt) : Thread → ThreadSt
  | .fg => x.fg
  | .tr => x.tr

/-- The cell with a thread changed. -/
def CellSt.updTh (x : CellSt) (t : Thread) (f : ThreadSt → ThreadSt) : CellSt :=
  match t with
  | .fg => { x with fg := f x.fg }
  | .tr => { x with tr := f x.tr }

/-- A thread of a logical cell. -/
def State.th (s : State) (c : Nat) (t : Thread) : ThreadSt := (s.cell c).th t

/-- The state with a thread changed. -/
def State.updTh (s : State) (c : Nat) (t : Thread) (f : ThreadSt → ThreadSt) : State := s.updCell c fun x => x.updTh t f

/-- The compute clocks run: not frozen and no warm or cold reset (R20, R563). -/
def State.compute (s : State) : Bool := !s.frz.frozen && !s.rst.warm && !s.rst.cold

/-- MON_PROF counts run (R551, R558). -/
def State.profOn (s : State) : Bool :=
  s.profEn && (s.fld 0x20 0 2 ≠ 1 || s.sup.aux != (s.fld 0x20 2 1 = 1))

/-- The foreground thread leaves a gap for the trickle thread (R64, R179): it does not run, or waits on a tick more than one tick
away, or on a sync object whose condition does not hold. -/
def State.gap (s : State) (c : Nat) : Bool :=
  let f := s.th c .fg
  if !f.running then true
  else match f.wait with
    | .tick aw => s.time.tick + 1 < aw
    | .sync _ _ sat ab => !sat && !ab
    | _ => false

/-- A cell serves a confidential context (R25 note e). -/
def State.cellConf (s : State) (n : Nat) : Bool :=
  ((s.th n .fg).work.isSome && s.conf (s.th n .fg).ctx.toNat) || ((s.th n .tr).work.isSome && s.conf (s.th n .tr).ctx.toNat)

/-! ### Frequencies (R60, R61, R415 to R417) -/

/-- The frequency of an operating point in MHz (R415). -/
def opMhz (op : Nat) : Nat :=
  [700, 800, 900, 1000, 1100, 1200, 1300, 1400, 1500, 1600, 1650, 1700, 1750, 1800, 1850, 1950].getD op 1950

/-- A logical cell's frequency at an operating point: the lower of that point's and the fused maximum behind it (R60, R416). -/
def State.cellMhzAt (s : State) (c op : Nat) : Nat := min (opMhz op) (Config.fmaxMhz (s.maps.cells.getD c c))

/-- A logical cell's frequency. -/
def State.cellMhz (s : State) (c : Nat) : Nat := s.cellMhzAt c s.pw.op

/-- The operating point in force: every cell whose frequency it changes begins its switch, which stops issue on both threads
(R17, R61, R417). -/
def State.setOp (s : State) (o : Nat) : State :=
  let s1 := forEach (List.range s.maps.cells.length) (fun (s : State) c =>
    if s.cellMhz c = s.cellMhzAt c o then s else s.updCell c fun x => { x with switching := true }) s
  { s1 with pw := { s1.pw with op := o } }

/-! ### Banks -/

/-- An accumulator bank of a cell. -/
def CellSt.bank (x : CellSt) (k : Nat) : Bank :=
  match k with
  | 0 => x.bank0
  | 1 => x.bank1
  | _ => x.bank2

/-- The cell with a bank replaced. -/
def CellSt.setBank (x : CellSt) (k : Nat) (b : Bank) : CellSt :=
  match k with
  | 0 => { x with bank0 := b }
  | 1 => { x with bank1 := b }
  | _ => { x with bank2 := b }

/-! ### Descriptors (R97, R100, R101) -/

/-- A fault of a matrix instruction: code and detail; none where it may go on. -/
abbrev MxFault := Option (Nat × Nat)

/-- A descriptor's address (R97). -/
def descFault (a : Nat) : MxFault :=
  if a % 64 ≠ 0 then some (0x02, a) else if 0x1FFFFF < a then some (0x01, a) else none

/-- The first byte outside cell memory among n rows of len bytes, from base at a pitch. -/
def beyondCell (base pitch len n : Nat) : Option Nat :=
  (List.range n).findSome? fun i =>
    let a := base + i * pitch
    if 0x200000 < a + len then some (max a 0x200000) else none

/-- Bytes of k packed elements of w bits. -/
def runBytes (k w : Nat) : Nat := (k * w + 7) / 8

/-- The operand fault of a matrix descriptor (R100). -/
def mmaOperandBad (d : Line) : Bool :=
  let k := fieldNat d 207 192
  let fa := fieldNat d 227 224
  let fb := fieldNat d 231 228
  let mx := isMx fa
  9 < fa || 9 < fb || !pairOk fa fb || k = 0 || (mx && k % 32 ≠ 0)
    || fieldNat d 20 0 % 64 ≠ 0 || fieldNat d 52 32 % 64 ≠ 0 || fieldNat d 84 64 % 64 ≠ 0 || fieldNat d 116 96 % 64 ≠ 0
    || fieldNat d 148 128 % 4 ≠ 0 || fieldNat d 180 160 % 4 ≠ 0
    || (!mx && (fieldNat d 148 128 ≠ 0 || fieldNat d 180 160 ≠ 0))
    || fieldNat d 31 21 ≠ 0 || fieldNat d 63 53 ≠ 0 || fieldNat d 95 85 ≠ 0 || fieldNat d 127 117 ≠ 0 || fieldNat d 159 149 ≠ 0
    || fieldNat d 191 181 ≠ 0 || bitAt d 215 || fieldNat d 223 222 ≠ 0 || fieldNat d 511 232 ≠ 0

/-- The first operand byte outside cell memory: A, B, then their scales (R100). -/
def mmaBeyond (d : Line) : Option Nat :=
  let k := fieldNat d 207 192
  let m := fieldNat d 214 208 + 1
  let n := fieldNat d 221 216 + 1
  let fa := fieldNat d 227 224
  let fb := fieldNat d 231 228
  (((beyondCell (fieldNat d 20 0) (fieldNat d 52 32) (runBytes k (elemBits fa)) m).orElse fun _ =>
    beyondCell (fieldNat d 84 64) (fieldNat d 116 96) (runBytes k (elemBits fb)) n).orElse fun _ =>
    if isMx fa then beyondCell (fieldNat d 148 128) (k / 32) (k / 32) m else none).orElse fun _ =>
    if isMx fa then beyondCell (fieldNat d 180 160) (k / 32) (k / 32) n else none

/-- The faults of an MMA as its descriptor is read: operand, window (R35, R96), address (DEDUCED, log 110) (DESIGN CHOICE, log 111). -/
def mmaFault (q : MxInstr) (b : Bank) (d : Line) : MxFault :=
  let fa := fieldNat d 227 224
  if mmaOperandBad d then some (0x03, q.desc)
  else if winFp32 q.win ∧ fa ≠ 8 ∧ fa ≠ 9 then some (0x04, 0)
  else if !q.zero ∧ winFp32 q.win ≠ b.fp32 then some (0x04, 0)
  else (mmaBeyond d).map fun a => (0x01, a)

/-- The operand fault of a drain descriptor (R101). -/
def drainOperandBad (load : Bool) (size : Nat) (d : Line) : Bool :=
  let scaled := bitAt d 142
  fieldNat d 20 0 % 64 ≠ 0 || fieldNat d 52 32 % 64 ≠ 0 || fieldNat d 84 64 % 4 ≠ 0 || fieldNat d 116 96 % 4 ≠ 0
    || fieldNat d 52 32 < (fieldNat d 141 136 + 1) * size || (!scaled && (fieldNat d 84 64 ≠ 0 || fieldNat d 116 96 ≠ 0))
    || (load && scaled)
    || fieldNat d 31 21 ≠ 0 || fieldNat d 63 53 ≠ 0 || fieldNat d 95 85 ≠ 0 || fieldNat d 127 117 ≠ 0 || bitAt d 135
    || fieldNat d 511 143 ≠ 0

/-- The first output, record or scale byte outside cell memory (R101). -/
def drainBeyond (size : Nat) (d : Line) : Option Nat :=
  let n := fieldNat d 141 136 + 1
  ((beyondCell (fieldNat d 20 0) (fieldNat d 52 32) (n * size) (fieldNat d 134 128 + 1)).orElse fun _ =>
    if bitAt d 142 then beyondCell (fieldNat d 84 64) 0 4 1 else none).orElse fun _ =>
    if bitAt d 142 then beyondCell (fieldNat d 116 96) 0 (4 * n) 1 else none

/-- The faults of an MDRAIN or MLOAD as its descriptor is read (R96, R101). An MLOAD adds records of EWA and has no operands, so its window's
acc_mode is not looked at, beside R35 and R96 (DESIGN CHOICE, log 161). -/
def drainFault (q : MxInstr) (b : Bank) (d : Line) : MxFault :=
  let load := decide (q.op = .mload)
  let size := if load then 16 else outSize (winOut q.win)
  if drainOperandBad load size d then some (0x03, q.desc)
  else if (if load then b.fp32 else winFp32 q.win != b.fp32) then some (0x04, 0)
  else (drainBeyond size d).map fun a => (0x01, a)

/-! ### What the array computes -/

/-- Accumulator (i, j) of a bank. -/
def Bank.at_ (b : Bank) (i j : Nat) : Acc := sget {} b.acc (64 * i + j)

/-- The tile positions i ≤ m, j ≤ n. -/
def tile (m n : Nat) : List (Nat × Nat) := (List.range (m + 1)).flatMap fun i => (List.range (n + 1)).map fun j => (i, j)

/-- The exact products of one output at the k-steps lo ≤ k < hi, ascending (R33, R99). -/
def State.products (s : State) (c : Nat) (d : Line) (i j lo hi : Nat) : List Val :=
  let k := fieldNat d 207 192
  let fa := fieldNat d 227 224
  let fb := fieldNat d 231 228
  let wa := elemBits fa
  let wb := elemBits fb
  let ra := s.cellNat c (fieldNat d 20 0 + i * fieldNat d 52 32) (runBytes k wa)
  let rb := s.cellNat c (fieldNat d 84 64 + j * fieldNat d 116 96) (runBytes k wb)
  let sa := s.cellNat c (fieldNat d 148 128 + i * (k / 32)) (k / 32)
  let sb := s.cellNat c (fieldNat d 180 160 + j * (k / 32)) (k / 32)
  (List.range (hi - lo)).map fun n =>
    let e := lo + n
    let a := elemVal fa (elemAt wa ra e)
    let b := elemVal fb (elemAt wb rb e)
    if isMx fa then mxProduct a b (elemAt 8 sa (e / 32)) (elemAt 8 sb (e / 32)) else a.mul b

/-- The k-steps lo ≤ k < hi of an MMA on a bank (R94, R96, R99): with zero = 1 the tile is cleared before the first one and the bank
takes the window's mode. -/
def State.doMma (s : State) (c : Nat) (q : MxInstr) (d : Line) (lo hi : Nat) (b : Bank) : Bank :=
  let fp := winFp32 q.win
  let wl := winWl q.win
  let fresh := q.zero && lo = 0
  let b0 : Bank := if fresh then { b with fp32 := fp } else b
  { b0 with acc := (tile (fieldNat d 214 208) (fieldNat d 221 216)).foldl (fun acc ij =>
      let old : Acc := if fresh then {} else sget {} acc (64 * ij.1 + ij.2)
      let ps := s.products c d ij.1 ij.2 lo hi
      let new : Acc :=
        if fp then { s := BitVec.ofNat 120 (accumulate32 (old.s.toNat % 2 ^ 32) (ps.map (fFP32.round .nearest))) }
        else ps.foldl (fun a p => a.addProduct wl p) old
      sset {} acc (64 * ij.1 + ij.2) new) b0.acc }

/-- MLOAD on a bank (R40, R101). -/
def State.doMload (s : State) (c : Nat) (q : MxInstr) (d : Line) (b : Bank) : Bank :=
  { b with acc := (tile (fieldNat d 134 128) (fieldNat d 141 136)).foldl (fun acc ij =>
      let old : Acc := if q.zero then {} else sget {} acc (64 * ij.1 + ij.2)
      let r := s.cellNat c (fieldNat d 20 0 + ij.1 * fieldNat d 52 32 + 16 * ij.2) 16
      sset {} acc (64 * ij.1 + ij.2) (old.addRecord (BitVec.ofNat 128 r))) b.acc }

/-- One output of a drain: its bytes' value and whether it counts as an escape (R43 to R46, R48). -/
def drainOut (w : BitVec 32) (fp : Bool) (scales : Option (Nat × Nat)) (a : Acc) : Nat × Bool :=
  if winOut w = 3 then (a.record.toNat, a.escaped)
  else
    let f := outFmt (winOut w)
    if fp then
      let r := convert32 (a.s.toNat % 2 ^ 32) f scales
      (r, f.special r)
    else (a.convert f (winRm w) (winWl w) scales, a.escaped)

/-- MDRAIN (R101): the tile converted and written, and its escapes counted (R46, R73), none while the cell serves a confidential
context. -/
def State.doMdrain (s : State) (c : Nat) (q : MxInstr) (d : Line) (b : Bank) (conf : Bool) : State :=
  let size := outSize (winOut q.win)
  let sa := s.cellNat c (fieldNat d 84 64) 4
  let outs := (tile (fieldNat d 134 128) (fieldNat d 141 136)).map fun ij =>
    let sc := if bitAt d 142 then some (sa, s.cellNat c (fieldNat d 116 96 + 4 * ij.2) 4) else none
    (ij, drainOut q.win b.fp32 sc (b.at_ ij.1 ij.2))
  let s1 := forEach outs (fun s o =>
    s.cellPut c (fieldNat d 20 0 + o.1.1 * fieldNat d 52 32 + size * o.1.2) (leBytes size o.2.1)) s
  let n := (outs.filter fun o => o.2.2).length
  s1.updCell c fun x => { x with escape := if conf then x.escape else satAdd 32 x.escape n }

/-! ### What the array runs (R65, R71, R97, R117) -/

/-- K of a matrix descriptor. -/
def lineK (d : Line) : Nat := fieldNat d 207 192

/-- The array begins an instruction: its descriptor is read and checked (R97, R100, R101), or its fault: code and detail. -/
def State.mxBegin (s : State) (c : Nat) (q : MxInstr) : Except (Nat × Nat) MxRun :=
  if q.op = .mclr then .ok { q := q }
  else
    match descFault q.desc with
    | some f => .error f
    | none =>
      let d : Line := BitVec.ofNat 512 (s.cellNat c q.desc 64)
      let b := (s.cell c).bank q.acc.toNat
      match (if q.op = .mma then mmaFault q b d else drainFault q b d) with
      | some f => .error f
      | none => .ok { q := q, desc := d }

/-- The k-steps of a begun MMA up to hi, with their counts (R553). -/
def State.mxSteps (s : State) (c : Nat) (r : MxRun) (hi : Nat) : State :=
  let k := r.q.acc.toNat
  let b := s.doMma c r.q r.desc r.pos hi ((s.cell c).bank k)
  let n := if s.profOn && !s.cellConf c then hi - r.pos else 0
  s.updCell c fun x => { x.setBank k b with prof := { x.prof with ksteps := satAdd 32 x.prof.ksteps n } }

/-- A begun instruction does what is left of its work (R94 to R101). -/
def State.runMx (s : State) (c : Nat) (r : MxRun) : State :=
  let k := r.q.acc.toNat
  let b := (s.cell c).bank k
  match r.q.op with
  | .mclr => s.updCell c fun x => x.setBank k { fp32 := winFp32 r.q.win }
  | .mma => s.mxSteps c r (lineK r.desc)
  | .mload => let b' := s.doMload c r.q r.desc b; s.updCell c fun x => x.setBank k b'
  | .mdrain => s.doMdrain c r.q r.desc b (s.cellConf c)

/-- The begun instruction leaves the array with its work done. -/
def State.mxLeave (s : State) (c : Nat) (r : MxRun) : State :=
  (s.runMx c r).updCell c fun x => { x with mxq := x.mxq.erase r.q, mxRun := none, progress := s.now }

/-- The k-step boundary at which an MMA stops before its end: the spec times none by the state, so it is a free value between what is
done and K; in an FP32 bank a whole group of R48 (DESIGN CHOICE, log 162). -/
def State.mxCut (s : State) (r : MxRun) : State × Nat :=
  let f := s.free 16
  let p := r.pos + f.2.toNat % (lineK r.desc + 1 - r.pos)
  (f.1, if winFp32 r.q.win then max r.pos (p / 32 * 32) else p)

/-- The trickle thread's instructions may go on in the array: its thread is not stopped, and has a gap at or above the schedule clock
(R64, R65). -/
def State.trGoes (s : State) (c : Nat) : Bool := !(s.cell c).tr.paused && !s.pw.shed && decide (9 ≤ s.pw.op) && s.gap c

/-- An MMA of the trickle thread that may not go on is suspended: its bank keeps the partial sums, and its address generators their
place (R65). Drains, loads and clears run on. -/
def State.suspendMx (s : State) (c : Nat) : State :=
  match (s.cell c).mxRun with
  | none => s
  | some r =>
    if r.q.thread = .tr ∧ r.q.op = .mma ∧ s.trGoes c = false then
      let p := s.mxCut r
      (p.1.mxSteps c r p.2).updCell c fun x => { x with mxRun := none, mxHeld := some { r with pos := p.2 } }
    else s

/-- The array stops for a thread (R117): a running MMA of it at its next k-step, with the sums of those done; a begun drain, load or clear
runs to its end; what it has queued or suspended is discarded. -/
def State.stopArray (s : State) (c : Nat) (t : Thread) : State :=
  let s1 : State := match (s.cell c).mxRun with
    | none => s
    | some r =>
      if r.q.thread ≠ t then s
      else if r.q.op = .mma then
        let p := s.mxCut r
        (p.1.mxSteps c r p.2).updCell c fun x => { x with mxRun := none }
      else s.mxLeave c r
  s1.updCell c fun x => { x with mxq := x.mxq.filter fun m => m.thread ≠ t, mxHeld := x.mxHeld.filter fun h => h.q.thread ≠ t }

/-- The instruction that the array begins or goes on with when it is idle: the oldest, those of a stopped trickle thread apart
(R65, R71). -/
def State.mxNext (s : State) (c : Nat) : Option MxInstr := (s.cell c).mxq.find? fun q => q.thread = .fg || s.trGoes c

end Sys2Proof.Machine
end

