-- ==== Sys2Proof/Machine/Work.lean ====
section
/-! DEFINITION. The work a context has on the module and how it ends: firmware's mailbox messages, ends of started descriptors
with the fences and ring closes that wait for them, threads, launches, trickle entries, instances, and faulted contexts (R454). -/

namespace Sys2Proof.Machine

/-! ### Mailboxes (R269, R270) -/

/-- A mailbox of a set. -/
def State.mbox (s : State) (b : Box) (n : Nat) : Mbox :=
  match b with
  | .h => sget {} s.hst.hbox n
  | .f => sget {} s.hst.fbox n
  | .k => sget {} s.hst.kbox n

/-- The state with a mailbox of a set replaced. -/
def State.setMbox (s : State) (b : Box) (n : Nat) (m : Mbox) : State :=
  match b with
  | .h => { s with hst := { s.hst with hbox := sset {} s.hst.hbox n m } }
  | .f => { s with hst := { s.hst with fbox := sset {} s.hst.fbox n m } }
  | .k => { s with hst := { s.hst with kbox := sset {} s.hst.kbox n m } }

/-- The header word of a mailbox message (R269). -/
def mboxHeader (type words seq : Nat) : BitVec 32 := BitVec.ofNat 32 (type % 256 + words % 64 * 256 + seq % 65536 * 65536)

/-- Firmware fills an F mailbox: payload, then header, which sets full and sends EVENT (R270); while the box is full the message
waits in firmware. -/
def State.fwSend (s : State) (n : Nat) (msg : List (BitVec 32)) : State :=
  if (s.mbox .f n).full then { s with hst := { s.hst with fqueue := s.hst.fqueue ++ [(n, msg)] } }
  else (s.setMbox .f n { words := ssetRun 0 [] 0 msg, full := true }).hostEvent s.mboxVector

/-- A message of firmware's own, sent in F15 with seq 0 (DESIGN CHOICE, log 12). -/
def State.fwPost (s : State) (type : Nat) (payload : List (BitVec 32)) : State :=
  s.fwSend 15 (mboxHeader type payload.length 0 :: payload)

/-- REPLY to a request in the F mailbox of the same number, with the seq of the request (R272). -/
def State.fwReply (s : State) (n seq status : Nat) (data : List (BitVec 32)) : State :=
  s.fwSend n (mboxHeader 0x81 (1 + data.length) seq :: BitVec.ofNat 32 status :: data)

/-! ### Ends of started descriptors -/

/-- Fences whose set has completed: the clear, then OK (R467). -/
def State.settleFences : Nat → State → State
  | 0, s => s
  | n + 1, s =>
    match s.jobs.find? fun j => match j.kind with
        | .fence waits _ _ => waits.isEmpty
        | _ => false with
    | none => s
    | some j =>
      let c := fieldNat j.desc 13 8
      match j.kind with
      | .fence _ cancelled clear =>
        let s1 := if clear then s.updCtx c fun x => { x with faulted := false } else s
        (s1.retire j.sq j.slot { status := stOk, r0 := cancelled }).settleFences n
      | _ => s

/-- The rings whose close waited for their last started descriptor: the reply, and the ring is closed (R272). -/
def State.settleCloses (s : State) : State :=
  forEach (s.hst.sqs.filter fun e => e.2.closing && (s.started e.1).isEmpty && s.hst.reads.all fun r => match r.purpose with
      | .fetch n _ _ => n ≠ e.1
      | _ => true)
    (fun s e => ((s.updSq e.1 fun _ => {}).fwReply e.2.closeBox e.2.closeSeq stOk [])) s

/-- A started descriptor ends; fences and closes that waited for it follow. -/
def State.finish (s : State) (sq slot : Nat) (r : Done) : State :=
  let s1 := s.retire sq slot r
  (s1.settleFences s1.jobs.length).settleCloses

/-! ### Threads -/

/-- The image that holds a bundle for a thread of a context: a LAUNCH_OPEN starts at any of its bundles (R266; DEDUCED, log 26). -/
def CellSt.image (x : CellSt) (t : Thread) (ctx : BitVec 6) (bundle : Nat) : Option Image :=
  x.images.find? fun i => i.thread = t && i.ctx = ctx && i.base ≤ bundle && bundle < i.base + i.count

/-- The image whose entry bundle, base + entry, a bundle is: where timetable entries and trickle work start (R112, R114, R155, R176). -/
def CellSt.entryImage (x : CellSt) (t : Thread) (ctx : BitVec 6) (bundle : Nat) : Option Image :=
  x.images.find? fun i => i.thread = t && i.ctx = ctx && i.base + i.entry = bundle

/-- The state of a thread at the start of work (R114). -/
def ThreadSt.begin_ (th : ThreadSt) (w : Work) (ctx : BitVec 6) (img : Image) (bundle : Nat) (args : List (BitVec 64))
    (base : Nat) (now : Nat) : ThreadSt :=
  { a := ssetRun 0 [] 1 args, stepBase := BitVec.ofNat 64 base, pc := bundle, running := true, work := some w, ctx := ctx,
    hasCtx := true, base := img.base, count := img.count, share := th.share, lastIssue := now,
    fresh := match w with
      | .entry _ _ _ => false
      | _ => true }

/-- Banks and window registers of a thread cleared before another context's work (R114). -/
def CellSt.clearFor (x : CellSt) (t : Thread) : CellSt :=
  match t with
  | .fg => { x with bank0 := {}, bank1 := {}, win := sclear x.win 0 6 }
  | .tr => { x with bank2 := {}, win := sclear x.win 6 8 }

/-- A thread is set up with work of a context (R114). -/
def State.placeThread (s : State) (c : Nat) (t : Thread) (w : Work) (ctx : BitVec 6) (img : Image) (bundle : Nat)
    (args : List (BitVec 64)) (base : Nat) : State :=
  s.updCell c fun x =>
    let x := if (x.th t).hasCtx ∧ (x.th t).ctx = ctx then x else x.clearFor t
    { x.updTh t (fun th => th.begin_ w ctx img bundle args base s.now) with progress := s.now }

/-- The thread stops issuing, and the array stops for it (R117). -/
def State.haltThread (s : State) (c : Nat) (t : Thread) : State :=
  (s.stopArray c t).updCell c fun x =>
    x.updTh t (fun th => { th with running := false, halted := false, work := none, wait := .none, released := false,
                                   issue := none, staged := false, paused := false })

/-- How a thread's work ends. -/
inductive EndOf where
  /-- by HALT, everything it issued finished (R115) -/
  | ok
  /-- by a program fault (R117) or another fault of the context: result0, result1, detail (R257) -/
  | fault (r0 r1 detail : Nat)
  /-- an open launch stopped for owned time (R167) -/
  | timeout
  /-- with its context (R263) -/
  | fenced
  deriving DecidableEq, Repr

/-- The status of a LAUNCH_OPEN whose last cell has ended (R266). With FAULT_CONTEXT its results are those of its first fault (R257, R453,
R591); else result0 counts the cells that did not end with OK (DEDUCED, log 106). -/
def launchDone (notOk : Nat) (timeout fenced : Bool) (fault : Option (Nat × Nat × Nat)) : Done :=
  match fault with
  | some (r0, r1, d) => { status := stFaultCtx, r0 := r0, r1 := r1, detail := d }
  | none => { status := if fenced then stFenced else if timeout then stTimeout else stOk, r0 := notOk }

/-- Work of a context with pruned destinations that would end with OK ends with PARTIAL and their count (R358). -/
def State.prunedDone (s : State) (sq : Nat) (r : Done) : Done :=
  let n := (s.ctx (s.sq sq).ctx.toNat).pruned
  if r.status = stOk ∧ n ≠ 0 then { status := stPartial, r0 := n } else r

/-- The run of a launch on one cell has ended (R266). -/
def State.launchEnd (s : State) (sq slot c : Nat) (o : EndOf) : State :=
  let s1 := s.updJob sq slot fun k => match k with
    | .launch left n ti fe fa =>
      match o with
      | .ok => .launch (left.erase c) n ti fe fa
      | .timeout => .launch (left.erase c) (n + 1) true fe fa
      | .fenced => .launch (left.erase c) (n + 1) ti true fa
      | .fault r0 r1 d => .launch (left.erase c) (n + 1) ti fe (fa.orElse fun _ => some (r0, r1, d))
    | k => k
  match s1.job sq slot with
  | some j =>
    match j.kind with
    | .launch [] n ti fe fa => s1.finish sq slot (s1.prunedDone sq (launchDone n ti fe fa))
    | _ => s1
  | none => s1

/-- What a completion says of work that ended so (R177, R257). -/
def EndOf.done : EndOf → Done
  | .ok => { status := stOk }
  | .timeout => { status := stTimeout }
  | .fenced => { status := stFenced }
  | .fault r0 r1 d => { status := stFaultCtx, r0 := r0, r1 := r1, detail := d }

/-- The ring slots of an overflow batch come free when its program run has ended (R212). -/
def State.ringFree (s : State) (e : TrickleEntry) : State :=
  match e.ferry with
  | none => s
  | some b =>
    { s with fry := { s.fry with rings := s.fry.rings.map fun r =>
        if r.ctx = e.ctx ∧ r.entry = b.entry ∧ fieldNat r.place 127 80 = b.base then
          { r with taken := r.taken.filter fun j => !b.slots.contains j }
        else r } }

/-- A trickle entry ends: its descriptor completes, or the overflow batch's slots come free (R177, R212). -/
def State.trickleEnd (s : State) (e : TrickleEntry) (o : EndOf) : State :=
  if e.ferry.isSome then s.ringFree e else s.finish e.sq e.slot o.done

/-- What a thread's ended work does to what started it (R115). -/
def State.workEnd (s : State) (c : Nat) (w : Work) (o : EndOf) : State :=
  match w with
  | .launch sq slot => s.launchEnd sq slot c o
  | .trickle id =>
    match s.tt.running.find? fun e => e.2.id = id with
    | none => s
    | some e =>
      ({ s with tt := { s.tt with running := s.tt.running.filter fun x => x.2.id ≠ id } }).trickleEnd e.2 o
  | .entry inst idx period =>
    { s with tt := { s.tt with instances := s.tt.instances.map fun i =>
        if i.id = inst then { i with active := i.active.filter fun p => p ≠ (idx, period), ended := (idx, period) :: i.ended }
        else i } }

/-! ### Owned time (R167) -/

/-- Ticks from the start of the period in progress of a record that starts at `start` (2 ticks early) to t, with the period's
number; none before the first period. -/
def Instance.at_ (i : Instance) (start t : Nat) : Option (Nat × Nat) :=
  let p := i.object.period * frameTicks
  let t0 := i.phase * frameTicks + start
  if t + 2 < t0 ∨ p = 0 then none
  else
    let j := (t + 2 - t0) / p
    if j < i.firstPeriod then none else some (j, (t + 2 - t0) % p)

/-- An entry owns its cell at tick t: of an armed instance, or in the current period of one that is being released (R161, R167). -/
def Instance.owns (i : Instance) (e : Nat × CellEntry) (t : Nat) : Bool :=
  match i.at_ e.2.start t with
  | none => false
  | some (j, d) => decide (d < e.2.dur + 4) && (decide (i.state = .armed)
    || (i.state = .releasing && !i.releaseNow && decide (j < i.lastPeriod)) || i.active.any fun a => a = (e.1, j))

/-- The foreground thread of a cell is owned at tick t (R167). -/
def State.owned (s : State) (c t : Nat) : Bool :=
  s.tt.instances.any fun i =>
    (i.state = .armed || i.state = .releasing) && i.object.entries.any fun e => e.2.cell = c && i.owns e t

/-! ### Instances -/

/-- The instance of an id. -/
def State.inst (s : State) (id : Nat) : Option Instance := s.tt.instances.find? fun i => i.id = id

/-- The state with an instance changed. -/
def State.updInst (s : State) (id : Nat) (f : Instance → Instance) : State :=
  { s with tt := { s.tt with instances := s.tt.instances.map fun i => if i.id = id then f i else i } }

/-- A kind seen in a period on this module (R171). -/
def State.noteKind (s : State) (id period : Nat) (f : Kinds → Kinds) : State :=
  s.updInst id fun i => { i with kinds := supd {} i.kinds period f }

/-- A message about an instance (R159). -/
def State.relay (s : State) (msg : RelayMsg) (inst member module : Nat) : State :=
  { s with tt := { s.tt with relayed := s.tt.relayed ++ [{ msg := msg, inst := inst, member := member, module := module }] } }

/-- The other members of a set, lowest index first. -/
def TtObject.others (o : TtObject) : List Nat := sortBy id ((o.members.map (·.1)).filter fun m => m ≠ o.member)

/-- The module of a member: its offsets from the origin of the slice (R155, R381). -/
def State.memberModule (s : State) (o : TtObject) (m : Nat) : Nat := memberAt s.agent.sliceRec ((lfind o.members m).getD (0, 0, 0))

/-- The lead tells every other member of a set. -/
def State.tellMembers (s : State) (inst : Nat) (o : TtObject) (msg : RelayMsg) : State :=
  forEach o.others (fun s m => s.relay msg inst m (s.memberModule o m)) s

/-- An entry or transfer of an instance is marked failed and, where it runs, stopped: a transfer at its next 4 KiB boundary (R172). -/
def State.failRecord (s : State) (id idx period : Nat) : State :=
  match s.inst id with
  | none => s
  | some i =>
    let s1 := (s.noteKind id period fun k => { k with failed := true }).updInst id fun i =>
      { i with active := i.active.filter fun p => p ≠ (idx, period), ended := (idx, period) :: i.ended }
    match lfind i.object.entries idx with
    | some e =>
      if (s.th e.cell .fg).work = some (.entry id idx period) then s1.haltThread e.cell .fg else s1
    | none =>
      match lfind i.object.transfers idx with
      | some m => { s1 with movers := supd {} s1.movers m.mover fun v =>
          { v with xfer := v.xfer.map fun x => if x.inst = id ∧ x.recIdx = idx ∧ x.period = period then { x with stopping := true } else x } }
      | none => s1

/-- An instance leaves the module, with its stream; a TIMETABLE_ARM that waits for it completes. -/
def State.dropInst (s : State) (i : Instance) (r : Done) : State :=
  let s1 : State := ({ s with tt := { s.tt with instances := s.tt.instances.filter fun x => x.id ≠ i.id },
                              streams := s.streams.filter fun x => x.inst ≠ i.id }).tellGroups s
  if i.isLead ∧ (i.arming ∨ i.state = .armed ∨ i.state = .releasing) then s1.finish i.sq i.slot (s1.prunedDone i.sq r) else s1

/-- One more than the number of the period in progress at a tick; 0 before the phase frame. -/
def Instance.periodsBegun (i : Instance) (tick : Nat) : Nat :=
  let f := tick / frameTicks
  if f < i.phase ∨ i.object.period = 0 then 0 else (f - i.phase) / i.object.period + 1

/-- An instance passes to releasing; with now its running entries stop at once, as for a failed step (R161, R174). The lead tells the other
members (R159). The first cause gives the status with which TIMETABLE_ARM completes (R160). One that is not armed yet is free at once. -/
def State.release (s : State) (id : Nat) (now : Bool) (r : Done) : State :=
  match s.inst id with
  | none => s
  | some i =>
    let t := if i.isLead ∧ (i.state ≠ .releasing ∨ (now ∧ !i.releaseNow)) then s.tellMembers id i.object (.release now) else s
    if i.state = .armed then
      let s1 := t.updInst id fun i => { i with state := .releasing, releaseNow := now, lastPeriod := i.periodsBegun s.time.tick,
                                                endStatus := BitVec.ofNat 8 r.status, endR0 := r.r0, endR1 := r.r1, endDetail := r.detail }
      if now then forEach i.active (fun s a => s.failRecord id a.1 a.2) s1 else s1
    else if i.state = .releasing then
      if now ∧ !i.releaseNow then
        forEach i.active (fun s a => s.failRecord id a.1 a.2) (t.updInst id fun i => { i with releaseNow := true })
      else s
    else t.dropInst i r

/-! ### Faulted contexts (R454) -/

/-- Fetched descriptors of a ring that have not started complete with FENCED. -/
def State.fenceReady (s : State) (sq : Nat) : State :=
  forEach (s.sq sq).ready (fun s f => s.complete sq f.slot f.desc { status := stFenced })
    (s.updSq sq fun q => { q with ready := [] })

/-- The rings of a context. -/
def State.ringsOf (s : State) (c : BitVec 6) : List Nat :=
  (s.hst.sqs.filter fun e => e.2.isOpen && e.2.ctx = c).map (·.1)

/-- Queued trickle entries of a context complete with FENCED. -/
def State.fenceTrickle (s : State) (c : BitVec 6) : State :=
  forEach (s.tt.queue.filter fun e => e.ctx = c) (fun s e => s.trickleEnd e .fenced)
    { s with tt := { s.tt with queue := s.tt.queue.filter fun e => e.ctx ≠ c } }

/-- The open launches of a context, running or waiting for their cell, stop and end so. -/
def State.stopLaunches (s : State) (c : BitVec 6) (o : EndOf) : State :=
  forEach s.cells (fun s e =>
    let s1 := match e.2.fg.work with
      | some (.launch sq slot) =>
        if e.2.fg.ctx = c then (s.haltThread e.1 .fg).launchEnd sq slot e.1 o else s
      | _ => s
    forEach (e.2.launches.filter fun l => (s.sq l.1).ctx = c)
      (fun s l => (s.updCell e.1 fun x => { x with launches := x.launches.erase l }).launchEnd l.1 l.2 e.1 o) s1) s

/-- The running trickle entries of a context stop and end so. -/
def State.stopTrickle (s : State) (c : BitVec 6) (o : EndOf) : State :=
  forEach (s.tt.running.filter fun e => e.2.ctx = c) (fun s e =>
    let s1 := if (s.th e.1 .tr).work = some (.trickle e.2.id) then s.haltThread e.1 .tr else s
    ({ s1 with tt := { s1.tt with running := s1.tt.running.filter fun x => x.2.id ≠ e.2.id } }).trickleEnd e.2 o) s

/-- The slice of a context: 0 for a module-local one (R261). -/
def State.sliceOf (s : State) (c : Nat) : Nat := (s.ctx c).slice.toNat

/-- Allocated sync objects with fabric_abort of contexts of a slice (R464). -/
def State.fabricObjects (s : State) (slice : Nat) : List Nat :=
  (s.sync.filter fun e => e.2.valid && e.2.fabricAbort && s.sliceOf e.2.ctx.toNat = slice).map (·.1)

/-- A context becomes faulted: its work stops as R454 says. Repeated faults change nothing more (DEDUCED, log 107). -/
def State.faultCtx (s : State) (c : BitVec 6) : State :=
  if c = 0 ∨ (s.ctx c.toNat).faulted ∨ !(s.ctx c.toNat).live then s
  else
    let s1 := s.updCtx c.toNat fun x => { x with faulted := true }
    let s2 := forEach ((s1.tt.instances.filter fun i => i.ctx = c && (i.state = .armed || i.arming)).map (·.id))
      (fun s id => s.release id true { status := stFaultCtx }) s1
    let s3 := s2.stopLaunches c (.fault 0 0 0)
    let s4 := (s3.stopTrickle c (.fault 0 0 0)).fenceTrickle c
    forEach (s4.ringsOf c) (fun s sq => s.fenceReady sq) s4

/-- Work of a mover that faults in a replay is what its context is blamed for (R457). -/
def State.blameMover (s : State) (sq slot : Nat) (c : BitVec 6) : State :=
  match s.rst.replay with
  | some { dom := .memGroup _, works := ws, .. } =>
    if ws.any fun w => decide (w.2 = (sq, slot)) then { s with rst := { s.rst with last := { s.rst.last with outcome := 0, ctx := c } } } else s
  | _ => s

/-- A descriptor's work completes with FAULT_CONTEXT, and its context becomes faulted (R454). -/
def State.finishFault (s : State) (sq slot : Nat) (r : Done) : State :=
  let c := (s.sq sq).ctx
  ((s.finish sq slot { r with status := stFaultCtx }).blameMover sq slot c).faultCtx c

/-! ### Program faults (R116, R117) -/

/-- result1 of a fault: cell, thread, bundle (R257). -/
def faultWhere (c : Nat) (t : Thread) (bundle : Nat) : Nat :=
  c + (match t with | .fg => 0 | .tr => 1) * 128 + bundle % 4096 * 256

/-- A replay runs on a cell (R457). -/
def State.replaying (s : State) (c : Nat) : Bool :=
  match s.rst.replay with
  | none => false
  | some r => match r.dom with
    | .cell d => d.val = c
    | .group g => g.val = c / 8
    | _ => false

/-- A context whose work faults in a replay is the one blamed (R457). -/
def State.blameReplay (s : State) (c : Nat) (x : BitVec 6) : State :=
  if s.replaying c then { s with rst := { s.rst with last := { s.rst.last with outcome := 0, ctx := x } } } else s

/-- A fault has the faulting address as its detail, or the immediate of TRAP; for a window fault and a send fault, which concern no
one address, the spec states none, and the detail is a free value (R117; DESIGN CHOICE, log 153). -/
def State.faultDetail (s : State) (code detail : Nat) : State × Nat :=
  if code = 0x04 ∨ code = 0x06 then
    let f := s.free 32
    (f.1, f.2.toNat)
  else (s, detail)

/-- result0 of a fault (R257): its address where it has one, else 0: address, alignment, operand and abort faults have one (log 154). -/
def faultAddress (code detail : Nat) : Nat := if code = 0x01 ∨ code = 0x02 ∨ code = 0x03 ∨ code = 0x07 then detail else 0

/-- A thread faults: it stops, the fault is recorded, what started it ends with FAULT_CONTEXT and the context is faulted. An
abort fault in a timetabled entry is the aborted kind instead (R455). -/
def State.progFault (s0 : State) (c : Nat) (t : Thread) (bundle code : Nat) (address : Nat) : State :=
  let s := (s0.faultDetail code address).1
  let detail := (s0.faultDetail code address).2
  let th := s.th c t
  let s2 := (s.haltThread c t).blameReplay c th.ctx
  let s1 : State := { s2 with
    faultRecs := (s.faultRecs ++ [({ ctx := th.ctx, cell := c, thread := t, bundle := bundle, code := BitVec.ofNat 8 code,
                                     detail := BitVec.ofNat 32 detail } : FaultRec)]).drop (s.faultRecs.length - 15) }
  match th.work with
  | none => s1.faultCtx th.ctx
  | some (.entry inst idx period) =>
    if code = 7 then
      (s1.noteKind inst period fun k => { k with aborted := true }).workEnd c (.entry inst idx period) .ok
    else
      ((s1.workEnd c (.entry inst idx period) .ok).release inst true
        { status := stFaultCtx, r0 := faultAddress code detail, r1 := faultWhere c t bundle, detail := code }).faultCtx th.ctx
  | some w => (s1.workEnd c w (.fault (faultAddress code detail) (faultWhere c t bundle) code)).faultCtx th.ctx

/-! ### Issue without a slot to take effect (R64, R115) -/

/-- TTB_RAMP.step_ticks as it acts (R185). -/
def State.stepTicks (s : State) : Nat := max 4 (s.fld 0x400020 0 8)

/-- One more than the number of the ramp step in progress (R181). -/
def State.rampStep (s : State) : Nat := s.time.tick / s.stepTicks + 1

/-- The trickle thread of a cell has used up its share of the cell clocks in the ramp step in progress: share/16 of those that the step
holds at the cell's frequency (R181; DESIGN CHOICE, log 166). -/
def State.shareSpent (s : State) (c : Nat) : Bool :=
  let x := s.cell c
  decide (0 < x.tr.share) && decide (x.tr.share < 16) && decide (x.stepAt = s.rampStep)
    && decide (max 1 (x.tr.share * s.stepTicks * s.cellMhz c / 1600) ≤ x.trCount)

/-- A thread may issue now: its cell runs, and the trickle thread has a gap at or above the schedule clock, OP9, and clocks left of its
share (R64, R179, R181, R415). -/
def State.canIssue (s : State) (c : Nat) (t : Thread) : Bool :=
  let x := s.cell c
  let th := x.th t
  s.compute && !x.failed && !x.inReset && !x.switching && th.running && th.wait = .none
    && (match t with
        | .fg => true
        | .tr => !th.paused && !th.staged && !s.pw.shed && decide (9 ≤ s.pw.op) && s.gap c && !s.shareSpent c)

/-- The bundle a thread stands at. -/
def State.bundle (s : State) (c : Nat) (t : Thread) : BitVec 256 := sget 0 (s.cell c).imem (s.th c t).pc

/-- A bundle of a thread has issued: counts (R553), progress (R450), the ramp step (R181), and the step base of open work (R114). -/
def State.noteIssue (s : State) (c : Nat) (t : Thread) : State :=
  let on := s.profOn && !s.cellConf c
  let k := s.rampStep
  s.updCell c fun x =>
    let p := match t with
      | .fg => { x.prof with fg := satAdd 32 x.prof.fg on.toNat }
      | .tr => { x.prof with tr := satAdd 32 x.prof.tr on.toNat }
    let n := if t = .tr then 1 else 0
    { x.updTh t (fun th => { th with
        stepBase := if th.fresh then BitVec.ofNat 64 s.time.tick else th.stepBase, fresh := false, lastIssue := s.now }) with
      prof := p, progress := s.now, stepAt := k, stepBefore := if x.stepAt = k then x.stepBefore else x.stepAt,
      trCount := if x.stepAt = k then x.trCount + n else n }

/-- Bundles of NOPs issue by themselves; issue past the last bundle raises a fetch fault at its index,
which is its detail too (R115, R117; DEDUCED, log 154). -/
def State.skip : Nat → State → Nat → Thread → State
  | 0, s, _, _ => s
  | n + 1, s, c, t =>
    let th := s.th c t
    if !s.canIssue c t || th.issue.isSome || th.released then s
    else if th.pc < th.base ∨ th.base + th.count ≤ th.pc then s.progFault c t th.pc 0x05 th.pc
    else if s.bundle c t = 0 then ((s.noteIssue c t).updTh c t fun th => { th with pc := th.pc + 1 }).skip n c t
    else s

/-- The thread stands at a bundle with something to do, or has faulted at the end of its program. -/
def State.ready (s : State) (c : Nat) (t : Thread) : State := s.skip 4097 c t

/-- A thread starts work of a context (R114), and stands at its first bundle that has something to do. -/
def State.startThread (s : State) (c : Nat) (t : Thread) (w : Work) (ctx : BitVec 6) (img : Image) (bundle : Nat)
    (args : List (BitVec 64)) (base : Nat) : State :=
  (s.placeThread c t w ctx img bundle args base).ready c t

/-! ### Open launches (R266, R591) -/

/-- The eight argument words read at a device address (R591). -/
def State.readArgs (s : State) (c : BitVec 6) (a : Nat) : ReadRes := s.readBytes c (s.ctxSlot c.toNat) false a 64

/-- Words of 64 bits from bytes. -/
def words64 (bs : List Byte) : List (BitVec 64) := (chunks 8 bs).map fun b => BitVec.ofNat 64 (leNat b)

/-- The oldest waiting launch of a cell starts, outside owned time and while the foreground thread is idle (R266). A failing
argument read faults the context instead (R591); one from channels in reset waits (R133). -/
def State.startLaunch (s : State) (c : Nat) : State :=
  let x := s.cell c
  match x.launches with
  | [] => s
  | (sq, slot) :: rest =>
    if x.fg.running ∨ x.fg.work.isSome ∨ s.owned c s.time.tick ∨ x.inReset ∨ x.failed ∨ s.replaying c then s
    else
      match s.job sq slot with
      | none => s.updCell c fun x => { x with launches := rest }
      | some j =>
        let ctx := (s.sq sq).ctx
        let bundle := fieldNat j.desc 139 128
        if s.memWaits (fieldNat j.desc 191 144) 64 then s else
        let r := s.readArgs ctx (fieldNat j.desc 191 144)
        let s1 := r.st.updCell c fun x => { x with launches := rest }
        match r.fail with
        | some (stale, a) =>
          (s1.launchEnd sq slot c (.fault a (faultWhere c .fg bundle) (if stale then 0x01 else 0x80))).faultCtx ctx
        | none =>
          match x.image .fg ctx bundle with
          | some img => s1.startThread c .fg (.launch sq slot) ctx img bundle (words64 r.bytes) s.time.tick
          | none => s1.launchEnd sq slot c (.fault 0 (faultWhere c .fg bundle) 0)

/-- Every cell's oldest waiting launch starts where it may. -/
def State.startLaunches (s : State) : State := forEach (s.cells.map (·.1)) (fun s c => s.startLaunch c) s

end Sys2Proof.Machine
end

