-- ==== Sys2Proof/Machine/Registers.lean ====
section
/-! DEFINITION. The set-up register space: what a read of each register gives (20 R541 to R553 and the register rules of the other
chapters), and the write of R543 to R546. -/

namespace Sys2Proof.Machine

/-! ### Reads -/

/-- The module is in confidential mode: a confidential context exists (R510). -/
def State.confMode (s : State) : Bool := s.ctxs.any fun e => e.2.live && e.2.keySlot ≠ 0

/-- HST_LINK (R274). -/
def State.hstLink (s : State) : Nat :=
  s.hst.up.toNat + s.hst.lanes % 16 * 2 + s.hst.adapterPort.toNat * 2 ^ 5 + cap 16 s.cnt.hstRetrains * 2 ^ 16

/-- HST_CNT (R276). -/
def State.hstCnt (s : State) : Nat :=
  cap 8 s.cnt.badDoorbell + cap 8 s.cnt.mboxDrop * 2 ^ 8 + cap 8 s.cnt.hstStale * 2 ^ 16 + cap 8 s.cnt.replays * 2 ^ 24

/-- More than 4 channels are bad (R135). -/
def State.memBelow (s : State) : Bool := s.maps.memDone && decide (4 < s.maps.badChannels.length)

/-- MEM_INFO (R148). -/
def State.memInfo (s : State) : Nat :=
  if s.maps.memDone then
    s.maps.live.length % 512 + min 5 s.maps.badChannels.length * 2 ^ 9 + s.memBelow.toNat * 2 ^ 12
      + 3 * s.maps.live.length % 1024 * 2 ^ 16
  else 0

/-- MEM_BAD_CH (R149): the mapped-out channels, lowest first, at most four. -/
def State.memBadCh (s : State) : Nat :=
  if s.maps.memDone then leNat ((s.maps.badChannels.take 4).map (BitVec.ofNat 8))
  else 0

/-- MEM_ERRCNT_n (R151). -/
def State.memErrCnt (s : State) (n : Nat) : Nat :=
  cap 16 (sget 0 s.cnt.memCe n) + cap 8 (sget 0 s.cnt.memUe n) * 2 ^ 16 + cap 8 (sget 0 s.cnt.memTag n) * 2 ^ 24

/-- Fewer than 128 physical cells are good (R85). -/
def State.cellsBelow (s : State) : Bool := s.maps.cellsDone && decide (s.maps.good < 128)

/-- CEL_INFO (R85). -/
def State.celInfo (s : State) : Nat :=
  if s.maps.cellsDone then s.maps.good % 256 + s.maps.spares % 256 * 2 ^ 8 + s.cellsBelow.toNat * 2 ^ 16 else 0

/-- CEL_FMAX_n (R87). -/
def State.celFmax (s : State) (n : Nat) : Nat :=
  match s.maps.cells[n]? with
  | some p => Config.fmaxMhz p % 4096 + (s.cell n).failed.toNat * 2 ^ 12
  | none => 0

/-- TTB_TRQ (R187). -/
def State.ttbTrq (s : State) : Nat := s.tt.queue.length % 8192 + min 255 (s.tt.running.filter fun e => !e.2.prefetch).length * 2 ^ 13

/-- Tickets in use, by class (R205). -/
def State.ticketsOf (s : State) (k : TicketClass) : Nat :=
  (s.fry.tickets.filter fun e => e.2.state ≠ .free && e.2.cls = k).length

/-- Free tickets of the module (R219). -/
def State.ticketsFree (s : State) : Nat := 1048576 - (s.fry.tickets.filter fun e => e.2.state ≠ .free).length

/-- Streams of admitted instances on the module (R241). -/
def State.streamCount (s : State) : Nat := s.streams.length

/-- The epoch bit of a header (R306). -/
def hEpoch (h : Line) : Bool := bitAt h 7

/-- The injection epoch: bank v mod 2 (R335). -/
def State.epoch (s : State) : Bool := s.fab.version.toNat % 2 = 1

/-- Old-epoch packets and reduction entries held on the module, counted from its switch to the end of the census (R347). -/
def State.oldHeld (s : State) : Nat :=
  if s.fab.counting then
    sumOf (s.fab.vcs.map fun e => (e.2.filter fun b => hEpoch b.pkt.hdr ≠ s.epoch).length)
      + (s.fab.red.filter fun e => e.2.used && e.2.sentAt.isNone && e.2.epoch ≠ s.epoch).length
  else 0

/-- FAB_EPOCH (R359). -/
def State.fabEpoch (s : State) : Nat :=
  s.fab.version.toNat + s.fab.drained.toNat * 2 ^ 16 + s.fab.censusDone.toNat * 2 ^ 17 + cap 14 s.oldHeld * 2 ^ 18

/-- The lease is live at the agent (R395). -/
def State.leaseLive (s : State) : Bool := s.agent.hasLease && decide (s.time.tick < s.agent.expiry)

/-- FAB_LEASE_ST (R410). -/
def State.leaseSt (s : State) : Nat :=
  let role := match s.wm.role with
    | .none => 0
    | .active => 1
    | _ => 2
  let stb := match s.wm.role with
    | .joining => 1
    | .synced => 2
    | .coasting => 3
    | .detached => 4
    | _ => 0
  fieldNat s.agent.holder 8 6 + fieldNat s.agent.holder 5 0 * 2 ^ 3 + s.leaseLive.toNat * 2 ^ 9 + role * 2 ^ 10 + stb * 2 ^ 12

/-- FAB_PORT_n (R300) and the pair port in the same form. -/
def State.port (s : State) (n : Nat) : PortSt := sget {} s.fab.ports n

def State.fabPort (s : State) (n : Nat) : Nat :=
  let p := s.port n
  p.lanes % 16 + p.mask.toNat * 2 ^ 4 + p.cableCm % 1024 * 2 ^ 12 + p.overLength.toNat * 2 ^ 22 + p.held.toNat * 2 ^ 23
    + cap 8 p.retrains * 2 ^ 24

/-- FAB_PAIR (R302). -/
def State.fabPair (s : State) : Nat :=
  s.fab.pairUp.toNat + s.fab.pairUser.toNat * 2 + (s.port 6).cableCm % 1024 * 2 ^ 3

/-- FAB_TEL_n word w (R334). -/
def State.fabTel (s : State) (n w : Nat) : Nat :=
  let t := sget {} s.cnt.tel n
  match w with
  | 0 => cap 32 t.tt
  | 1 => cap 32 t.op
  | 2 => cap 32 t.mg
  | 3 => cap 32 (t.txBytes / 1024)
  | 4 => cap 32 t.offSlots
  | 5 => cap 16 t.hdrErr + cap 16 t.ttDrop * 2 ^ 16
  | 6 => cap 16 t.ttlDrop + cap 16 t.ce * 2 ^ 16
  | 7 => cap 16 t.maxOcc
  | _ => 0

/-- RST_CFG.oos_window_s (R468) in ticks. -/
def State.oosWindow (s : State) : Nat := msTicks (1000 * clamp 60 1000 (s.fld 0x900000 15 10))

/-- Events within the current window (R462, R471). -/
def State.windowEvents (s : State) : Nat := (s.flash.events.filter fun e => decide (s.time.live < e + s.oosWindow)).length

/-- RST_OOS (R471). -/
def State.rstOos (s : State) : Nat := s.flash.oosLatched.toNat + cap 4 s.windowEvents * 2 + cap 8 s.rst.escalations * 2 ^ 5

/-- RST_LAST as 128 bits (R473). -/
def State.rstLast (s : State) : Nat :=
  let l := s.rst.last
  l.dom.toNat + l.inst.toNat * 2 ^ 4 + l.replay.toNat * 2 ^ 12 + l.outcome.toNat * 2 ^ 13 + l.ctx.toNat * 2 ^ 16
    + l.gen.toNat * 2 ^ 24 + l.cause.toNat * 2 ^ 32 + l.tick.toNat * 2 ^ 64

/-- Contexts that use a key slot (R520), context 0, which no CONTEXT_CREATE gave one, apart (DEDUCED, log 195). -/
def State.slotCtxs (s : State) (k : Nat) : Nat := (s.ctxs.filter fun e => e.2.live && e.1 ≠ 0 && e.2.keySlot.toNat = k).length

/-- SEC_STATE (R518). -/
def State.secState (s : State) : Nat :=
  let keyed := (List.range 16).foldl (fun n k => if k ≠ 0 ∧ (s.key k).keyed then n + 2 ^ k else n) 0
  s.confMode.toNat + s.debugLocked.toNat * 2 + s.removal.isSome.toNat * 4 + s.frz.conf.toNat * 8 + keyed * 2 ^ 16

/-- SEC_SLOT_n (R520). -/
def State.secSlot (s : State) (n : Nat) : Nat :=
  let k := s.key n
  let scrub := s.pages.any fun e => e.2.state = .scrubbing && e.2.lastSlot.toNat = n
  k.gen.toNat + k.keyed.toNat * 2 ^ 6 + scrub.toNat * 2 ^ 7 + cap 6 (s.slotCtxs n) * 2 ^ 8

/-- The code of an update state (R527, R538). -/
def FwState.code : FwState → Nat
  | .idle => 0
  | .receiving => 1
  | .rebuilding => 2
  | .staged => 3
  | .activating => 4
  | .awaiting => 5

/-- FWU_STATE (R539). -/
def State.fwuState (s : State) : Nat :=
  s.fw.state.code + s.fw.running.toNat * 2 ^ 3 + s.fw.lastResult.toNat * 2 ^ 4 + s.fw.lastCode.toNat * 2 ^ 8
    + s.fw.minSvn % 128 * 2 ^ 16

/-- MON_PROF_n word w (R553): 0 while the cell serves a confidential context. -/
def State.monProf (s : State) (n w : Nat) : Nat :=
  if s.cellConf n then 0
  else
    let p := (s.cell n).prof
    match w with
    | 0 => cap 32 p.fg
    | 1 => cap 32 p.tr
    | 2 => cap 32 p.ksteps
    | 3 => cap 32 p.lines
    | _ => 0

/-- ETH_PORT_n (R303). -/
def State.ethPort (s : State) (n : Nat) : Nat :=
  (sget false s.ethUp n).toNat + cap 8 (sget 0 s.cnt.ethTxErr n) * 2 ^ 8 + cap 16 (sget 0 s.cnt.ethRxDrop n) * 2 ^ 16

/-- TOW_STAT (R305). -/
def State.towStat (s : State) : Nat :=
  s.tow.slot.toNat + s.tow.rack.toNat * 2 ^ 6 + s.tow.culvertOpen.toNat * 2 ^ 9 + s.time.refLost.toNat * 2 ^ 10
    + s.time.tickSet.toNat * 2 ^ 11 + cap 8 s.cnt.towCrc * 2 ^ 12 + cap 8 s.cnt.towRefused * 2 ^ 20

/-- FAB_SLUICE.store_hi and store_lo in percent, as they act (R332, R592). -/
def State.storeHi (s : State) : Nat := clamp 2 100 (s.fld 0x702020 8 7)

/-- FAB_SLUICE_STAT (R332). -/
def State.sluiceStat (s : State) : Nat :=
  s.fab.sluice % 16 + s.fry.low.toNat * 2 ^ 4 + s.fab.storeHigh.toNat * 2 ^ 5 + cap 16 (s.fab.storeBytes / 1024) * 2 ^ 16

/-- GEN_BOOT (R495). -/
def State.genBoot (s : State) : Nat :=
  s.boot.fastUsed.toNat + s.boot.slot.toNat * 2 + s.boot.otherSlot.toNat * 4 + cap 8 s.boot.warmCount * 2 ^ 8
    + s.boot.logNext % 64 * 2 ^ 16

/-- GEN_SETUP_ERR word 0 (R545). -/
def State.setupErr0 (s : State) : Nat :=
  s.setupErr.offset.toNat + s.setupErr.code.toNat * 2 ^ 24 + s.setupErr.valid.toNat * 2 ^ 31

/-- The index of a repeated register: off = base + step * i with i below n. -/
def regIdx (off base step n : Nat) : Option Nat :=
  if base ≤ off ∧ (off - base) % step = 0 ∧ (off - base) / step < n then some ((off - base) / step) else none

/-- The read-only registers that stand alone. -/
def State.roReg (s : State) (off : Nat) : Option Nat :=
  match off with
  | 0x000000 => some 0x01018130
  | 0x000010 => some s.setupErr0
  | 0x000014 => some (cap 16 s.setupErr.count)
  | 0x000080 => some s.boot.report.toNat
  | 0x000084 => some s.genBoot
  | 0x100000 => some s.hstLink
  | 0x100020 => some s.hstCnt
  | 0x200000 => some s.memInfo
  | 0x200010 => some s.memBadCh
  | 0x300000 => some s.celInfo
  | 0x400040 => some (cap 16 s.cnt.ovrLate + cap 16 s.cnt.ovrFailed * 2 ^ 16)
  | 0x400050 => some s.ttbTrq
  | 0x500040 => some (cap 21 s.ticketsFree)
  | 0x500050 => some (cap 16 s.cnt.fryLost + cap 16 s.cnt.fryStale * 2 ^ 16)
  | 0x500054 => some (cap 16 s.cnt.fryHeld + cap 16 s.cnt.fryRefused * 2 ^ 16)
  | 0x600020 => some (cap 10 s.streamCount)
  | 0x600040 => some (cap 16 s.cnt.itkMalformed + cap 16 s.cnt.itkBad * 2 ^ 16)
  | 0x700040 => some s.fabEpoch
  | 0x700048 => some (cap 16 s.cnt.routeDrop + cap 16 s.cnt.fenceDrop * 2 ^ 16)
  | 0x70004C => some (cap 16 s.cnt.purged + cap 16 s.cnt.pruned * 2 ^ 16)
  | 0x700050 => some s.agent.epoch.toNat
  | 0x700054 => some s.leaseSt
  | 0x700058 => some (cap 8 s.cnt.wmDup + cap 8 s.cnt.wmMismatch * 2 ^ 8 + cap 8 s.cnt.wmStale * 2 ^ 16
      + cap 8 s.cnt.pairDrop * 2 ^ 24)
  | 0x701080 => some s.fabPair
  | 0x702024 => some s.sluiceStat
  | 0x702040 => some (cap 16 s.cnt.resends + cap 16 s.cnt.unreachable * 2 ^ 16)
  | 0x702044 => some (cap 16 s.cnt.crcDrop + cap 16 s.cnt.dupDrop * 2 ^ 16)
  | 0x702048 => some (cap 16 s.cnt.badDest + cap 16 s.cnt.resetDrop * 2 ^ 16)
  | 0x70204C => some (cap 16 s.cnt.staleGen + cap 16 s.cnt.keyDrop * 2 ^ 16)
  | 0x900020 => some 0
  | 0x900030 => some s.rstOos
  | 0x900040 => some (cap 8 s.cnt.engineResets + cap 8 s.cnt.rstStale * 2 ^ 8 + cap 8 s.cnt.aborts * 2 ^ 16
      + cap 8 s.cnt.badCmd * 2 ^ 24)
  | 0x900050 => some (s.rstLast % 2 ^ 32)
  | 0x900054 => some (s.rstLast / 2 ^ 32 % 2 ^ 32)
  | 0x900058 => some (s.rstLast / 2 ^ 64 % 2 ^ 32)
  | 0x90005C => some (s.rstLast / 2 ^ 96 % 2 ^ 32)
  | 0xA00000 => some s.secState
  | 0xA00040 => some (cap 8 s.cnt.installDenied + cap 8 s.cnt.removals * 2 ^ 8 + cap 8 s.cnt.partials * 2 ^ 16
      + cap 8 s.cnt.nonceStop * 2 ^ 24)
  | 0xB00000 => some s.fwuState
  | 0xE00000 => some s.towStat
  | _ => none

/-- The read-only registers that repeat, and the words of ETH_Q_n. -/
def State.rangeReg (s : State) (off : Nat) : Option Nat :=
  match regIdx off 0x000200 4 64 with
  | some i => some (sget 0 s.boot.log i).toNat
  | none =>
  match regIdx off 0x200100 4 32 with
  | some i => some (s.memErrCnt i)
  | none =>
  match regIdx off 0x300100 4 128 with
  | some i => some (s.celFmax i)
  | none =>
  match regIdx off 0x701000 0x10 6 with
  | some i => some (s.fabPort i)
  | none =>
  match regIdx off 0x701004 0x10 6 with
  | some i => some (cap 16 (sget 0 s.cnt.fecUncorr i) + cap 16 (sget 0 s.cnt.skew i) * 2 ^ 16)
  | none =>
  match regIdx off 0x702100 4 56 with
  | some i => some (s.fabTel (i / 8) (i % 8))
  | none =>
  match regIdx off 0xA00100 4 16 with
  | some i => some (s.secSlot i)
  | none =>
  match regIdx off 0xC00100 4 64 with
  | some i => some (sget 0 s.pw.temps i).toNat
  | none =>
  match regIdx off 0xC01000 4 512 with
  | some i => some (s.monProf (i / 4) (i % 4))
  | none =>
  match regIdx off 0xD00000 4 2 with
  | some i => some (s.ethPort i)
  | none => (regIdx off 0xD00100 4 256).map fun i => (sget 0 s.ethq i).toNat

/-- The bits of an RWL register that hold a field; none where the offset is no RWL register (R548). Reserved bits ignore what is
written (R7). -/
def rwlMask (off : Nat) : Option (BitVec 32) :=
  match off with
  | 0x000008 => some 0x00000001
  | 0x000020 => some 0x00000007
  | 0x100010 => some 0x0FFFFFFF
  | 0x200040 => some 0x00007FFF
  | 0x300020 => some 0x0000000F
  | 0x400010 => some 0x00FFFFFF
  | 0x400020 => some 0x00FFFFFF
  | 0x500010 => some 0xFFFFFFFF
  | 0x500020 => some 0x01FFFFFF
  | 0x500030 => some 0x000000FF
  | 0x600010 => some 0x0000FFFF
  | 0x700044 => some 0x00003FFF
  | 0x701070 => some 0x000000FF
  | 0x702000 => some 0x0FFFFFFF
  | 0x702004 => some 0x00FFFFFF
  | 0x702010 => some 0x000FFFFF
  | 0x702014 => some 0x0000000F
  | 0x702020 => some 0x3FFFFFFF
  | 0x800000 => some 0x00000001
  | 0x800010 => some 0x000007FF
  | 0x800014 => some 0xFFFFFFFF
  | 0x800020 => some 0x00007FFF
  | 0x800030 => some 0x0000007F
  | 0x900000 => some 0x01FFFFFF
  | 0x900010 => some 0xFFFFFFFF
  | 0xA00010 => some 0x000000FF
  | 0xB00010 => some 0x000001FF
  | 0xC00000 => some 0x0000000F
  | 0xD00010 => some 0xFFFFFFFF
  | 0xE00010 => some 0x000003FF
  | _ => if (regIdx off 0x800100 4 6).isSome then some 0x00000FFF else none

/-- An offset that no access reaches (R248, R541). -/
def regOutside (off : Nat) : Bool := decide (off % 4 ≠ 0) || decide (0xF00000 ≤ off)

/-- What a read of an aligned register offset gives; 0xFFFF_FFFF beyond the blocks, 0 where no register stands (R541). -/
def State.readReg (s : State) (off : Nat) : BitVec 32 :=
  if regOutside off then 0xFFFFFFFF
  else
    match rwlMask off with
    | some _ => s.word off
    | none =>
      match s.roReg off with
      | some v => BitVec.ofNat 32 v
      | none => BitVec.ofNat 32 ((s.rangeReg off).getD 0)

/-! ### Writes (R543 to R546) -/

/-- A refusal recorded: the first with its offset and code, later ones only counted (R545). -/
def State.setupRefuse (s : State) (off code : Nat) : State :=
  let e := s.setupErr
  let n := satAdd 16 e.count 1
  { s with setupErr :=
      if e.valid then { e with count := n }
      else { offset := BitVec.ofNat 24 off, code := BitVec.ofNat 7 code, valid := true, count := n } }

/-- A set-up word stored; a word equal to its reset word is not listed. -/
def State.putWord (s : State) (off : Nat) (v : BitVec 32) : State := { s with setup := sset (resetWord off) s.setup off v }

/-- The fields of an RWL register written (R546); after the lock refused with code 0x05 (R544). -/
def State.writeRwl (s : State) (off : Nat) (mask v : BitVec 32) : State :=
  if s.locked then s.setupRefuse off 0x05 else s.putWord off (v &&& mask)

/-- The refusal code of a value for an RWL register, before the lock is looked at: GEN_AUX (R550), FRY_TKT_MIN (R216), FAB_FC and
FAB_FC2 (R330), on the values as they act (R592). -/
def State.refusal (s : State) (off : Nat) (v : BitVec 32) : Option Nat :=
  match off with
  | 0x000020 =>
    let cur := s.fld 0x20 0 2
    let f := fieldNat v 1 0
    if f = 3 ∨ (cur ≠ 0 ∧ f ≠ cur) then some 0x01 else none
  | 0x500010 => if 256 < fieldNat v 7 0 + fieldNat v 15 8 + fieldNat v 23 16 then some 0x02 else none
  | 0x702000 =>
    let on := min 128 (fieldNat v 7 0)
    let off_ := max 51 (fieldNat v 15 8)
    let esc := max 51 (fieldNat v 23 16)
    if off_ < on ∧ esc + 8 < off_ then none else some 0x04
  | 0x702004 => if max 51 (fieldNat v 15 8) < min 96 (fieldNat v 7 0) then none else some 0x04
  | _ => none

/-- A write to an RWL register with its refusals. -/
def State.writeChecked (s : State) (off : Nat) (mask v : BitVec 32) : State :=
  if s.locked then s.setupRefuse off 0x05
  else
    match s.refusal off v with
    | some code => s.setupRefuse off code
    | none => s.putWord off (v &&& mask)

/-- Writing 1 to valid clears offset, code and valid of GEN_SETUP_ERR; the count stays (R545). -/
def State.clearSetupErr (s : State) (v : BitVec 32) : State :=
  if bitAt v 31 then { s with setupErr := { count := s.setupErr.count } } else s

/-- The bits of the words of ETH_Q_n that hold a field (R304). -/
def ethMask (w : Nat) : BitVec 32 :=
  match w with
  | 0 => 0x00FFFFFF
  | 1 => 0x0000FFFF
  | 3 => 0x0000FFFF
  | 5 => 0x0000FFFF
  | 6 => 0x1FFF1FFF
  | 7 => 0
  | _ => 0xFFFFFFFF

/-- ETH_Q_n enable is 1. -/
def State.ethEnabled (s : State) (q : Nat) : Bool := bitAt (sget 0 s.ethq (8 * q)) 0

/-- A write of word 0 of ETH_Q_n: a write that sets enable is checked (R290); clearing it is always accepted (R545). Enabling a
queue starts its ring positions at 0 (DESIGN CHOICE, log 13). -/
def State.ethEnable (s : State) (q : Nat) (v : BitVec 32) : State :=
  let c := fieldNat v 7 2
  if bitAt v 0 ∧ (c = 0 ∨ !(s.ctx c).live ∨ s.ctxSlot c ≠ 0) then s.setupRefuse (0xD00100 + 32 * q) 0x03
  else
    { s with ethq := sset 0 s.ethq (8 * q) (v &&& ethMask 0),
             eth := if bitAt v 0 ∧ !s.ethEnabled q then sset {} s.eth q {} else s.eth }

/-- A write of a later word of ETH_Q_n, refused while enable is 1 (R545). -/
def State.ethWord (s : State) (q w : Nat) (v : BitVec 32) : State :=
  if s.ethEnabled q then s.setupRefuse (0xD00100 + 32 * q + 4 * w) 0x06
  else { s with ethq := sset 0 s.ethq (8 * q + w) (v &&& ethMask w) }

/-- The host reaches the register space: the link is up and not in reset (R589), and the module is not frozen or held. -/
def State.hostReach (s : State) : Bool := s.hst.up && !s.hst.inReset && !s.frz.frozen && !s.rst.cold

/-- A Hawser message or register access dropped and counted (R244, R248). -/
def State.hostStale (s : State) : State := { s with cnt := { s.cnt with hstStale := satAdd 8 s.cnt.hstStale 1 } }

/-- A REG_RD: the register's value is the answer; one that no access reaches is counted and gives 0xFFFF_FFFF (R248). -/
def State.regRd (s : State) (tag : BitVec 10) (off : Nat) : State :=
  (if regOutside off then s.hostStale else s).hostMsg { type := 0x04, tag := tag.toNat, data := leBytes 4 (s.readReg off).toNat, len := 4 }

/-- A REG_WR by its access type (R248, R541): RST_CMD apart. -/
def State.regWr (s : State) (off : Nat) (v : BitVec 32) : State :=
  if regOutside off then s.hostStale
  else
    match rwlMask off with
    | some m => s.writeChecked off m (if off = 0x8 then v ||| s.word 0x8 else v)
    | none =>
      if off = 0x10 then s.clearSetupErr v
      else
        match regIdx off 0xD00100 4 256 with
        | some i => if i % 8 = 0 then s.ethEnable (i / 8) v else s.ethWord (i / 8) (i % 8) v
        | none => s

end Sys2Proof.Machine
end

