-- ==== Sys2Proof/Machine/Hawser.lean ====
section
/-! DEFINITION. The Hawser link, rings and mailboxes (09 R243 to R253, R255 steps 1 to 5, R269 to R272): the doorbell, link, event
timer and mailbox commands, and the way every descriptor starts. -/

namespace Sys2Proof.Machine

/-! ### Module state (R22, R23) -/

/-- The module executes only the opcodes of R23. -/
def State.restricted (s : State) : Bool :=
  s.flash.oosLatched || s.memBelow || s.cellsBelow || s.boot.meshBad || s.boot.ferryBad || s.boot.heldQuar

/-- The opcodes of R23: NOP, QUERY, ATTEST, FW_BLOCK, FW_ACTIVATE, FW_STATUS. -/
def op23 (op : Nat) : Bool := [0x00, 0x19, 0x12, 0x13, 0x14, 0x15].contains op

/-- Rings are served: bring-up has ended and nothing of a higher row of R22 holds (R249). -/
def State.served (s : State) : Bool := s.boot.ended && !s.rst.warm && !s.rst.cold && !s.frz.frozen && !s.hst.inReset

/-- New descriptors start: rings are served and no activate pause holds them (R532). -/
def State.starts (s : State) : Bool := s.served && !s.hst.paused

/-- The opcodes allowed only on context 0 (R255). -/
def op0 (op : Nat) : Bool := [0x16, 0x17, 0x10, 0x11, 0x13, 0x14, 0x15].contains op

/-- The opcodes allowed on every context (R255): NOP, FENCE, QUERY, ATTEST; also those that run in a faulted one. -/
def opAny (op : Nat) : Bool := [0x00, 0x18, 0x19, 0x12].contains op

/-- Steps 1 to 5 of R255: the first failing check, none where all pass. -/
def State.precheck (s : State) (sq : Nat) (d : Line) : Option Done :=
  let op := fieldNat d 7 0
  let c := (s.sq sq).ctx.toNat
  if 0x1A ≤ op then some { status := stBadOpcode }
  else if fieldNat d 13 8 ≠ c then some (badBit 8)
  else if fieldNat d 15 14 ≠ 0 then some (badBit 14)
  else if fieldNat d 127 32 ≠ 0 then some (badBit 32)
  else if !opAny op && (if c = 0 then !op0 op else op0 op) then some { status := stSecDenied }
  else if s.restricted && !op23 op then some { status := stNotInService }
  else if (s.ctx c).faulted && !opAny op then some { status := stFenced }
  else none

/-- The oldest fetched descriptors of a ring that fail steps 1 to 5 complete in ring order, until one that may start or a SYNC_WAIT
or FENCE that holds the ring back (R252, R255). -/
def State.settleRing : Nat → State → Nat → State
  | 0, s, _ => s
  | n + 1, s, sq =>
    if !s.starts || s.heldBack sq then s
    else
      match (s.sq sq).ready with
      | [] => s
      | f :: rest =>
        match s.precheck sq f.desc with
        | none => s
        | some r => ((s.updSq sq fun q => { q with ready := rest }).complete sq f.slot f.desc r).settleRing n sq

/-! ### Fetch (R251) -/

/-- Descriptors written and not fetched. -/
def Sq.waiting (q : Sq) : Nat := (q.producer + 2 ^ 32 - q.fetched % 2 ^ 32) % 2 ^ 32

/-- A context is being removed, or is gone: its rings stop fetching (R512 step 1). -/
def State.leaving (s : State) (c : Nat) : Bool := (s.ctx c).removing || !(s.ctx c).live

/-- A ring has a descriptor that may be fetched (R250 to R252). -/
def State.fetchable (s : State) (n : Nat) : Bool :=
  let q := s.sq n
  q.isOpen && !q.error && !q.closing && !s.leaving q.ctx.toNat && decide (0 < q.waiting) && decide (0 < (s.cq q.cq).room)
    && decide ((s.started n).length < 1024)

/-- One read of up to 16 descriptors of a ring, whose records' entries are reserved. -/
def State.fetchOne (s : State) (n : Nat) : Option State :=
  let q := s.sq n
  let size := 2 ^ q.log2n
  let at_ := q.fetched % size
  let k := min (min 16 q.waiting) (min (s.cq q.cq).room (size - at_))
  match s.hostRd (q.base + 64 * at_) (64 * k) (.fetch n at_ k) with
  | none => none
  | some s1 =>
    some ((s1.updSq n fun q => { q with fetched := (q.fetched + k) % 2 ^ 32 }).updCq q.cq fun c =>
      { c with reserved := c.reserved + k })

/-- The next ring to fetch from by weighted round robin: the present ring while its credit lasts, else the next higher one in
turn. -/
def State.fetchPick (s : State) : Option (Nat × Nat) :=
  if 0 < s.hst.rrLeft ∧ s.fetchable s.hst.rrRing then some (s.hst.rrRing, s.hst.rrLeft - 1)
  else
    let c := (s.hst.sqs.filter fun e => s.fetchable e.1).map (·.1)
    match (c.filter fun n => s.hst.rrRing < n) ++ c with
    | [] => none
    | n :: _ => some (n, (s.sq n).weight.toNat)

/-- Fetches go on while a ring is fetchable and a tag is free (R251); weights count reads of up to 16 (DESIGN CHOICE, log 14). -/
def State.fetchN : Nat → State → State
  | 0, s => s
  | n + 1, s =>
    match s.fetchPick with
    | none => s
    | some (r, left) =>
      match s.fetchOne r with
      | none => s
      | some s1 => ({ s1 with hst := { s1.hst with rrRing := r, rrLeft := left } }).fetchN n

/-- All that can be fetched now is. -/
def State.fetch (s : State) : State := if s.starts then s.fetchN 1024 else s

/-! ### The start of a descriptor (R252) -/

/-- The descriptor at the head of a ring starts, where the ring may start one and the head has the opcode and meets p: it leaves the
fetched ones and its effect follows. Descriptors ahead of it that fail the checks complete first. -/
def State.startRow (s : State) (sq op : Nat) (p : Line → Bool) (f : State → Nat → Line → State) : State :=
  let s1 := s.settleRing (s.sq sq).ready.length sq
  if !s1.starts || s1.heldBack sq || decide (1024 ≤ (s1.started sq).length) then s1
  else
    match (s1.sq sq).ready with
    | [] => s1
    | h :: rest =>
      if fieldNat h.desc 7 0 = op ∧ p h.desc then
        let s2 := f (s1.updSq sq fun q => { q with ready := rest }) h.slot h.desc
        (s2.settleRing (s2.sq sq).ready.length sq).fetch
      else s1

/-- A descriptor that fails with FAULT_CONTEXT as it starts: its record, and its context is faulted (R454). -/
def State.completeFault (s : State) (sq slot : Nat) (d : Line) (r : Done) : State :=
  (s.complete sq slot d { r with status := stFaultCtx }).faultCtx (s.sq sq).ctx

/-- Fetched descriptors arrive (R251); those of a closing ring, or of a context that is being removed,
complete with FENCED (R272, R512). -/
def State.arrive (s : State) (sq first : Nat) (data : List Byte) : State :=
  let s1 := ((chunks 64 data).zipIdx).foldl (fun s bi =>
    let f : Fetched := { slot := first + bi.2, desc := BitVec.ofNat 512 (leNat bi.1) }
    if (s.sq sq).closing ∨ s.leaving (s.sq sq).ctx.toNat then s.complete sq f.slot f.desc { status := stFenced }
    else s.updSq sq fun q => { q with ready := q.ready ++ [f] }) s
  ((s1.settleRing (s1.sq sq).ready.length sq).settleCloses).fetch

/-- A fetch failed: every slot it covered gets its own record (R251). -/
def State.fetchFailed (s : State) (sq first count detail : Nat) : State :=
  ((List.range count).foldl (fun s i =>
    s.complete sq (first + i) (BitVec.ofNat 512 ((s.sq sq).ctx.toNat * 256)) { status := stTimeout, detail := detail }) s).settleCloses.fetch

/-! ### Doorbells (R250) -/

/-- A doorbell write counted as bad. -/
def State.badDoorbell (s : State) : State := { s with cnt := { s.cnt with badDoorbell := satAdd 8 s.cnt.badDoorbell 1 } }

/-- The ring enters error and firmware reports it (R250, R272). -/
def State.ringError (s : State) (n cause : Nat) : State :=
  (s.updSq n fun q => { q with error := true }).fwPost 0x82 [BitVec.ofNat 32 (n + cause * 256)]

/-- A producer index. -/
def State.producerIndex (s : State) (n : Nat) (v : BitVec 32) : State :=
  let q := s.sq n
  if !q.isOpen || q.error then s.badDoorbell
  else if 2 ^ 31 ≤ (v.toNat + 2 ^ 32 - q.producer) % 2 ^ 32 then s.ringError n 0x02
  else if 2 ^ q.log2n < (v.toNat + 2 ^ 32 - q.fetched % 2 ^ 32) % 2 ^ 32 then s.ringError n 0x01
  else (s.updSq n fun q => { q with producer := v.toNat }).fetch

/-- Step records that wait go to completion rings that have an entry for them, with the number skipped since the instance's last one was written
(R258) (DEDUCED, log 152). -/
def State.flushSteps : Nat → State → State
  | 0, s => s
  | n + 1, s =>
    match s.tt.stepQueue.find? fun e => 0 < (s.cq e.1).room with
    | none => s
    | some e =>
      (({ s with tt := { s.tt with stepQueue := s.tt.stepQueue.erase e, skipped := sset 0 s.tt.skipped e.2.2 0 } }).putRecord e.1
        (e.2.1 + BitVec.ofNat 256 (cap 32 (sget 0 s.tt.skipped e.2.2) * 2 ^ 192 + s.time.tick % 2 ^ 32 * 2 ^ 224))).flushSteps n

/-- A consumer index: entries come free, waiting step records and fetches go on. -/
def State.consumerIndex (s : State) (n : Nat) (v : BitVec 32) : State :=
  if !(s.cq n).isOpen || (s.sq n).error then s.badDoorbell
  else
    let s1 := s.updCq n fun q => { q with consumed := v.toNat }
    (s1.flushSteps s1.tt.stepQueue.length).fetch

/-- The event of a completion ring is armed; arming an armed one changes nothing. -/
def State.eventArm (s : State) (n : Nat) : State :=
  if !(s.cq n).isOpen || (s.sq n).error then s.badDoorbell
  else if (s.cq n).armed then s
  else s.updCq n fun q => { q with armed := true, evSeen := 0 }

/-- The host's messages reach the module (R589). -/
def State.linkUp (s : State) : Bool := s.hst.up && !s.hst.inReset && !s.frz.frozen && !s.rst.cold

/-- A write to a doorbell page: of 4 bytes at one of three offsets, else it is dropped and counted (R250). -/
def State.doorbell (s : State) (page : Nat) (offset bytes : Nat) (v : BitVec 32) : State :=
  if bytes ≠ 4 then s.badDoorbell
  else
    match offset with
    | 0x000 => s.producerIndex page v
    | 0x040 => s.consumerIndex page v
    | 0x080 => s.eventArm page
    | _ => s.badDoorbell

/-- SQ_PRODUCER_INDEX (R250): a write to a doorbell page, at offset 0 the producer index. -/
def execSqProducerIndex (page : Fin 256) (value : PageWrite) : State → Host.Outcome State Fault Refusal :=
  act fun s => if s.linkUp then s.doorbell page value.offset.toNat value.bytes value.value else s

/-- CQ_CONSUMER_INDEX (R250). -/
def execCqConsumerIndex (page : Fin 256) (value : BitVec 32) : State → Host.Outcome State Fault Refusal :=
  act fun s => if s.linkUp then s.consumerIndex page value else s

/-- CQ_EVENT_ARM (R250): any value arms. -/
def execCqEventArm (page : Fin 256) (_value : BitVec 32) : State → Host.Outcome State Fault Refusal :=
  act fun s => if s.linkUp then s.eventArm page else s

/-- CQ_EVENT_TIMER (R253): ev_us after the first record on an armed ring, EVENT is sent and the ring is disarmed. -/
def execCqEventTimer (cq : Fin 256) : State → Host.Outcome State Fault Refusal :=
  act fun s =>
    let q := s.cq cq
    if q.isOpen && q.armed && decide (0 < q.evSeen) && decide (q.evFirst + usTicks q.evUs ≤ s.now) then
      (s.updCq cq fun q => { q with armed := false, evSeen := 0 }).hostEvent q.vector.toNat
    else s

/-! ### The link (R243, R246, R489) -/

/-- HAWSER_LINK_DOWN (R246): no fetch goes on, records and events are held. -/
def execHawserLinkDown : State → Host.Outcome State Fault Refusal :=
  act fun s =>
    if s.hst.up then { s with hst := { s.hst with up := false, lanes := 0, downAt := s.now, retryAt := s.now } } else s

/-- A held message as it goes out: a completion record carries the tick at which it is written (R256). -/
def HMsg.late (m : HMsg) (tick : Nat) : HMsg := if m.record then { m with data := m.data.take 28 ++ leBytes 4 tick } else m

/-- The reports that waited for the link are written and their descriptors complete (R246). -/
def State.sendReports (s : State) : State :=
  forEach s.jobs (fun s j =>
    match j.kind with
    | .report addr bs r0 r1 => (s.hostWr addr bs).finish j.sq j.slot { status := stOk, r0 := r0, r1 := r1 }
    | _ => s) s

/-- The link trains, with no flit to replay: held messages go out in their order, reads whose reply the retrain may have discarded start again with
the tag in force, reports are written, and fetch goes on (R246, R449). -/
def State.trained (s : State) (eight : Bool) (port : BitVec 2) : State :=
  let reads := (s.hst.reads.filter fun r => r.purpose ≠ .gone && r.purpose ≠ .spent).map fun (r : HostRead) => { r with at_ := s.now }
  let again := reads.map fun r => ({ type := 0x01, tag := r.tag, addr := r.addr, len := r.len } : HMsg)
  let s1 : State := { s with
    hst := { s.hst with
      up := true, inReset := false, lanes := if eight then 8 else 4, adapterPort := port, trainedOnce := true, reads := reads,
      heldOut := [], flits := [], wire := [] },
    cnt := { s.cnt with hstRetrains := if s.hst.trainedOnce then satAdd 16 s.cnt.hstRetrains 1 else s.cnt.hstRetrains } }
  (forEach (s.hst.heldOut.map (·.late s.time.tick) ++ again) (fun s m => s.hostMsg m) s1).sendReports.fetch

/-- HAWSER_LINK_TRAINED (R246, R274). -/
def execHawserLinkTrained (eight : Bool) (adapterPort : BitVec 2) : State → Host.Outcome State Fault Refusal :=
  act fun s => if s.hst.up && !s.hst.inReset then s else s.trained eight adapterPort

/-- HAWSER_LINK_RETRY (R489): every 1 s a link that is down is tried again; the attempt's outcome is HAWSER_LINK_TRAINED. -/
def execHawserLinkRetry : State → Host.Outcome State Fault Refusal :=
  act fun s =>
    if !s.hst.up && decide (s.hst.retryAt + msTicks 1000 ≤ s.now) then { s with hst := { s.hst with retryAt := s.now } } else s

/-- What goes out again for a flit with a bad CRC: the flits kept from the lost one on, or a negative acknowledgement for one received; nothing where its
CRC is good (R243). -/
def replayFlits (kept : List Flit) (lost : Nat ⊕ List Byte) : Option (List Flit) :=
  match lost with
  | .inl n => some (kept.filter fun f => decide (n ≤ f.seq))
  | .inr bs => if bs.length = 256 ∧ leNat (bs.drop 252) = (crc32c (bs.take 252)).toNat then none else some [{ nack := true }]

/-- Flits replayed on the Hawser link, counted (R276). -/
def State.hawserReplay (s : State) (lost : Nat ⊕ List Byte) : State :=
  match (if s.linkOpen then replayFlits s.hst.flits lost else none) with
  | some fs => { s with hst := { s.hst with wire := s.hst.wire ++ fs }, cnt := { s.cnt with replays := satAdd 8 s.cnt.replays 1 } }
  | none => s

/-- Flits replayed on the pair link, which has no count (R285). -/
def State.pairReplay (s : State) (lost : Nat ⊕ List Byte) : State :=
  match (if s.fab.pairUp then replayFlits s.fab.pairFlits lost else none) with
  | some fs => { s with fab := { s.fab with pairWire := s.fab.pairWire ++ fs } }
  | none => s

/-- The flit that fails and the link it fails on: nothing of the module fixes either, so both are drawn (DESIGN CHOICE, log 180). -/
def State.flitLoss (s : State) : State × FlitLoss :=
  let f := s.free 2050
  let n := fieldNat f.2 31 0
  let bs := leBytes 256 (fieldNat f.2 2047 0)
  (f.1, if bitAt f.2 2048 then (if bitAt f.2 2049 then .pairReceived bs else .received bs) else if bitAt f.2 2049 then .pairSent n else .sent n)

/-- FLIT_REPLAY (R243, R276, R285): a flit of the module's with a bad CRC is sent again with those after it, as far as they are kept; one received with
a bad CRC is acknowledged negatively. On the Hawser link both are counted. -/
def execFlitReplay : State → Host.Outcome State Fault Refusal :=
  act fun s =>
    match s.flitLoss with
    | (s, .sent n) => s.hawserReplay (.inl n)
    | (s, .received bs) => s.hawserReplay (.inr bs)
    | (s, .pairSent n) => s.pairReplay (.inl n)
    | (s, .pairReceived bs) => s.pairReplay (.inr bs)

/-! ### Mailboxes (R269 to R272) -/

/-- A host mailbox write discarded and counted (R270). -/
def State.mboxDropped (s : State) : State := { s with cnt := { s.cnt with mboxDrop := satAdd 8 s.cnt.mboxDrop 1 } }

/-- MBOX_WR (R270): a write of the header word sets full; while full every write is discarded; a host write to an F mailbox is
discarded. The status word is not written by its sender; a write that is not 32-bit aligned is, in a box that is not full, dropped and counted as
stale (DESIGN CHOICE, log 15). -/
def execMboxWr (box : HostBox) (n : Fin 16) (offset : BitVec 8) (value : BitVec 32) : State → Host.Outcome State Fault Refusal :=
  act fun s =>
    if !s.linkUp then s
    else
      match box with
      | .f => s.mboxDropped
      | .h =>
        let m := s.mbox .h n
        if m.full then (s.setMbox .h n { m with drop := true }).mboxDropped
        else if offset.toNat % 4 ≠ 0 then s.hostStale
        else if offset.toNat = 252 then s
        else s.setMbox .h n { m with words := sset 0 m.words (offset.toNat / 4) value, full := m.full || decide (offset = 0) }

/-- The messages firmware holds for an F mailbox: the oldest goes in once the box is free (R270). -/
def State.fwFlush (s : State) (n : Nat) : State :=
  match s.hst.fqueue.find? fun e => e.1 = n with
  | none => s
  | some e => ({ s with hst := { s.hst with fqueue := s.hst.fqueue.erase e } }).fwSend n e.2

/-- The request types of an H mailbox (R272). -/
def hType (t : Nat) : Bool := decide (1 ≤ t) && decide (t ≤ 5)

/-- The word of a mailbox at an offset: header, payload or the status word full and drop (R269). -/
def Mbox.word (m : Mbox) (offset : Nat) : BitVec 32 :=
  if offset = 252 then BitVec.ofNat 32 (m.full.toNat + m.drop.toNat * 2) else sget 0 m.words (offset / 4)

/-- A mailbox read by the host (R244, R269, R270): LOCAL_RD_DATA with the word; a read that is not 32-bit aligned gives 0xFFFF_FFFF and is counted
(DESIGN CHOICE, log 15). -/
def State.mboxRd (s : State) (m : Mbox) (offset : Nat) (tag : BitVec 10) : State :=
  let word : BitVec 32 := if offset % 4 = 0 then m.word offset else 0xFFFFFFFF
  (if offset % 4 = 0 then s else s.hostStale).hostMsg { type := 0x04, tag := tag.toNat, data := leBytes 4 word.toNat, len := 4 }

/-- MBOX_STATUS_READ (R269, R270): a read of the status word at offset 252 by the receiver clears full and drop, by the sender nothing, and neither
does a read of the header or payload. Firmware reads the status word of an H mailbox with a listed request when it serves it (rows SQ_OPEN
to PING); of another type here, with REPLY BAD_OPCODE (R272). -/
def execMboxStatusRead (box : Box) (n : Fin 16) (read : MboxRead) : State → Host.Outcome State Fault Refusal :=
  act fun s =>
    let m := s.mbox box n
    let status := decide (read.offset = 252)
    let cleared := { m with full := false, drop := false }
    match box, read.byReceiver with
    | .h, true =>
      let t := fieldNat (sget 0 m.words 0) 7 0
      if !status || !m.full || hType t then s
      else (s.setMbox .h n cleared).fwReply n (fieldNat (sget 0 m.words 0) 31 16) stBadOpcode []
    | .h, false => if s.linkUp then s.mboxRd m read.offset.toNat read.tag else s
    | .f, true =>
      if !s.linkUp then s
      else if status then ((s.mboxRd m 252 read.tag).setMbox .f n cleared).fwFlush n
      else s.mboxRd m read.offset.toNat read.tag
    | .f, false => s
    | .k, true => if status then s.setMbox .k n cleared else s
    | .k, false => s

/-- A request of a type in an H mailbox is served: its payload as a number from byte 4 on, the box freed, and the effect with the
payload and the seq. In an activate pause the box stays full (R532). -/
def State.request (s : State) (n type : Nat) (f : State → Nat → Nat → State) : State :=
  let m := s.mbox .h n
  let h := sget 0 m.words 0
  if m.full ∧ fieldNat h 7 0 = type ∧ !s.frz.frozen ∧ !s.rst.cold ∧ !s.rst.warm ∧ !s.hst.paused then
    let payload := leNat ((sgetRun 0 m.words 1 62).flatMap fun w => leBytes 4 w.toNat)
    f (s.setMbox .h n { m with full := false, drop := false }) payload (fieldNat h 31 16)
  else s

/-- The field [hi:lo] of a payload. -/
def pf (p hi lo : Nat) : Nat := p / 2 ^ lo % 2 ^ (hi + 1 - lo)

/-- The status of an SQ_OPEN (R272). -/
def State.sqOpenStatus (s : State) (p : Nat) : Nat :=
  if !s.boot.ended ∨ (s.sq (pf p 7 0)).isOpen then stBusy
  else if pf p 15 14 ≠ 0 ∨ pf p 31 28 ≠ 0 ∨ pf p 111 101 ≠ 0 ∨ pf p 127 112 ≠ 0 ∨ !(s.ctx (pf p 13 8)).live
    ∨ !(s.cq (pf p 23 16)).isOpen ∨ pf p 95 32 % 4096 ≠ 0 ∨ pf p 100 96 < 4 ∨ 16 < pf p 100 96 then stBadDesc
  else stOk

/-- SQ_OPEN (R272): the ring opens with its indices at 0 (R250). Before the report that ends bring-up the answer is BUSY_RETRY
(DESIGN CHOICE, log 16). -/
def execSqOpen (n : Fin 16) : State → Host.Outcome State Fault Refusal :=
  act fun s => s.request n 0x01 fun s p seq =>
    let st := s.sqOpenStatus p
    let s1 := if st = stOk then
        s.updSq (pf p 7 0) fun _ => { isOpen := true, ctx := BitVec.ofNat 6 (pf p 13 8), cq := pf p 23 16,
                                      weight := BitVec.ofNat 4 (pf p 27 24), base := pf p 95 32, log2n := pf p 100 96 }
      else s
    s1.fwReply n seq st []

/-- SQ_CLOSE (R272): fetching stops, unstarted descriptors complete with FENCED, instances armed from the ring are released, and
the reply follows the last started descriptor (DEDUCED, log 113). -/
def execSqClose (n : Fin 16) : State → Host.Outcome State Fault Refusal :=
  act fun s => s.request n 0x02 fun s p seq =>
    let r := pf p 7 0
    if !(s.sq r).isOpen then s.fwReply n seq stOk []
    else if (s.sq r).closing then s.fwReply n seq stBusy []
    else
      let s1 := (s.updSq r fun q => { q with closing := true, closeSeq := seq, closeBox := n }).fenceReady r
      let s2 := forEach ((s1.tt.instances.filter fun i => (i.arming || i.state = .armed) && i.isLead && i.sq = r).map (·.id))
        (fun s id => s.release id false { status := stOk }) s1
      s2.settleCloses

/-- The status of a CQ_OPEN (R272). -/
def State.cqOpenStatus (s : State) (p : Nat) : Nat :=
  if !s.boot.ended ∨ (s.cq (pf p 7 0)).isOpen then stBusy
  else if pf p 15 8 ≠ 0 ∨ pf p 31 24 ≠ 0 ∨ pf p 111 101 ≠ 0 ∨ pf p 119 112 = 0 ∨ pf p 95 32 % 4096 ≠ 0
    ∨ pf p 100 96 < 4 ∨ 16 < pf p 100 96 then stBadDesc
  else stOk

/-- CQ_OPEN (R272): the ring opens disarmed with its counts at 0. -/
def execCqOpen (n : Fin 16) : State → Host.Outcome State Fault Refusal :=
  act fun s => s.request n 0x03 fun s p seq =>
    let st := s.cqOpenStatus p
    let s1 := if st = stOk then
        s.updCq (pf p 7 0) fun _ => { isOpen := true, vector := BitVec.ofNat 8 (pf p 23 16), base := pf p 95 32,
                                      log2n := pf p 100 96, evCount := pf p 119 112, evUs := pf p 127 120 }
      else s
    s1.fwReply n seq st []

/-- CQ_CLOSE (R272): BUSY_RETRY while an open submission ring names it; step records queued for it are discarded (R258). -/
def execCqClose (n : Fin 16) : State → Host.Outcome State Fault Refusal :=
  act fun s => s.request n 0x04 fun s p seq =>
    let r := pf p 7 0
    if !(s.cq r).isOpen then s.fwReply n seq stOk []
    else if s.hst.sqs.any fun e => e.2.isOpen && e.2.cq = r then s.fwReply n seq stBusy []
    else
      (({ s with tt := { s.tt with stepQueue := s.tt.stepQueue.filter fun e => e.1 ≠ r } }).updCq r fun _ => {}).fwReply n seq stOk []

/-- PING (R272): answered with its data; one of 62 words with BAD_DESCRIPTOR and none. -/
def execPing (n : Fin 16) : State → Host.Outcome State Fault Refusal :=
  act fun s =>
    let m := s.mbox .h n
    let words := fieldNat (sget 0 m.words 0) 13 8
    s.request n 0x05 fun s _ seq =>
      if 62 ≤ words then s.fwReply n seq stBadDesc [] else s.fwReply n seq stOk (sgetRun 0 m.words 1 words)

end Sys2Proof.Machine
end

