-- ==== Sys2Proof/Machine/Sync.lean ====
section
/-! DEFINITION. Sync objects (R81 to R83, R267): their word, adds, waits and aborts, and the descriptor rows that act on them. -/

namespace Sys2Proof.Machine

/-- A sync object. -/
def State.obj (s : State) (i : Nat) : SyncObj := sget {} s.sync i

/-- The state with a sync object replaced. -/
def State.setObj (s : State) (i : Nat) (o : SyncObj) : State := { s with sync := sset {} s.sync i o }

/-- The object exists and belongs to the context (R82). -/
def State.objOk (s : State) (i : Nat) (c : BitVec 6) : Bool :=
  decide (i < 8192) && (s.obj i).valid && decide ((s.obj i).ctx = c)

/-- The 64-bit word of an object (R81). -/
def SyncObj.word (o : SyncObj) : BitVec 64 :=
  BitVec.ofNat 64 (unsigned 48 o.count + o.ctx.toNat * 2 ^ 48 + o.valid.toNat * 2 ^ 54 + o.fabricAbort.toNat * 2 ^ 55
    + o.aborted.toNat * 2 ^ 56)

/-- A count after an add: it stops at -2^47 and 2^47 - 1 (R82). -/
def countAdd (c n : Int) : Int := max (-(2 ^ 47)) (min (2 ^ 47 - 1) (c + n))

/-- A thread's wait on an object, satisfied from now on where its target is reached. -/
def Wait.seen (w : Wait) (i : Nat) (c : Int) (ab : Bool) : Wait :=
  match w with
  | .sync o t sat a => if o = i then .sync o t (sat || (!a && !ab && decide (t ≤ c))) (a || (ab && !sat)) else w
  | w => w

/-- Every wait on object i looks at its new count: one that holds once is not undone by a later add (R83), nor by an abort; an abort
reaches every wait that still holds its thread. -/
def State.wakeObj (s : State) (i : Nat) (c : Int) (ab : Bool) : State :=
  { s with
    cells := s.cells.map fun e => (e.1, { e.2 with fg := { e.2.fg with wait := e.2.fg.wait.seen i c ab },
                                                   tr := { e.2.tr with wait := e.2.tr.wait.seen i c ab } }),
    syncWaits := s.syncWaits.map fun w =>
      if w.object = i then
        { w with satisfied := w.satisfied || (!w.aborted && !ab && decide (w.target ≤ c)), aborted := w.aborted || (ab && !w.satisfied) }
      else w }

/-- An add to an object, and the waits it satisfies (R82, R83). -/
def State.syncAdd (s : State) (i : Nat) (n : Int) : State :=
  let o := s.obj i
  let c := countAdd o.count n
  (s.setObj i { o with count := c }).wakeObj i c false

/-- An add that is skipped where the object is not valid for the context (R79, R311). -/
def State.syncAddIf (s : State) (i : Nat) (c : BitVec 6) (n : Int) : State := if s.objOk i c then s.syncAdd i n else s

/-- aborted set in an object: every wait on it releases with an abort (R83, R465). -/
def State.abortObj (s : State) (i : Nat) : State :=
  (s.setObj i { s.obj i with aborted := true }).wakeObj i 0 true

/-- A thread or a SYNC_WAIT waits on an object of [i, i + n). -/
def State.objWaited (s : State) (i n : Nat) : Bool :=
  let inside (o : Nat) : Bool := decide (i ≤ o) && decide (o < i + n)
  let th (t : ThreadSt) : Bool := match t.wait with
    | .sync o _ _ _ => inside o
    | _ => false
  (s.cells.any fun e => th e.2.fg || th e.2.tr) || s.syncWaits.any fun w => inside w.object

/-! ### Descriptor fields of SYNC_SIGNAL and SYNC_WAIT (R267) -/

/-- The first failing condition among a list, in order: a bit and whether it fails. -/
def firstBad (l : List (Nat × Bool)) : Option Nat := (l.find? (·.2)).map (·.1)

/-- The action of a SYNC_SIGNAL (DEDUCED, log 119). -/
def sigAction (d : Line) : Nat := fieldNat d 129 128

/-- The reserved fields and unused fields of a SYNC_SIGNAL (R267), lowest first. -/
def sigBad (d : Line) : Option Nat :=
  let a := sigAction d
  firstBad [(128, a = 3), (130, a ≠ 1 && bitAt d 130), (131, fieldNat d 143 131 ≠ 0), (144, a = 1 && fieldNat d 156 144 ≠ 0),
    (157, fieldNat d 159 157 ≠ 0),
    (160, if a = 0 then fieldNat d 173 160 ≠ 0 else fieldNat d 173 160 = 0 || 8192 < fieldNat d 173 160),
    (174, fieldNat d 191 174 ≠ 0), (192, if a = 0 then fieldNat d 239 224 ≠ 0 else fieldNat d 239 192 ≠ 0),
    (240, fieldNat d 255 240 ≠ 0), (256, fieldNat d 271 256 ≠ 0), (272, fieldNat d 511 272 ≠ 0)]

/-- The lowest run of n free objects (R267). -/
def State.freeRun (s : State) (n : Nat) : Option Nat :=
  firstFrom (fun i => (List.range n).all fun k => !(s.obj (i + k)).valid) (8192 + 1 - n) 0

/-- The longest run of free objects (R257). -/
def State.longestRun (s : State) : Nat :=
  ((List.range 8192).foldl (fun (acc : Nat × Nat) i =>
    let cur := if (s.obj i).valid then 0 else acc.1 + 1
    (cur, max acc.2 cur)) (0, 0)).2

/-- SYNC_SIGNAL add (R267, R82). -/
def State.signalAdd (s : State) (sq slot : Nat) (d : Line) : State :=
  let c := (s.sq sq).ctx
  match sigBad d with
  | some b => s.complete sq slot d (badBit b)
  | none =>
    let i := fieldNat d 156 144
    if s.objOk i c then (s.syncAdd i (signed 32 (fieldNat d 223 192))).complete sq slot d { status := stOk }
    else s.complete sq slot d (badBit 144)

/-- SYNC_SIGNAL allocate (R267). -/
def State.signalAllocate (s : State) (sq slot : Nat) (d : Line) : State :=
  let c := (s.sq sq).ctx
  match sigBad d with
  | some b => s.complete sq slot d (badBit b)
  | none =>
    let n := fieldNat d 173 160
    match s.freeRun n with
    | none => s.complete sq slot d { status := stBusy, r0 := s.longestRun }
    | some i =>
      ((List.range n).foldl (fun s k => s.setObj (i + k) { count := 0, ctx := c, valid := true, fabricAbort := bitAt d 130 }) s).complete
        sq slot d { status := stOk, r0 := i }

/-- SYNC_SIGNAL release (R267). -/
def State.signalRelease (s : State) (sq slot : Nat) (d : Line) : State :=
  let c := (s.sq sq).ctx
  match sigBad d with
  | some b => s.complete sq slot d (badBit b)
  | none =>
    let i := fieldNat d 156 144
    let n := fieldNat d 173 160
    if !((List.range n).all fun k => s.objOk (i + k) c) then s.complete sq slot d (badBit 144)
    else if s.objWaited i n then s.complete sq slot d { status := stBusy }
    else ({ s with sync := sclear s.sync i (i + n) }).complete sq slot d { status := stOk }

/-- The reserved and unused fields of a SYNC_WAIT (R267). -/
def waitBad (d : Line) : Option Nat :=
  firstBad [(128, fieldNat d 129 128 ≠ 0), (130, bitAt d 130), (131, fieldNat d 143 131 ≠ 0), (157, fieldNat d 159 157 ≠ 0),
    (160, fieldNat d 173 160 ≠ 0), (174, fieldNat d 191 174 ≠ 0), (240, fieldNat d 255 240 ≠ 0), (272, fieldNat d 511 272 ≠ 0)]

/-- The abort fault of a SYNC_WAIT: FAULT_CONTEXT with fault code 0x07 (R267, R455). -/
def abortDone : Done := { status := stFaultCtx, detail := 0x07 }

/-- SYNC_WAIT starts: it completes at once where the condition holds or the object is aborted, else it waits (R267, R83). -/
def State.syncWaitStart (s : State) (sq slot : Nat) (d : Line) : State :=
  let c := (s.sq sq).ctx
  let i := fieldNat d 156 144
  let t := signed 48 (fieldNat d 239 192)
  let ms := fieldNat d 271 256
  match waitBad d with
  | some b => s.complete sq slot d (badBit b)
  | none =>
    if !s.objOk i c then s.complete sq slot d (badBit 144)
    else if (s.obj i).aborted then s.completeFault sq slot d abortDone
    else if t ≤ (s.obj i).count then s.complete sq slot d { status := stOk }
    else
      { s.startJob sq slot d .syncWait with
        syncWaits := s.syncWaits ++ [{ sq := sq, slot := slot, object := i, target := t, satisfied := false, aborted := false,
                                       due := if ms = 0 then 0 else s.now + msTicks ms }] }

/-- The SYNC_WAIT of a ring and slot. -/
def State.syncWaiter (s : State) (sq slot : Nat) : Option SyncWaiter := s.syncWaits.find? fun w => w.sq = sq && w.slot = slot

/-- A SYNC_WAIT ends; its ring goes on. -/
def State.endSyncWait (s : State) (sq slot : Nat) (r : Done) : State :=
  let s1 : State := { s with syncWaits := s.syncWaits.filter fun w => !(w.sq = sq && w.slot = slot) }
  let s2 := if r.status = stFaultCtx then s1.finishFault sq slot r else s1.finish sq slot r
  (s2.settleRing (s2.sq sq).ready.length sq).fetch

/-- SYNC_SIGNAL_ADD (R267); a reserved action is answered here too. -/
def execSyncSignalAdd (sq : Fin 256) : State → Host.Outcome State Fault Refusal :=
  act fun s => s.startRow sq 0x0B (fun d => sigAction d = 0 || sigAction d = 3) fun s slot d => s.signalAdd sq slot d

/-- SYNC_SIGNAL_ALLOCATE (R267). -/
def execSyncSignalAllocate (sq : Fin 256) : State → Host.Outcome State Fault Refusal :=
  act fun s => s.startRow sq 0x0B (fun d => sigAction d = 1) fun s slot d => s.signalAllocate sq slot d

/-- SYNC_SIGNAL_RELEASE (R267). -/
def execSyncSignalRelease (sq : Fin 256) : State → Host.Outcome State Fault Refusal :=
  act fun s => s.startRow sq 0x0B (fun d => sigAction d = 2) fun s slot d => s.signalRelease sq slot d

/-- SYNC_WAIT (R267): later descriptors of the ring wait for it (R252). -/
def execSyncWait (sq : Fin 256) : State → Host.Outcome State Fault Refusal :=
  act fun s => s.startRow sq 0x0C (fun _ => true) fun s slot d => s.syncWaitStart sq slot d

/-- SYNC_WAIT_TIMEOUT (R267): at timeout_ms the wait completes with TIMEOUT. -/
def execSyncWaitTimeout (sq : Fin 256) (slot : BitVec 16) : State → Host.Outcome State Fault Refusal :=
  act fun s =>
    match s.syncWaiter sq slot.toNat with
    | none => s
    | some w =>
      if w.due ≠ 0 ∧ w.due ≤ s.now ∧ !w.satisfied ∧ !w.aborted then s.endSyncWait sq slot.toNat { status := stTimeout } else s

end Sys2Proof.Machine
end

