-- ==== Sys2Proof/Machine/Plan.lean ====
section
/-! DEFINITION. The plan a module holds (R362 to R365): its header, its module records and the module's own coordinates. -/

namespace Sys2Proof.Machine

/-- The field [hi:lo] of the plan header (R363). -/
def planHdr (p : List Byte) (hi lo : Nat) : Nat := bytesNat p 0 128 / 2 ^ lo % 2 ^ (hi + 1 - lo)

def planEx (p : List Byte) : Nat := planHdr p 130 128 + 1
def planEy (p : List Byte) : Nat := planHdr p 133 131 + 1
def planEz (p : List Byte) : Nat := planHdr p 136 134 + 1

/-- The number of module records. -/
def planCount (p : List Byte) : Nat := planEx p * planEy p * planEz p

/-- A module record (R363). -/
def planRec (p : List Byte) (i : Nat) : BitVec 256 := BitVec.ofNat 256 (bytesNat p (128 + 32 * i) 32)

/-- The role of a record: 0 worker, 1 spare, 2 empty. -/
def recRole (r : BitVec 256) : Nat := fieldNat r 1 0

/-- The end (rack, slot) of a record (R371). -/
def recEnd (r : BitVec 256) : End := BitVec.ofNat 16 (fieldNat r 4 2 * 64 + fieldNat r 10 5)

/-- The end of a rack and slot: slot[5:0], rack[8:6]. -/
def mkEnd (rack : BitVec 3) (slot : BitVec 6) : End := BitVec.ofNat 16 (rack.toNat * 64 + slot.toNat)

/-- The coordinates of record i. -/
def planXYZ (p : List Byte) (i : Nat) : Nat × Nat × Nat :=
  (i / (planEy p * planEz p), i / planEz p % planEy p, i % planEz p)

/-- The record of the planned end, empty records apart (R365). -/
def planFind (p : List Byte) (e : End) : Option Nat :=
  firstFrom (fun i => decide (recRole (planRec p i) ≠ 2) && decide (recEnd (planRec p i) = e)) (planCount p) 0

/-- The record index of a module index, where the plan has one. -/
def planAt (p : List Byte) (m : Nat) : Option Nat :=
  let c := idxXYZ m
  if c.1 < planEx p ∧ c.2.1 < planEy p ∧ c.2.2 < planEz p then
    some (c.1 * planEy p * planEz p + c.2.1 * planEz p + c.2.2)
  else none

/-- The module's own end. -/
def State.ownEnd (s : State) : End := mkEnd s.tow.rack s.tow.slot

/-- The module's own index under the plan it holds (R106, R365). -/
def State.self (s : State) : Option Nat :=
  match s.flash.plan with
  | none => none
  | some p => (planFind p s.ownEnd).map fun i => modIdx (planXYZ p i)

/-- The module's own index; 0 without a plan that places it, where no packet leaves (R106). -/
def State.selfIdx (s : State) : Nat := s.self.getD 0

/-- The neighbour of a module index over a port: 0 X+, 1 X-, 2 Y+, 3 Y-, 4 Z+, 5 Z- (R277), with whether the link crosses the
dateline of its dimension (R312). -/
def neighbour (m port : Nat) : Nat × Bool :=
  let c := idxXYZ m
  match port with
  | 0 => (modIdx ((c.1 + 1) % 8, c.2.1, c.2.2), decide (c.1 = 7))
  | 1 => (modIdx ((c.1 + 7) % 8, c.2.1, c.2.2), decide (c.1 = 0))
  | 2 => (modIdx (c.1, (c.2.1 + 1) % 8, c.2.2), decide (c.2.1 = 7))
  | 3 => (modIdx (c.1, (c.2.1 + 7) % 8, c.2.2), decide (c.2.1 = 0))
  | 4 => (modIdx (c.1, c.2.1, (c.2.2 + 1) % 8), decide (c.2.2 = 7))
  | _ => (modIdx (c.1, c.2.1, (c.2.2 + 7) % 8), decide (c.2.2 = 0))

end Sys2Proof.Machine
end

