-- ==== Sys2Proof/Machine/Packets.lean ====
section
/-! DEFINITION. Torus packets: the header (R306, R307), protection (R507, R508), injection with its sequence, store, timers and
Sluice (R320 to R323, R329, R356), and delivery with the checks of R311. -/

namespace Sys2Proof.Machine

/-! ### Header fields (R306) -/

def hCls (h : Line) : Nat := fieldNat h 3 2
def hVc (h : Line) : Nat := fieldNat h 6 4
def hDstEp (h : Line) : Nat := fieldNat h 15 8
/-- The destination's module index, 64x + 8y + z. -/
def hDst (h : Line) : Nat := fieldNat h 18 16 * 64 + fieldNat h 21 19 * 8 + fieldNat h 24 22
def hMode (h : Line) : Nat := fieldNat h 26 25
def hOrdered (h : Line) : Bool := bitAt h 27
def hReply (h : Line) : Bool := bitAt h 28
def hEscape (h : Line) : Bool := bitAt h 30
def hCe (h : Line) : Bool := bitAt h 31
def hTtl (h : Line) : Nat := fieldNat h 47 40
def hRaddr (h : Line) : Nat := fieldNat h 95 48
def hSrcEp (h : Line) : Nat := fieldNat h 103 96
/-- The source's module index. -/
def hSrc (h : Line) : Nat := fieldNat h 106 104 * 64 + fieldNat h 109 107 * 8 + fieldNat h 112 110
def hSeq (h : Line) : Nat := fieldNat h 151 120
def hGen (h : Line) : Nat := fieldNat h 159 152
def hCtx (h : Line) : BitVec 6 := slice h 160 6
def hKeySlot (h : Line) : BitVec 4 := slice h 166 4
def hKeyGen (h : Line) : BitVec 6 := slice h 170 6
def hLen (h : Line) : Nat := fieldNat h 188 176
def hFlow (h : Line) : Nat := fieldNat h 203 192
def hRsync (h : Line) : Nat := fieldNat h 220 208
def hRsyncEn (h : Line) : Bool := bitAt h 221
def hSlice (h : Line) : Nat := fieldNat h 231 224
def hContrib (h : Line) : Nat := fieldNat h 247 232
def hCrc (h : Line) : Nat := fieldNat h 511 480

/-- Classes: 0 timetabled, 1 open, 2 management. -/
def clsTt : Nat := 0
def clsOpen : Nat := 1
def clsMgmt : Nat := 2

/-- What a source puts into a header. -/
structure Spec where
  cls : Nat := 1
  dstEp : Nat := 0
  dst : Nat := 0
  mode : Nat := 0
  ordered : Bool := false
  reply : Bool := false
  raddr : Nat := 0
  srcEp : Nat := 0
  gen : Nat := 0
  ctx : BitVec 6 := 0
  keySlot : BitVec 4 := 0
  flow : Nat := 0
  rsync : Nat := 0
  rsyncEn : Bool := false
  contrib : Nat := 0
  payload : List Byte := []

/-- The header of a packet that this module sends, before its sequence, epoch and checks: ttl 32, dl 0, the even VC of its class
(R306, R312). -/
def State.header (s : State) (p : Spec) : Line :=
  let d := idxXYZ p.dst
  let f := idxXYZ s.selfIdx
  BitVec.ofNat 512
    (1 + p.cls * 2 ^ 2 + 2 * p.cls * 2 ^ 4 + p.dstEp * 2 ^ 8 + d.1 * 2 ^ 16 + d.2.1 * 2 ^ 19 + d.2.2 * 2 ^ 22
      + p.mode * 2 ^ 25 + p.ordered.toNat * 2 ^ 27 + p.reply.toNat * 2 ^ 28 + 32 * 2 ^ 40 + p.raddr * 2 ^ 48
      + p.srcEp * 2 ^ 96 + f.1 * 2 ^ 104 + f.2.1 * 2 ^ 107 + f.2.2 * 2 ^ 110 + p.gen * 2 ^ 152 + p.ctx.toNat * 2 ^ 160
      + p.keySlot.toNat * 2 ^ 166 + (s.slotGen p.keySlot).toNat * 2 ^ 170 + p.payload.length * 2 ^ 176
      + p.flow * 2 ^ 192 + p.rsync * 2 ^ 208 + p.rsyncEn.toNat * 2 ^ 221
      + (if p.cls = clsMgmt then 0 else s.sliceOf p.ctx.toNat) * 2 ^ 224 + p.contrib * 2 ^ 232)

/-- The header with every field that hops and re-sends change taken as 0: vc, epoch, resent, escape, ce, dl, ttl (R307). -/
def hStill (h : Line) : Line :=
  putField (putField (putField (putField h 4 4 0) 29 3 0) 32 3 0) 40 8 0

/-- The end-to-end crc over header bytes 0 to 59 and the payload (R307). -/
def pktCrc (h : Line) (payload : List Byte) : BitVec 32 :=
  crc32c (((leBytes 64 (putField (hStill h) 448 16 0).toNat).take 60) ++ payload)

/-- The header with its crc. -/
def withCrc (h : Line) (payload : List Byte) : Line := putField h 480 32 (pktCrc h payload).toNat

/-- The hop check over bits [447:0] (R306). -/
def hopCrc (h : Line) : BitVec 16 := crc16 ((leBytes 64 h.toNat).take 56)

/-- The header with its hcrc as sent on this hop. -/
def withHop (h : Line) : Line := putField h 448 16 (hopCrc h).toNat

/-- The hcrc of an arriving header is good. -/
def hopOk (h : Line) : Bool := fieldNat h 463 448 = (hopCrc h).toNat

/-! ### Protection (R507, R508) -/

/-- The nonce of a protected packet as 12 bytes. -/
def pktNonce (h : Line) : List Byte :=
  let stream := if hMode h = 1 then 2 else if hCls h = clsTt then 1 else 0
  let dst := if hMode h = 1 then hFlow h else hDst h
  leBytes 12 (hSeq h + fieldNat h 383 352 * 2 ^ 32 + hSrc h * 2 ^ 64 + dst * 2 ^ 73 + stream * 2 ^ 85
    + (hKeyGen h).toNat * 2 ^ 87)

/-- The additional data: header bytes 0 to 47 with auth[95:0] and the changing fields as 0, the destination too for multicast. -/
def pktAad (h : Line) : List Byte :=
  let h1 := putField (hStill h) 256 96 0
  (leBytes 64 (if hMode h = 1 then putField h1 16 9 0 else h1).toNat).take 48

/-- The link key of a slot as 32 bytes. -/
def State.linkKey (s : State) (k : BitVec 4) : List Byte := leBytes 32 (s.key k.toNat).link.toNat

/-- A packet encrypted under its slot's link key, with its tag (R507). -/
def State.protect (s : State) (p : Packet) : Packet :=
  let k := s.linkKey (hKeySlot p.hdr)
  let ct := gcmText k (pktNonce p.hdr) p.payload
  { hdr := putField p.hdr 256 96 (leNat ((gcmTag k (pktNonce p.hdr) (pktAad p.hdr) ct).take 12)), payload := ct }

/-- The tag of a protected packet verifies (R311 check 8). -/
def State.authOk (s : State) (p : Packet) : Bool :=
  decide (fieldNat p.hdr 351 256 =
    leNat ((gcmTag (s.linkKey (hKeySlot p.hdr)) (pktNonce p.hdr) (pktAad p.hdr) p.payload).take 12))

/-- The payload in the clear. -/
def State.clear (s : State) (p : Packet) : List Byte :=
  if hKeySlot p.hdr = 0 ∨ hMode p.hdr = 2 then p.payload else gcmText (s.linkKey (hKeySlot p.hdr)) (pktNonce p.hdr) p.payload

/-! ### Router state by number -/

/-- The bank of an epoch bit (R335). -/
def State.bank (s : State) (e : Bool) : RouteBank := if e then s.fab.bank1 else s.fab.bank0

/-- A fence entry says that module m is fenced from slice sl (R354, R355). -/
def State.fenced (s : State) (m sl : Nat) : Bool :=
  let e := sget (0 : BitVec 16) s.fab.fences m
  bitAt e 0 && decide (fieldNat e 8 1 = sl)

/-- The bytes a packet occupies, rounded up to 64 (R316). -/
def pktBytes (p : Packet) : Nat := 64 + (p.payload.length + 63) / 64 * 64

/-- The buffer of a VC at an input port; port 6 is local. -/
def State.vcBuf (s : State) (port vc : Nat) : List Buffered := sget [] s.fab.vcs (6 * port + vc)

/-- The state with a VC buffer replaced. -/
def State.setVc (s : State) (port vc : Nat) (b : List Buffered) : State :=
  { s with fab := { s.fab with vcs := sset [] s.fab.vcs (6 * port + vc) b } }

/-- Buffer space of a VC (R316). -/
def vcSize (vc : Nat) : Nat := if vc < 2 then 32 * 1024 else if vc < 4 then 128 * 1024 else 96 * 1024

/-- Bytes held in a VC buffer. -/
def heldBytes (b : List Buffered) : Nat := sumOf (b.map fun x => pktBytes x.pkt)

/-- Free space of a VC buffer. -/
def State.vcFree (s : State) (port vc : Nat) : Nat := vcSize vc - heldBytes (s.vcBuf port vc)

/-! ### Sluice and the re-send store (R321, R329) -/

/-- The open share of the re-send store. -/
def openStore : Nat := 4 * 2 ^ 20 - 256 * 1024

/-- FAB_SLUICE.store_lo as it acts. -/
def State.storeLo (s : State) : Nat :=
  let lo := max 1 (s.fld 0x702020 15 7)
  if s.storeHi ≤ lo then s.storeHi - 1 else lo

/-- The lowest level that the active causes allow (R329). -/
def State.sluiceFloor (s : State) : Nat := max (if s.fry.low then 8 else 0) (if s.fab.storeHigh then 12 else 0)

/-- The store-high mark with its hysteresis, and the level held to its floor. -/
def State.sluiceCauses (s : State) : State :=
  let pct := 100 * s.fab.storeBytes
  let high := if s.fab.storeHigh then !decide (pct < s.storeLo * openStore) else decide (s.storeHi * openStore < pct)
  let s1 : State := { s with fab := { s.fab with storeHigh := high } }
  if s1.fab.sluice < s1.sluiceFloor then { s1 with fab := { s1.fab with sluice := s1.sluiceFloor, sluiceAt := s.now } } else s1

/-- The token bucket filled to now: (16 - level) x 750 bytes a tick, depth 64 KiB (R329). -/
def State.tokens (s : State) : Nat := min 65536 (s.fab.bucket + (s.now - s.fab.bucketAt) * ((16 - s.fab.sluice) * 750))

/-! ### Injection (R320 to R323, R335, R356) -/

/-- FAB_E2E_CFG.resend_us in ticks (R331). -/
def State.resendTicks (s : State) : Nat := usTicks (max 2 (s.fld 0x702010 0 8))

/-- FAB_E2E_CFG.tries (R331). -/
def State.tries (s : State) : Nat := max 1 (s.fld 0x702010 8 4)

/-- Re-send timers in use, of the 4,032 entries of the wheel that are not pinned (R323). -/
def State.timersUsed (s : State) : Nat :=
  (s.fab.src.filter fun e => !e.2.unacked.isEmpty).length + (s.fab.trees.filter fun e => !e.2.unacked.isEmpty).length

/-- The default of the source tables. -/
def srcDefault : E2eSrc := { next := 0, unacked := [], timer := 0, interval := 1, tries := 0 }

/-- The source side of a destination module. -/
def State.srcOf (s : State) (m : Nat) : E2eSrc := sget srcDefault s.fab.src m

/-- The source side of a tree. -/
def State.treeOf (s : State) (t : Nat) : E2eSrc := sget srcDefault s.fab.trees t

/-- Whether an injection takes place, waits, waits for an entry of the timer wheel (R323), or ends in a drop. -/
inductive Inj where
  | sent (s : State)
  | waits (s : State)
  | noTimer
  | dropped (s : State)

/-- The protected stream of a slot has wrapped: W advances, or the slot stops (R508). -/
def State.wrapKey (s : State) (k : BitVec 4) (seq : Nat) : State :=
  if k ≠ 0 ∧ seq = 2 ^ 32 - 1 then
    { s with keys := supd {} s.keys k.toNat fun x =>
        if x.wraps = 2 ^ 32 - 1 then { x with stopped := true } else { x with wraps := x.wraps + 1 } }
  else s

/-- The packet finished with its sequence: protected, with crc, epoch and hcrc. -/
def State.seal_ (s : State) (p : Packet) (seq : Nat) : Packet :=
  let k := hKeySlot p.hdr
  let h := putField p.hdr 120 32 seq
  let prot := decide (k ≠ 0) && decide (hMode h ≠ 2)
  let p1 : Packet := { hdr := if prot then putField h 352 32 (s.key k.toNat).wraps else h, payload := p.payload }
  let p2 := if prot then s.protect p1 else p1
  { p2 with hdr := withHop (putField (withCrc p2.hdr p2.payload) 7 1 s.epoch.toNat) }

/-- The telemetry of a port changed (R334). -/
def State.tel (s : State) (q : Nat) (f : Tel → Tel) : State := { s with cnt := { s.cnt with tel := supd {} s.cnt.tel q f } }

/-- A timetabled packet dropped at an input port without room (R315). -/
def State.ttDropped (s : State) (q : Nat) : State := s.tel q fun t => { t with ttDrop := t.ttDrop + 1 }

/-- A packet takes its place at the end of an input VC, whose highest occupancy is noted (R316, R334). -/
def State.pushVc (s : State) (port vc : Nat) (b : Buffered) : State :=
  let s1 := s.setVc port vc (s.vcBuf port vc ++ [b])
  s1.tel port fun t => { t with maxOcc := max t.maxOcc (heldBytes (s1.vcBuf port vc) / 1024) }

/-- A packet enters the router's local input port. -/
def State.enterLocal (s : State) (p : Packet) (tkt : Option (Nat × BitVec 8)) : State :=
  s.pushVc 6 (hVc p.hdr) { pkt := p, at_ := s.now, tkt := tkt }

/-- The ticket timeout of FRY_TKT_TIMEOUT in ticks (R217). -/
def State.ticketTicks (s : State) : Nat := 256 * clamp 16 256 (s.fld 0x500020 0 9)

/-- The packet of a ticket has left, if the ticket is still the one it was sent for: a step-buffer token's ticket is sent and its timeout begins, a
parked token's is sent and its park space free (R204, R207, R211) (DEDUCED, log 98). -/
def State.ticketLeft (s : State) (k : Option (Nat × BitVec 8)) : State :=
  match k with
  | none => s
  | some (k, g) =>
    { s with fry := { s.fry with tickets := supd {} s.fry.tickets k fun (t : Ticket) =>
        if t.tgen ≠ g then t
        else if t.state = .issued then { t with state := .sent, due := s.time.tick + s.ticketTicks }
        else if t.state = .parked ∧ t.leaving then { t with state := .sent, park := 0, parkLen := 0, retryAt := 0, leaving := false }
        else t } }

/-- Tokens taken by an open-class packet. -/
def State.takeTokens (s : State) (n : Nat) : State :=
  { s with fab := { s.fab with bucket := s.tokens - n, bucketAt := s.now } }

/-- The modules of the slice in the active bank, this one apart: the members a tree's root waits for (DESIGN CHOICE, log 17). -/
def State.sliceModules (s : State) : List Nat :=
  ((s.bank s.epoch).dest.filter fun e => bitAt e.2 0 && bitAt e.2 1 && e.1 ≠ s.selfIdx).map (·.1)

/-- The re-send store has no room for a packet in its share (R321). -/
def State.storeFull (s : State) (mgmt : Bool) (size : Nat) : Bool :=
  if mgmt then decide (256 * 1024 < s.fab.mgmtBytes + size) else decide (openStore < s.fab.storeBytes + size)

/-- A copy takes its place in its share of the re-send store. -/
def State.chargeStore (s : State) (mgmt : Bool) (size : Nat) : State :=
  ({ s with fab := { s.fab with
      storeBytes := if mgmt then s.fab.storeBytes else s.fab.storeBytes + size,
      mgmtBytes := if mgmt then s.fab.mgmtBytes + size else s.fab.mgmtBytes } }).sluiceCauses

/-- A packet for an endpoint of this module reaches LPDDR6 channels that are in reset: it waits (R133). -/
def State.deliverWaits (s : State) (h : Line) : Bool :=
  128 ≤ hDstEp h && hDstEp h < 160 && s.memWaits (hRaddr h) (hLen h)

/-- One attempt to inject a packet into the router; a timetabled one that finds no room in its VC is dropped and counted there (R315). -/
def State.tryInject (s : State) (w : Waiting) : Inj :=
  let h := w.pkt.hdr
  let cls := hCls h
  let k := hKeySlot h
  let size := pktBytes w.pkt
  let m := hDst h
  let mgmt := decide (cls = clsMgmt)
  if !mgmt && ((s.ctx (hCtx h).toNat).stopped || (hMode h = 0 && s.fenced m (hSlice h))) then
    .dropped { s with cnt := { s.cnt with fenceDrop := satAdd 16 s.cnt.fenceDrop 1 } }
  else if decide (k ≠ 0) && hMode h ≠ 2 && (s.key k.toNat).stopped then
    .dropped { s with cnt := { s.cnt with nonceStop := satAdd 8 s.cnt.nonceStop 1 } }
  else if s.vcFree 6 (hVc h) < size ∧ cls = clsTt then .dropped (s.ttDropped 6)
  else if s.vcFree 6 (hVc h) < size ∨ (cls = clsOpen ∧ s.tokens < size) then .waits s
  else
    let s0 := if cls = clsOpen then s.takeTokens size else s
    if hMode h = 2 then .sent (s0.enterLocal (s.seal_ w.pkt 0) w.tkt)
    else if hMode h = 1 then
      let t := s.treeOf (hFlow h)
      let aw := (s.sliceModules.filter fun x => !t.pruned.contains x).map fun x => (t.next, x)
      if 64 ≤ t.unacked.length ∨ s.storeFull mgmt size then .waits s
      else if t.unacked.isEmpty ∧ 4032 ≤ s.timersUsed then .noTimer
      else
        let p := s.seal_ w.pkt t.next
        let s1 := (s0.enterLocal p w.tkt).wrapKey k t.next
        let t1 : E2eSrc := { t with next := (t.next + 1) % 2 ^ 32 }
        let t2 : E2eSrc := if aw.isEmpty then t1 else
          { t1 with unacked := t.unacked ++ [(t.next, p, s.now)], awaited := t.awaited ++ aw,
                    timer := if t.unacked.isEmpty then s.now + s.resendTicks else t.timer,
                    interval := if t.unacked.isEmpty then 1 else t.interval, tries := if t.unacked.isEmpty then 0 else t.tries }
        let s2 : State := { s1 with fab := { s1.fab with trees := sset srcDefault s1.fab.trees (hFlow h) t2 } }
        .sent (if aw.isEmpty then s2 else s2.chargeStore mgmt size)
    else if cls = clsTt then
      let n := sget 0 s.fab.ttSeq m
      let s1 := (s0.enterLocal (s.seal_ w.pkt n) w.tkt).wrapKey k n
      .sent { s1 with fab := { s1.fab with ttSeq := sset 0 s1.fab.ttSeq m ((n + 1) % 2 ^ 32) } }
    else
      let e := s.srcOf m
      let old := (e.unacked.head?.map (·.1)).getD e.next
      if s.storeFull mgmt size ∨ 1024 ≤ (e.next + 2 ^ 32 - old) % 2 ^ 32 then .waits s
      else if e.unacked.isEmpty ∧ 4032 ≤ s.timersUsed then .noTimer
      else
        let p := s.seal_ w.pkt e.next
        let s1 := (s0.enterLocal p w.tkt).wrapKey k e.next
        let e' : E2eSrc := { e with next := (e.next + 1) % 2 ^ 32, unacked := e.unacked ++ [(e.next, p, s.now)],
                                    timer := if e.unacked.isEmpty then s.now + s.resendTicks else e.timer,
                                    interval := if e.unacked.isEmpty then 1 else e.interval,
                                    tries := if e.unacked.isEmpty then 0 else e.tries }
        let s2 : State := { s1 with fab := { s1.fab with
          src := sset srcDefault s1.fab.src m e',
          track := match w.job with
            | some j => s1.fab.track ++ [(m, e.next, j)]
            | none => s1.fab.track } }
        .sent (s2.chargeStore mgmt size)

/-- An earlier packet that waits goes first: one of the same class to the same destination or tree, so that packets are numbered in the order in
which they were sent (R201), and any other open one before a packet of trickle rank (R211). -/
def Waiting.before (x w : Waiting) : Bool :=
  let a := x.pkt.hdr
  let b := w.pkt.hdr
  (x.trickle = w.trickle && hCls a = hCls b && hMode a = hMode b && (if hMode a = 1 then hFlow a = hFlow b else hDst a = hDst b))
    || (w.trickle && !x.trickle && hCls a = clsOpen)

/-! ### Delivery (R310, R311) -/

/-- A count of FAB_E2E_CNT raised. -/
def State.cntBadDest (s : State) : State := { s with cnt := { s.cnt with badDest := satAdd 16 s.cnt.badDest 1 } }

/-- dst_ep has an endpoint and raddr meets R310 (check 3). -/
def endpointOk (h : Line) : Bool :=
  let ep := hDstEp h
  let a := hRaddr h
  if ep < 128 then decide (cellAddr ep 0 ≤ a) && decide (a + hLen h ≤ cellAddr ep 0x200000)
  else if ep < 160 then decide (a + hLen h ≤ 0x00C000000000)
  else ep = 160 || ep = 240 || ep = 255

/-- The endpoint is in reset (check 4, R20); in a pause that brings microcode every cell counts as so (R532). -/
def State.epInReset (s : State) (ep : Nat) : Bool :=
  if ep = 255 then s.rst.cold
  else
    s.rst.warm || s.rst.cold || (ep < 128 && ((s.cell ep).inReset || (s.cell ep).failed || (s.hst.paused && s.fw.withUcode)))
      || (128 ≤ ep && ep < 160 && (sget ({} : Mover) s.movers (ep - 128)).inReset) || (ep = 160 && s.fry.inReset)

/-- The generation tag of an endpoint (R447, check 6). -/
def State.epGen (s : State) (ep : Nat) : Nat :=
  if ep < 128 then (s.cell ep).gen.toNat
  else if ep < 160 then (sget ({} : Mover) s.movers (ep - 128)).gen.toNat
  else if ep = 160 then s.fry.gen.toNat else 0

/-- The payload written at raddr, and rsync incremented by n once the write is accepted (R311); a failed page check is check 9. -/
def State.deliverWrite (s : State) (h : Line) (payload : List Byte) (n : Nat) : State × Bool :=
  let c := hCtx h
  let ep := hDstEp h
  let sync (s : State) : State :=
    if hRsyncEn h then (if s.objOk (hRsync h) c then s.syncAdd (hRsync h) n else s.cntBadDest) else s
  if ep < 128 then (sync { s with mem := memPut s.mem (hRaddr h) payload }, true)
  else if ep < 160 then
    if (s.pageFail c true true (hRaddr h) payload.length).isSome ∨ s.capacity < hRaddr h + payload.length
      ∨ s.ctxSlot c.toNat ≠ hKeySlot h then (s.cntBadDest, false)
    else (sync (s.writeBytes c (hKeySlot h) false true (hRaddr h) payload).1, true)
  else (sync { s with fab := { s.fab with local_ := s.fab.local_ ++ [{ hdr := h, payload := payload }] } }, true)

/-- Checks 3 to 7 of R311: the state with the failure counted, and whether they pass. -/
def State.checks37 (s : State) (h : Line) : State × Bool :=
  let c := (hCtx h).toNat
  if !endpointOk h then (s.cntBadDest, false)
  else if s.epInReset (hDstEp h) then ({ s with cnt := { s.cnt with resetDrop := satAdd 16 s.cnt.resetDrop 1 } }, false)
  else if hCls h ≠ clsMgmt ∧ (!(s.ctx c).live ∨ s.sliceOf c ≠ hSlice h) then (s.cntBadDest, false)
  else if hReply h ∧ hGen h ≠ s.epGen (hDstEp h) then
    ({ s with cnt := { s.cnt with staleGen := satAdd 16 s.cnt.staleGen 1 } }, false)
  else if hKeySlot h ≠ 0 ∧ hKeyGen h ≠ s.slotGen (hKeySlot h) then
    ({ s with cnt := { s.cnt with keyDrop := satAdd 16 s.cnt.keyDrop 1 } }, false)
  else (s, true)

/-- A unicast packet for an endpoint of the sending module: over the mesh, checks 3 to 7 and 9, never acknowledged (R310). -/
def State.deliverMesh (s : State) (p : Packet) : State :=
  match s.checks37 p.hdr with
  | (s1, false) => s1
  | (s1, true) => (s1.deliverWrite p.hdr p.payload 1).1

/-- Checks 3 to 9 on a packet from the fabric; the second component says that it was delivered. -/
def State.deliverFabric (s : State) (p : Packet) (n : Nat) : State × Bool :=
  match s.checks37 p.hdr with
  | (s1, false) => (s1, false)
  | (s1, true) =>
    if hKeySlot p.hdr ≠ 0 ∧ hMode p.hdr ≠ 2 ∧ !s.authOk p then
      ({ s1 with cnt := { s1.cnt with keyDrop := satAdd 16 s1.cnt.keyDrop 1 } }, false)
    else s1.deliverWrite p.hdr (s.clear p) n

/-- One attempt to send a packet: one for an endpoint of this module goes over the mesh, once the memory it writes can take it (R133, R310), any
other through the router. -/
def State.trySend (s : State) (w : Waiting) : Inj :=
  if hMode w.pkt.hdr = 0 ∧ hDst w.pkt.hdr = s.selfIdx then
    (if s.deliverWaits w.pkt.hdr then .waits s else .sent ((s.deliverMesh w.pkt).ticketLeft w.tkt))
  else s.tryInject w

/-- A packet is injected, waits at injection, or is dropped there. A wait for a timer is counted once (R323);
the remote copy of a dropped packet is noted (R356). -/
def State.inject (s : State) (w : Waiting) : State :=
  let wait (s : State) (w : Waiting) : State := { s with fab := { s.fab with inject := s.fab.inject ++ [w] } }
  if s.fab.inject.any fun x => x.before w then wait s w
  else
    match s.trySend w with
    | .sent s1 => s1
    | .waits s1 => wait s1 w
    | .noTimer => wait (if w.noTimer then s else { s with cnt := { s.cnt with wheelFull := s.cnt.wheelFull + 1 } }) { w with noTimer := true }
    | .dropped s1 => ({ s1 with fab := { s1.fab with cutCopies := s1.fab.cutCopies ++ w.job.toList } } : State).ticketLeft w.tkt

/-- Waiting packets are tried again, those of trickle rank last. -/
def State.pumpInject (s : State) : State :=
  let ws := (s.fab.inject.filter fun w => !w.trickle) ++ s.fab.inject.filter fun w => w.trickle
  forEach ws (fun s w => s.inject w) { s with fab := { s.fab with inject := [] } }

/-- A packet sent: unicast to the module itself goes over the mesh, all else through the router (R106, R310). -/
def State.send (s : State) (p : Spec) (trickle : Bool) (job : Option CopyPkt) : State :=
  let pkt : Packet := { hdr := s.header p, payload := p.payload }
  if p.mode = 0 ∧ p.dst = s.selfIdx ∧ !s.deliverWaits pkt.hdr then s.deliverMesh pkt
  else s.inject { pkt := pkt, trickle := trickle, job := job }

/-- A token packet of a ticket sent (R197, R204, R211). -/
def State.sendToken (s : State) (p : Spec) (trickle : Bool) (k : Nat × BitVec 8) : State :=
  let pkt : Packet := { hdr := s.header p, payload := p.payload }
  if p.dst = s.selfIdx ∧ !s.deliverWaits pkt.hdr then (s.deliverMesh pkt).ticketLeft (some k)
  else s.inject { pkt := pkt, trickle := trickle, tkt := some k }

/-- A management-class packet of the agent to endpoint 255 of a module (R322, R464). -/
def State.sendAgent (s : State) (dst : Nat) (payload : List Byte) : State :=
  s.send { cls := clsMgmt, dstEp := 255, dst := dst, srcEp := 255, payload := payload } false none

/-! ### Tickets (R203 to R206) -/

/-- A ticket. -/
def State.ticket (s : State) (k : Nat) : Ticket := sget {} s.fry.tickets k

/-- The state with a ticket replaced. -/
def State.setTicket (s : State) (k : Nat) (t : Ticket) : State := { s with fry := { s.fry with tickets := sset {} s.fry.tickets k t } }

/-- Tickets that are not free and meet p. -/
def State.usedTickets (s : State) (p : Ticket → Bool) : Nat := (s.fry.tickets.filter fun e => e.2.state ≠ .free && p e.2).length

/-- The minima of FRY_TKT_MIN and the pool (R205, R216). -/
def State.ttMin (s : State) : Nat := 4096 * s.fld 0x500010 0 8
def State.openMin (s : State) : Nat := 4096 * s.fld 0x500010 8 8
def State.ovfMin (s : State) : Nat := 4096 * s.fld 0x500010 16 8
def State.pool (s : State) : Nat := 1048576 - s.ttMin - s.openMin - s.ovfMin

/-- Tickets reserved by instances; timetabled tickets beyond their instance's reservation,
which those of an instance that is gone all are; what the pool has given out or holds. -/
def State.reserved (s : State) : Nat := sumOf (s.tt.instances.map fun i => i.object.tickets)
def State.ttOf (s : State) (id : Nat) : Nat := s.usedTickets fun t => t.cls = .timetabled && t.instance_ = id
def State.ttExcess (s : State) : Nat :=
  sumOf (s.tt.instances.map fun i => s.ttOf i.id - i.object.tickets)
    + s.usedTickets fun t => t.cls = .timetabled && s.tt.instances.all fun i => i.id ≠ t.instance_
def State.poolUsed (s : State) : Nat :=
  (s.reserved - s.ttMin) + (s.ttExcess - (s.ttMin - s.reserved)) + ((s.usedTickets fun t => t.cls = .open_) - s.openMin)

/-- Tickets left for open dispatch, and the ticket-low signal to Sluice with its hysteresis (R206). -/
def State.openLeft (s : State) : Nat :=
  (s.openMin - s.usedTickets fun t => t.cls = .open_) + (s.pool - s.poolUsed)

def State.ticketSignal (s : State) : State :=
  let mark := 1024 * s.fld 0x500010 24 8
  let low := if s.fry.low then decide (s.openLeft < 2 * mark) else decide (s.openLeft < mark)
  ({ s with fry := { s.fry with low := low } }).sluiceCauses

end Sys2Proof.Machine
end

