-- ==== Sys2Proof/Machine/Movers.lean ====
section
/-! DEFINITION. The memory movers (05 R138 to R143, R265): COPY, FILL and WEIGHT_LOAD, their pieces, the movement of their bytes and
their ends. -/

namespace Sys2Proof.Machine

/-- A mover. -/
def State.mover (s : State) (m : Nat) : Mover := sget {} s.movers m

/-- The state with a mover changed. -/
def State.updMover (s : State) (m : Nat) (f : Mover → Mover) : State := { s with movers := supd {} s.movers m f }

/-! ### Checks of R141, R121, R126, R129 -/

/-- A device range that movers may name lies in one region, LPDDR6 or populated cell memory (R12, R141). -/
def moverRange (a len : Nat) : Bool :=
  let last := a + len - 1
  (regionOf a = .lpddr && regionOf last = .lpddr) || (inCells a && inCells last)

/-- A device range beyond the module's LPDDR6 capacity (R121) (DEDUCED, log 101). -/
def State.beyond (s : State) (a len : Nat) : Bool := regionOf a = .lpddr && decide (s.capacity < a + len)

/-- The lowest bit among fields that fail a condition (R255). -/
def lowestBad (l : List (Nat × Bool)) : Option Nat :=
  match (l.filter (·.2)).map (·.1) with
  | [] => none
  | b :: bs => some (bs.foldl min b)

/-- Two ranges of the same length overlap. -/
def overlaps (a b len : Nat) : Bool := decide (a < b + len) && decide (b < a + len)

/-- The fields of a COPY or FILL that break R141, as the lowest bit. -/
def moveBad (copy : Bool) (d : Line) : Option Nat :=
  let ss := fieldNat d 257 256
  let ds := fieldNat d 259 258
  let len := fieldNat d 319 288
  let src := fieldNat d 191 128
  let dst := fieldNat d 255 192
  let remote := copy && ds = 2
  let dev (sp : Nat) (a : Nat) : Bool := decide (sp = 0) && !moverRange a len
  lowestBad [
    (256, if copy then decide (2 ≤ ss) else decide (ss ≠ 0)), (258, if copy then decide (ds = 3) else decide (ds ≠ 0)),
    (261, !remote && bitAt d 261), (262, fieldNat d 287 262 ≠ 0), (288, len < 4 || len % 4 ≠ 0),
    (320, !remote && fieldNat d 322 320 ≠ 0), (323, !remote && fieldNat d 325 323 ≠ 0),
    (326, !remote && fieldNat d 328 326 ≠ 0), (329, fieldNat d 335 329 ≠ 0),
    (336, if remote then 160 ≤ fieldNat d 343 336 else fieldNat d 343 336 ≠ 0),
    (344, !remote && fieldNat d 356 344 ≠ 0), (357, !remote && bitAt d 357), (358, fieldNat d 511 358 ≠ 0),
    (128, copy && (dev ss src || (ss = 0 && ds = 0 && overlaps src dst len))),
    (192, dev ds dst || (remote && decide (2 ^ 48 ≤ dst)))]

/-- The first failing page of a device range in LPDDR6 (R129); cell memories have no page check. -/
def State.rangePage (s : State) (c : BitVec 6) (write : Bool) (a len : Nat) : Option Nat :=
  if regionOf a = .lpddr then s.pageFail c write true a len else none

/-- A module lies in the slice of a context (R107, R261): slice 0 is this module alone. -/
def State.inSliceOf (s : State) (c m : Nat) : Bool :=
  if s.sliceOf c = 0 then decide (m = s.selfIdx)
  else decide (m = s.selfIdx) || (let e := sget (0 : BitVec 32) (s.bank s.epoch).dest m; bitAt e 0 && bitAt e 1)

/-- FAULT_CONTEXT of a failed page check (R129). -/
def pageFault (a : Nat) : Done := { status := stFaultCtx, r0 := a, detail := 0x01 }

/-- Bytes of a piece of a spread command (R143). -/
def pieceBytes : Nat := 256 * 1024

/-- A command cut into its pieces, numbered from 0; rsync and the ordered-after flag go with the last (R143). -/
def cutPieces (c : MoverCmd) : List MoverCmd :=
  let n := ceilDiv c.len pieceBytes
  (List.range n).map fun j =>
    let last := decide (j + 1 = n)
    { c with piece := j, src := if c.kind = .fill then c.src else c.src + j * pieceBytes, dst := c.dst + j * pieceBytes,
             foreign := c.foreign || decide (j ≠ 0), final := last && decide (1 < n),
             len := min pieceBytes (c.len - j * pieceBytes), rsync := if last then c.rsync else none,
             ordered := last && c.ordered }

/-! ### Movement of bytes (R124, R126, R138) -/

/-- What a read for a mover gave: a byte, or none where its line has a memory error; where it stopped with a tag mismatch or, if it
may not go on, a memory error; the first byte that met a memory error. -/
structure MoveRead where
  st : State
  bytes : List (Option Byte)
  stop : Option (Bool × Nat)
  bad : Option Nat

/-- A read of a range for a mover; with goOn a memory error marks its bytes and the read goes on (R138). With the first tag mismatch the read
stops: nothing is kept of that line, and no later line is read or counted (DESIGN CHOICE, log 172). -/
def State.moveRead (s : State) (c : BitVec 6) (k : BitVec 4) (raw goOn : Bool) (a len : Nat) : MoveRead :=
  (linesOf a len).foldl (fun r ln =>
    if r.stop.isSome then r
    else
      let n := min (a + len) (ln + 64) - max a ln
      match r.st.readLine c k raw ln with
      | (s', .data bs) => { r with st := s', bytes := r.bytes ++ (((bs.take (a + len - ln)).drop (a - ln)).map some) }
      | (s', .bad) =>
        if goOn then { r with st := s', bytes := r.bytes ++ List.replicate n none, bad := r.bad.orElse fun _ => some (max a ln) }
        else { r with st := s', stop := some (false, max a ln) }
      | (s', .stale) => { r with st := s', stop := some (true, max a ln) })
    { st := s, bytes := [], stop := none, bad := none }

/-- A write of a range for a mover: a line with an unknown byte is written poisoned (R138); a memory error of a part line poisons it
and is answered with the first byte it touches. -/
def State.moveWrite (s : State) (c : BitVec 6) (k : BitVec 4) (raw : Bool) (a : Nat) (bs : List (Option Byte)) :
    State × Option Nat :=
  (linesOf a bs.length).foldl (fun r ln =>
    let part := (bs.take (ln + 64 - a)).drop (ln - a)
    let vals := part.map (·.getD 0)
    if part.any (·.isNone) then
      (((r.1.writeLine c k raw ln (a - ln) vals).1).poisonLine ln, r.2)
    else
      match r.1.writeLine c k raw ln (a - ln) vals with
      | (s', true) => (s', r.2.orElse fun _ => some (max a ln))
      | (s', false) => (s', r.2)) (s, none)

/-- How a piece ended: status, result0, detail. -/
abbrev PieceEnd := Nat × Nat × Nat

/-- A memory error's ending (R138, R257). -/
def memEnd (a : Nat) : PieceEnd := (stFaultCtx, a, 0x80)

/-- The bytes of a copy whose ranges overlap, which only a timetabled transfer can have: one whose source lies in the destination is
open, since no rule orders the transfer's reads and writes (DESIGN CHOICE, log 157). -/
def overlapOpen (c : MoverCmd) (bs : List (Option Byte)) : List (Option Byte) :=
  if overlaps c.src c.dst c.len ∧ c.src ≠ c.dst then
    bs.zipIdx.map fun e =>
      let a := c.src + e.2
      if c.dst ≤ a ∧ a < c.dst + c.len then e.1.map fun _ => Config.overlapByte c.src c.dst bs e.2 else e.1
  else bs

/-- A local copy between device addresses, whole: LPDDR6 as destination goes on past memory errors, any other stops (R138). -/
def State.copyLocal (s : State) (c : MoverCmd) : State × PieceEnd :=
  let k := s.ctxSlot c.ctx.toNat
  let goOn := decide (regionOf c.dst = .lpddr)
  let r := s.moveRead c.ctx k false goOn c.src c.len
  let w := r.st.moveWrite c.ctx k false c.dst (overlapOpen c r.bytes)
  match r.stop with
  | some (true, _) => (w.1, (stGenStale, 0, 0))
  | some (false, a) => (w.1, memEnd a)
  | none =>
    match r.bad.orElse fun _ => w.2 with
    | some a => (w.1, memEnd a)
    | none => (w.1, (stOk, 0, 0))

/-- The line of a local copy that a tag mismatch stops. -/
def State.staleLine (s : State) (c : MoverCmd) : Nat :=
  match (s.moveRead c.ctx (s.ctxSlot c.ctx.toNat) false (decide (regionOf c.dst = .lpddr)) c.src c.len).stop with
  | some (_, a) => a
  | none => 0

/-- A fill (R140): the pattern repeated from the first byte. -/
def State.fillLocal (s : State) (c : MoverCmd) : State × PieceEnd :=
  let pat := leBytes 8 c.pattern.toNat
  let bs := (List.range c.len).map fun i => some (pat.getD (i % 8) 0)
  let w := s.moveWrite c.ctx (s.ctxSlot c.ctx.toNat) false c.dst bs
  match w.2 with
  | some a => (w.1, memEnd a)
  | none => (w.1, (stOk, 0, 0))

/-- A copy from device memory to the host; ciphertext unchanged for a confidential context (R126). -/
def State.copyToHost (s : State) (c : MoverCmd) : State × PieceEnd :=
  let k := s.ctxSlot c.ctx.toNat
  let r := s.moveRead c.ctx k true false c.src c.len
  let s1 := r.st.hostWr c.dst (r.bytes.map (·.getD 0))
  match r.stop with
  | some (true, _) => (s1, (stGenStale, 0, 0))
  | some (false, a) => (s1, memEnd a)
  | none => (s1, (stOk, 0, 0))

/-- Host bytes of a piece that have arrived, written at their offset (R126). -/
def State.hostIn (s : State) (c : MoverCmd) (off : Nat) (bs : List Byte) : State × Option Nat :=
  s.moveWrite c.ctx (s.ctxSlot c.ctx.toNat) true (c.dst + off) (bs.map some)

/-! ### The ends of pieces and commands -/

/-- A weight record made or replaced (R265). -/
def putWeight (rs : List WeightRec) (r : WeightRec) : List WeightRec := rs.filter (fun x => x.id ≠ r.id) ++ [r]

/-- The bytes of a weight load in order. -/
def joinGot (got : List (Nat × List Byte)) : List Byte := (sortBy (·.1) got).flatMap (·.2)

/-- A command whose last piece has ended completes (R142, R143). -/
def State.moveDone (s : State) (sq slot : Nat) : State :=
  match s.job sq slot with
  | none => s
  | some j =>
    match j.kind with
    | .move 0 f st r0 de _ got =>
      let c := (s.sq sq).ctx
      let s1 := if f.isNone ∧ fieldNat j.desc 7 0 = 0x04 then
          let w : WeightRec := { id := fieldNat j.desc 319 288, dst := fieldNat j.desc 239 192, len := fieldNat j.desc 287 256,
                                 digest := sha384Nat (joinGot got) }
          s.updCtx c.toNat fun x => { x with weights := putWeight x.weights w }
        else s
      match f with
      | none => s1.finish sq slot { status := stOk }
      | some _ =>
        if st = stFaultCtx then s1.finishFault sq slot { status := st, r0 := r0, detail := de }
        else s1.finish sq slot { status := st, r0 := r0, detail := de }
    | _ => s

/-- A prefetch piece has ended; with the last the trickle entry ends (R177, R178). -/
def State.prefetchDone (s : State) (id piece : Nat) (e : PieceEnd) : State :=
  let upd (t : TrickleEntry) : TrickleEntry :=
    { t with left := t.left - 1,
             fail := if e.1 = stOk then t.fail
               else match t.fail with
                 | some f => if piece < f.1 then some (piece, e) else some f
                 | none => some (piece, e) }
  let s1 : State := { s with tt := { s.tt with running := s.tt.running.map fun x =>
    if x.2.id = id ∧ x.2.prefetch then (x.1, upd x.2) else x } }
  match s1.tt.running.find? fun x => x.2.id = id && x.2.prefetch && x.2.left = 0 with
  | none => s1
  | some x =>
    let s2 : State := { s1 with tt := { s1.tt with running := s1.tt.running.erase x } }
    match x.2.fail with
    | none => s2.finish x.2.sq x.2.slot { status := stOk }
    | some (_, st, r0, de) =>
      if st = stFaultCtx then s2.finishFault x.2.sq x.2.slot { status := st, r0 := r0, detail := de }
      else s2.finish x.2.sq x.2.slot { status := st, r0 := r0, detail := de }

/-- What the end of a piece does to its command. -/
def State.pieceEnds (s : State) (c : MoverCmd) (e : PieceEnd) : State :=
  match c.kind with
  | .prefetch => s.prefetchDone c.trickleId c.piece e
  | .transfer => s
  | _ =>
    (s.updJob c.sq c.slot fun k => match k with
      | .move left f st r0 de acked got =>
        if e.1 = stOk then .move (left - 1) f st r0 de acked got
        else
          match f with
          | some p => if c.piece < p then .move (left - 1) (some c.piece) e.1 e.2.1 e.2.2 acked got
                      else .move (left - 1) f st r0 de acked got
          | none => .move (left - 1) (some c.piece) e.1 e.2.1 e.2.2 acked got
      | k => k).moveDone c.sq c.slot

/-! ### The start of a piece on its mover -/

/-- A command on mover m changed, the one that runs or one that was preempted. -/
def State.updPiece (s : State) (m sq slot piece : Nat) (f : MoverCmd → MoverCmd) : State :=
  let g (c : MoverCmd) : MoverCmd := if c.sq = sq ∧ c.slot = slot ∧ c.piece = piece then f c else c
  s.updMover m fun v => { v with cur := v.cur.map g, pieces := v.pieces.map g }

/-- The command that runs on mover m, while no timetabled transfer has preempted it (R139, R168) and no reset holds the mover. -/
def State.running (s : State) (m : Nat) : Option MoverCmd :=
  let v := s.mover m
  if v.inReset ∨ v.xfer.isSome then none else v.cur

/-- More host reads of a piece, as tags allow (R244). -/
def State.askPiece : Nat → State → Nat → State
  | 0, s, _ => s
  | n + 1, s, m =>
    match s.running m with
    | none => s
    | some c =>
      if c.srcSpace = 1 ∧ c.asked < c.len then
        let k := min 4096 (c.len - c.asked)
        match s.hostRd (c.src + c.asked) k (.piece m c.sq c.slot c.piece c.asked) with
        | none => s
        | some s1 =>
          (s1.updMover m fun v => { v with cur := v.cur.map fun x => { x with asked := x.asked + k } }).askPiece n m
      else s

/-- One packet of a remote copy with the bytes at an offset of a piece (R142): the piece's last carries rsync and the ordered-after flag. -/
def State.sendRemote (s : State) (m : Nat) (c : MoverCmd) (off : Nat) (bs : List Byte) : State :=
  let last := decide (off + bs.length = c.len)
  s.send { cls := clsOpen, dstEp := c.dstEp, dst := c.dstMod, ordered := last && c.ordered, raddr := c.dst + off,
           srcEp := 128 + m, gen := (s.mover m).gen.toNat, ctx := c.ctx, keySlot := s.ctxSlot c.ctx.toNat,
           rsync := c.rsync.getD 0, rsyncEn := last && c.rsync.isSome, payload := bs }
    false (some { sq := c.sq, slot := c.slot, piece := c.piece, last := last })

/-- A weight load writes bytes: the old record of its id is gone (R265). -/
def State.weightWritten (s : State) (c : MoverCmd) : State :=
  match c.kind, s.job c.sq c.slot with
  | .weight, some j => s.updCtx c.ctx.toNat fun x => { x with weights := x.weights.filter fun w => w.id ≠ fieldNat j.desc 319 288 }
  | _, _ => s

/-- Another piece of the same remote copy has packets still to send. -/
def State.otherUnsent (s : State) (c : MoverCmd) : Bool :=
  s.movers.any fun e => (e.2.cur.toList ++ e.2.queue ++ e.2.pieces).any fun x =>
    x.sq = c.sq && x.slot = c.slot && x.piece ≠ c.piece && decide (x.sent < x.len)

/-- Bytes that have come for the command on mover m go on: into packets in the order of their offsets, the last packet of a spread copy after
those of every other piece, so that rsync and the ordered-after flag leave after the last write (R140); to the host; or to their place, once
no line of it lies in channels in reset (R133). -/
def State.drainPiece : Nat → State → Nat → State
  | 0, s, _ => s
  | n + 1, s, m =>
    match s.running m with
    | none => s
    | some c =>
      let took (s : State) (e : Nat × List Byte) (bad : Option Nat) : State :=
        s.updMover m fun v => { v with progress := s.now, cur := v.cur.map fun x =>
          { x with buf := x.buf.filter fun y => y.1 ≠ e.1, sent := x.sent + e.2.length, poisoned := x.poisoned.orElse fun _ => bad } }
      match c.buf.find? fun e => if c.dstSpace = 2 then decide (e.1 = c.sent)
          else c.dstSpace = 1 || !s.memWaits (c.dst + e.1) e.2.length with
      | none => s
      | some e =>
        if c.dstSpace = 2 then
          if c.final ∧ e.1 + e.2.length = c.len ∧ s.otherUnsent c then s
          else (took (s.sendRemote m c e.1 e.2) e none).drainPiece n m
        else if c.dstSpace = 1 then (took (s.hostWr (c.dst + e.1) e.2) e none).drainPiece n m
        else
          let r := (s.weightWritten c).hostIn c e.1 e.2
          (took r.1 e r.2).drainPiece n m

/-- The bytes of a remote copy read from device memory, cut into its packets' payloads (R142); they wait for channels in reset (R133). -/
def State.readPiece (s : State) (m : Nat) : State :=
  match s.running m with
  | none => s
  | some c =>
    if c.srcSpace ≠ 0 ∨ c.dstSpace ≠ 2 ∨ c.arrived ≠ 0 ∨ s.memWaits c.src c.len then s
    else
      let r := s.moveRead c.ctx (s.ctxSlot c.ctx.toNat) false false c.src c.len
      let buf := ((chunks 4096 (r.bytes.map (·.getD 0))).zipIdx).map fun e => (4096 * e.2, e.1)
      let c1 : MoverCmd := { c with buf := buf, arrived := c.len }
      match r.stop with
      | none => r.st.updMover m fun v => { v with cur := some c1 }
      | some (stale, a) =>
        let s1 := buf.foldl (fun s e => s.sendRemote m c e.1 e.2) r.st
        (s1.updMover m fun v => { v with cur := none }).pieceEnds c (if stale then (stGenStale, 0, 0) else memEnd a)

/-- The command on mover m goes on as far as it can: bytes are read, host reads go out, bytes that have come go on. -/
def State.pushPiece (s : State) (m : Nat) : State :=
  match s.running m with
  | none => s
  | some c => ((s.readPiece m).askPiece 1024 m).drainPiece (c.buf.length + c.len / 4096 + 2) m

/-- A piece runs on mover m: it begins, or goes on from where it was preempted. -/
def State.beginPiece (s : State) (m : Nat) (c : MoverCmd) : State :=
  (s.updMover m fun v => { v with cur := some c, progress := s.now }).pushPiece m

/-- The next piece of an idle mover: its ring's commands in order, then pieces of spread commands and prefetches (R139, R143). -/
def State.moverNext (s : State) (m : Nat) : State :=
  let v := s.mover m
  if v.cur.isSome ∨ v.inReset ∨ v.xfer.isSome then s
  else
    match v.queue with
    | c :: rest => (s.updMover m fun v => { v with queue := rest }).beginPiece m c
    | [] =>
      match v.pieces with
      | c :: rest => (s.updMover m fun v => { v with pieces := rest }).beginPiece m c
      | [] => s

/-- A failed transfer stops at its next 4 KiB boundary (R172). How many of its blocks have moved by then is a matter of its speed, and open
(log 175). -/
def State.cutTransfer (s : State) (m : Nat) : State :=
  match (s.mover m).xfer with
  | none => s
  | some c =>
    if !c.stopping ∨ s.memWaits c.src c.len ∨ s.memWaits c.dst c.len then s
    else
      let f := s.free 32
      let s1 := (f.1.copyLocal { c with len := min c.len (4096 * (f.2.toNat % (ceilDiv c.len 4096 + 1))) }).1
      s1.updMover m fun v => { v with xfer := none, progress := s.now }

/-- Movers take up what waited: after a transfer, a group's reset, the packets of another piece. -/
def State.moversGoOn (s : State) : State :=
  forEach (s.movers.map (·.1)) (fun s m => ((s.cutTransfer m).moverNext m).pushPiece m) s

/-- The piece that runs on a mover ends. -/
def State.curEnds (s : State) (m : Nat) (e : PieceEnd) : State :=
  match (s.mover m).cur with
  | none => s
  | some c => ((s.updMover m fun v => { v with cur := none, progress := s.now }).pieceEnds c e).moverNext m

/-- A piece on mover m ends, the running one or one that was preempted. -/
def State.cmdEnds (s : State) (m : Nat) (c : MoverCmd) (e : PieceEnd) : State :=
  if (s.mover m).cur = some c then s.curEnds m e
  else (s.updMover m fun v => { v with pieces := v.pieces.filter fun x => x ≠ c }).pieceEnds c e

/-- A remote copy that lost packets ends so on every mover that runs a piece of it (R324, R356). -/
def State.copyLost (s : State) (sq slot : Nat) (e : PieceEnd) : State :=
  let s0 : State := { s with fab := { s.fab with
    track := s.fab.track.filter fun t => !(t.2.2.sq = sq && t.2.2.slot = slot),
    inject := s.fab.inject.filter fun w => !(w.job.any fun j => j.sq = sq && j.slot = slot) } }
  forEach (List.range 32) (fun s m =>
    let s1 := s.updMover m fun v => { v with queue := v.queue.filter (fun c => !(c.sq = sq && c.slot = slot)),
                                             pieces := v.pieces.filter fun c => !(c.sq = sq && c.slot = slot) }
    let dropped := ((s.mover m).queue ++ (s.mover m).pieces).filter fun c => c.sq = sq && c.slot = slot
    let s2 := forEach dropped (fun s c => s.pieceEnds c e) s1
    match (s2.mover m).cur with
    | some c => if c.sq = sq ∧ c.slot = slot then s2.curEnds m e else s2
    | none => s2) s0

/-- Packets of a remote copy that no acknowledgement has covered, those not sent among them (R356). -/
def State.copyUnacked (s : State) (sq slot : Nat) : Nat × Nat :=
  match s.job sq slot with
  | some j =>
    match j.kind with
    | .move _ _ _ _ _ ac _ => (ac, ceilDiv (fieldNat j.desc 319 288) 4096 - ac)
    | _ => (0, 0)
  | none => (0, 0)

/-- A remote copy behind a fence ends: FENCED where none of its packets was acknowledged, else PARTIAL with the count of those not acknowledged
(R356). -/
def State.copyFenced (s : State) (sq slot : Nat) : State :=
  let n := s.copyUnacked sq slot
  s.copyLost sq slot (if n.1 = 0 then (stFenced, 0, 0) else (stPartial, n.2, 0))

/-- Pieces of remote copies that have sent all end once their last packet is acknowledged (R142, R143). -/
def State.settlePieces (s : State) : State :=
  forEach s.movers (fun s e =>
    forEach ((e.2.cur.toList ++ e.2.pieces).filter fun c => c.dstSpace = 2 && c.sent = c.len && c.lastAcked) (fun s c =>
      s.cmdEnds e.1 c (stOk, 0, 0)) s) s

/-- What the fabric says of remote copies: those that lost packets at injection end (R356), and pieces whose last packet is acknowledged. -/
def State.settleCopies (s : State) : State :=
  (forEach s.fab.cutCopies (fun (s : State) j => s.copyFenced j.sq j.slot) { s with fab := { s.fab with cutCopies := [] } }).settlePieces

/-- A ring command on mover m preempts a piece of another ring's command or of trickle work, which goes back before the other pieces (R143). -/
def Mover.preempt (v : Mover) : Mover :=
  match v.cur with
  | some c => if c.foreign then { v with cur := none, pieces := c :: v.pieces } else v
  | none => v

/-- Pieces handed to the movers: piece 0 to the ring's own mover in its order, the others behind other movers' commands (R143). -/
def State.dispatchPieces (s : State) (n : Nat) (own : Bool) (ps : List MoverCmd) : State :=
  forEach ps (fun s c =>
    let m := (n + c.piece) % 32
    (s.updMover m fun v => if c.piece = 0 ∧ own then { v.preempt with queue := v.queue ++ [c] }
      else { v with pieces := v.pieces ++ [{ c with foreign := true }] }).moverNext m) s

/-! ### COPY, FILL, WEIGHT_LOAD -/

/-- The command of a COPY or FILL descriptor. -/
def moveCmd (copy : Bool) (sq slot : Nat) (c : BitVec 6) (d : Line) : MoverCmd :=
  { kind := if copy then .copy else .fill, sq := sq, slot := slot, ctx := c, srcSpace := slice d 256 2, dstSpace := slice d 258 2,
    src := fieldNat d 191 128, dst := fieldNat d 255 192, len := fieldNat d 319 288, pattern := slice d 128 64,
    dstMod := fieldNat d 322 320 * 64 + fieldNat d 325 323 * 8 + fieldNat d 328 326, dstEp := fieldNat d 343 336,
    rsync := if bitAt d 357 then some (fieldNat d 356 344) else none, ordered := bitAt d 261 }

/-- A COPY or FILL: the checks of R141, R121, R126, R129 and the slice, in that order, then it starts (R142, R143). -/
def State.moveStart (s : State) (copy : Bool) (sq slot : Nat) (d : Line) : State :=
  let ctx := (s.sq sq).ctx
  let c := moveCmd copy sq slot ctx d
  let srcDev := copy && c.srcSpace = 0
  let dstDev := c.dstSpace = 0
  let conf := s.conf ctx.toNat
  match moveBad copy d with
  | some b => s.complete sq slot d (badBit b)
  | none =>
    if srcDev && s.beyond c.src c.len then s.complete sq slot d (badBit 128)
    else if dstDev && s.beyond c.dst c.len then s.complete sq slot d (badBit 192)
    else if conf && ((c.srcSpace = 1 && dstDev && inCells c.dst) || (srcDev && c.dstSpace = 1 && inCells c.src)) then
      s.complete sq slot d { status := stSecDenied }
    else
      match (if srcDev then s.rangePage ctx false c.src c.len else none).orElse
          fun _ => if dstDev then s.rangePage ctx true c.dst c.len else none with
      | some a => s.completeFault sq slot d (pageFault a)
      | none =>
        if c.dstSpace = 2 && !s.inSliceOf ctx.toNat c.dstMod then s.completeFault sq slot d { status := stFaultCtx }
        else
          let ps := if bitAt d 260 then cutPieces c else [c]
          (s.startJob sq slot d (.move ps.length none 0 0 0 0 [])).dispatchPieces sq true ps

/-- The fields of a WEIGHT_LOAD that break R265 and R141, as the lowest bit. -/
def weightBad (d : Line) : Option Nat :=
  let len := fieldNat d 287 256
  let dst := fieldNat d 239 192
  lowestBad [(192, regionOf dst ≠ .lpddr || regionOf (dst + len - 1) ≠ .lpddr), (240, fieldNat d 255 240 ≠ 0),
    (256, len < 4 || len % 4 ≠ 0), (321, fieldNat d 511 321 ≠ 0)]

/-- The weight ids of a context: those of its records and of its loads that have started, each of which can still make a record (R265). -/
def State.weightIds (s : State) (c : Nat) : List Nat :=
  ((s.ctx c).weights.map (·.id) ++ (s.jobs.filter fun j => fieldNat j.desc 7 0 = 0x04 && (s.sq j.sq).ctx.toNat = c).map
    fun j => fieldNat j.desc 319 288).eraseDups

/-- WEIGHT_LOAD: as a COPY with src_space host, into LPDDR6, with the digest recorded (R265). -/
def State.weightStart (s : State) (sq slot : Nat) (d : Line) : State :=
  let ctx := (s.sq sq).ctx
  let dst := fieldNat d 239 192
  let len := fieldNat d 287 256
  let ws := s.weightIds ctx.toNat
  match weightBad d with
  | some b => s.complete sq slot d (badBit b)
  | none =>
    if s.beyond dst len then s.complete sq slot d (badBit 192)
    else
      match s.rangePage ctx true dst len with
      | some a => s.completeFault sq slot d (pageFault a)
      | none =>
        if 1024 ≤ ws.length ∧ !ws.contains (fieldNat d 319 288) then s.complete sq slot d { status := stRejected }
        else
          let c : MoverCmd := { kind := .weight, sq := sq, slot := slot, ctx := ctx, srcSpace := 1, src := fieldNat d 191 128,
                                dst := dst, len := len }
          let ps := if bitAt d 320 then cutPieces c else [c]
          (s.startJob sq slot d (.move ps.length none 0 0 0 0 [])).dispatchPieces sq true ps

/-- COPY (R140 to R143). -/
def execCopy (sq : Fin 256) : State → Host.Outcome State Fault Refusal :=
  act fun s => s.startRow sq 0x01 (fun _ => true) fun s slot d => s.moveStart true sq slot d

/-- FILL (R140 to R143). -/
def execFill (sq : Fin 256) : State → Host.Outcome State Fault Refusal :=
  act fun s => s.startRow sq 0x02 (fun _ => true) fun s slot d => s.moveStart false sq slot d

/-- WEIGHT_LOAD (R265). -/
def execWeightLoad (sq : Fin 256) : State → Host.Outcome State Fault Refusal :=
  act fun s => s.startRow sq 0x04 (fun _ => true) fun s slot d => s.weightStart sq slot d

/-- MOVER_COMMAND_COMPLETE (R142): the local command or piece that runs on the mover has its last write accepted; it completes and
the mover takes the next. One that waits for host data, for the link, for acknowledgements, for channels in reset
or behind a timetabled transfer (R139) goes on. -/
def execMoverCommandComplete (mover : Fin 32) : State → Host.Outcome State Fault Refusal :=
  act fun s =>
    match s.running mover with
    | none => s
    | some c =>
      if c.dstSpace = 2 then s
      else if (c.kind ≠ .fill ∧ c.srcSpace = 0 ∧ s.memWaits c.src c.len) ∨ (c.dstSpace = 0 ∧ s.memWaits c.dst c.len) then s
      else if c.dstSpace = 1 ∧ !(s.hst.up && !s.hst.inReset) then s
      else if c.srcSpace = 1 then
        if c.arrived = c.len ∧ c.buf.isEmpty then
          s.curEnds mover (match c.poisoned with
            | some a => memEnd a
            | none => (stOk, 0, 0))
        else s
      else
        let r := if c.kind = .fill then s.fillLocal c else if c.dstSpace = 1 then s.copyToHost c else s.copyLocal c
        r.1.curEnds mover r.2

/-- Bytes of a host read for a piece on mover m: a weight load keeps them for its digest (R265); they go to their place or into packets (R140),
and further reads are asked. -/
def State.pieceData (s : State) (m sq slot piece off : Nat) (bs : List Byte) : State :=
  let s1 := if (s.job sq slot).any fun j => fieldNat j.desc 7 0 = 0x04 then
      s.updJob sq slot fun k => match k with
        | .move l f st r0 de ac got => .move l f st r0 de ac (got ++ [(piece * pieceBytes + off, bs)])
        | k => k
    else s
  (s1.updPiece m sq slot piece fun x => { x with arrived := x.arrived + bs.length, buf := x.buf ++ [(off, bs)] }).moversGoOn

end Sys2Proof.Machine
end

