-- ==== Sys2Proof/Machine/Issue.lean ====
section
/-! DEFINITION. The issue of bundles (R64, R88 to R91, R115, R116): a bundle's registers are read and its precise faults found as its
first slot's command comes; each slot then takes effect by its own command, and the thread goes on behind the last one. -/

namespace Sys2Proof.Machine

/-- An A register as read: A0 reads 0 (R53). -/
def regA (m : Sparse (BitVec 64)) (i : Nat) : BitVec 64 := if i = 0 then 0 else sget 0 m i

/-! ### Precise faults (R93, R54, R82, R116) -/

/-- The address of line i of the LD slot's access (R93). -/
def ldAddr (a : Sparse (BitVec 64)) (x i : Nat) : Nat :=
  let stride : BitVec 64 := if sf x 16 5 = 0 then 64 else regA a (sf x 16 5)
  (regA a (sf x 11 5) + BitVec.ofInt 64 (ldOff x) + BitVec.ofNat 64 i * stride).toNat

/-- Bytes of one access of the LD slot, and the multiple its address must be. -/
def ldUnit (op : Nat) : Nat := if op = 3 ∨ op = 4 then 8 else if op = 5 ∨ op = 6 then 16 else 64

/-- The precise fault of the LD slot: code and address (R93). -/
def ldFault (a : Sparse (BitVec 64)) (x : Nat) : Option (Nat × Nat) :=
  if sf x 0 6 = 0 then none
  else
    let n := if sf x 0 6 ≤ 2 then sf x 21 4 + 1 else 1
    (List.range n).findSome? fun i =>
      let ad := ldAddr a x i
      if 0x1FFFFF < ad then some (0x01, ad) else if ad % ldUnit (sf x 0 6) ≠ 0 then some (0x02, ad) else none

/-- A window register or accumulator bank of the other thread (R54). -/
def otherWin (t : Thread) (w : Nat) : Bool :=
  match t with
  | .fg => 6 ≤ w
  | .tr => w < 6

def otherAcc (t : Thread) (k : Nat) : Bool :=
  match t with
  | .fg => k = 2
  | .tr => k ≠ 2

/-- The window fault at issue (R35, R54, R95). -/
def mxFault (t : Thread) (win : Sparse (BitVec 32)) (x : Nat) : Bool :=
  let op := sf x 0 6
  if op = 0 then false
  else
    otherWin t (sf x 13 3) || (op ≠ 5 && (otherAcc t (sf x 11 2) || winBad (sget 0 win (sf x 13 3)) (op = 2)))

/-- The index of the sync object that the CT slot names. -/
def ctObj (a : Sparse (BitVec 64)) (x : Nat) : Nat := (regA a (sf x 11 5) + BitVec.ofNat 64 (ctImm x)).toNat

/-- A sync object's device address, the address of its fault (R117, R257; DEDUCED, log 20). -/
def objDetail (i : Nat) : Nat := 0xF10000000000 + 8 * i

/-- The precise fault of a bundle as it issues: code and detail; LD, then MX, then CT (DESIGN CHOICE, log 21). -/
def State.preciseFault (s : State) (c : Nat) (t : Thread) (b : BitVec 256) : Option (Nat × Nat) :=
  let th := s.th c t
  let x := slotOf b .ct
  let op := slotOp b .ct
  (ldFault th.a (slotOf b .ld)).orElse fun _ =>
    if mxFault t (s.cell c).win (slotOf b .mx) then some (0x04, 0)
    else if (op = 0x0C ∨ op = 0x0D) ∧ !s.objOk (ctObj th.a x) th.ctx then some (0x01, objDetail (ctObj th.a x))
    else if op = 0x0F then some (0x08, ctImm x % 2 ^ 16)
    else none

/-! ### The start and end of a bundle's issue -/

/-- A queue that a slot of the bundle needs is full: the bundle stalls (R71, R78). -/
def State.stalled (s : State) (c : Nat) (b : BitVec 256) : Bool :=
  let x := s.cell c
  (slotOp b .mx ≠ 0 && slotOp b .mx ≠ 5 && 2 ≤ x.mxq.length) || (8 ≤ slotOp b .mv && 16 ≤ x.mvq.length)

/-- The bundle at the thread's pc issues, where it may: its registers are read, or its precise fault is raised. -/
def State.beginIssue (s : State) (c : Nat) (t : Thread) : Option State :=
  let th := s.th c t
  let b := s.bundle c t
  if th.issue.isSome then some s
  else if !s.canIssue c t || (isWait (slotOp b .ct) && !th.released) || s.stalled c b then none
  else
    match s.preciseFault c t b with
    | some (code, detail) => some (s.progFault c t th.pc code detail)
    | none =>
      let left := if th.released then slotsOf b &&& 0x0F#5 else slotsOf b
      some ((s.noteIssue c t).updTh c t fun th => { th with
        issue := some { left := left, a := th.a, v := th.v, p := th.p, next := th.pc + 1 } })

/-- The bundle has issued whole when no slot is left: the thread goes on, or an imprecise fault of the bundle is raised. -/
def State.endIssue (s : State) (c : Nat) (t : Thread) : State :=
  match (s.th c t).issue with
  | none => s
  | some i =>
    if i.left = 0 then
      let s1 := s.updTh c t fun th => { th with issue := none, released := false, pc := i.next }
      match i.fault with
      | some (b, code, detail) => s1.progFault c t b code detail
      | none => s1.ready c t
    else s

/-- An imprecise fault of a thread (R116): at once, or behind the bundle that is issuing. -/
def State.impFault (s : State) (c : Nat) (t : Thread) (bundle code detail : Nat) : State :=
  match (s.th c t).issue with
  | none => s.progFault c t bundle code detail
  | some i =>
    s.updTh c t fun th => { th with issue := some { i with fault := i.fault.orElse fun _ => some (bundle, code, detail) } }

/-- The slot has taken effect. -/
def State.slotDone (s : State) (c : Nat) (t : Thread) (k : Slot) : State :=
  let bit := 1#5 <<< k.idx
  (s.updTh c t fun th => { th with issue := th.issue.map fun i => { i with left := i.left &&& ~~~bit } }).endIssue c t

/-- A slot of the bundle a thread stands at takes effect, where it holds the operation: f of the registers as they stood at issue
and of the slot's bits. -/
def State.slotRow (s : State) (c : Nat) (t : Thread) (k : Slot) (op : Nat) (f : State → Issue → Nat → State) : State :=
  let s0 := s.ready c t
  let b := s0.bundle c t
  if !(s0.th c t).running && (s0.th c t).issue.isNone || slotOp b k ≠ op then s0
  else
    match s0.beginIssue c t with
    | none => s0
    | some s1 =>
      match (s1.th c t).issue with
      | none => s1
      | some i => if (i.left >>> k.idx) &&& 1 = 1 then (f s1 i (slotOf b k)).slotDone c t k else s0

/-- Registers written: A0 discards (R53). -/
def State.putA (s : State) (c : Nat) (t : Thread) (i : Nat) (v : BitVec 64) : State :=
  if i = 0 then s else s.updTh c t fun th => { th with a := sset 0 th.a i v }

def State.putV (s : State) (c : Nat) (t : Thread) (i : Nat) (v : BitVec 2048) : State :=
  s.updTh c t fun th => { th with v := sset 0 th.v i v }

def State.putP (s : State) (c : Nat) (t : Thread) (i : Nat) (v : BitVec 128) : State :=
  s.updTh c t fun th => { th with p := sset 0 th.p i v }

/-! ### Waits (R91) -/

/-- A wait is over: the bundle that carries it issues with its other slots, behind a full queue as soon as that has room. A thread that
may not issue now keeps its wait, which a later release ends. -/
def State.release_ (s : State) (c : Nat) (t : Thread) (late : Bool) : State :=
  let s1 := s.updTh c t fun th => { th with wait := .none, released := true, late := th.late || late }
  if s1.canIssue c t then
    match s1.beginIssue c t with
    | none => s1
    | some s2 => s2.endIssue c t
  else s

/-- The step base as a wait of the first bundle of open work begins: a TWR, which counts from it and issues only when released, takes the
tick at which it begins to wait (R114; DESIGN CHOICE, log 163). -/
def ThreadSt.waitBase (th : ThreadSt) (op tick : Nat) : ThreadSt :=
  if op = 0x09 ∧ th.fresh then { th with stepBase := BitVec.ofNat 64 tick, fresh := false } else th

/-- A wait operation begins, where the thread stands at it and may issue: w says from the slot's bits what the wait is. -/
def State.waitRow (s : State) (c : Nat) (t : Thread) (op : Nat) (w : State → ThreadSt → Nat → State) : State :=
  let s0 := s.ready c t
  let th := s0.th c t
  if slotOp (s0.bundle c t) .ct ≠ op ∨ th.issue.isSome ∨ th.released ∨ !s0.canIssue c t then s0
  else
    let s1 := s0.updTh c t fun th => th.waitBase op s.time.tick
    w s1 (s1.th c t) (slotOf (s0.bundle c t) .ct)

/-- A tick wait: it releases at once where its tick has come, late where that has passed (R16, R62). -/
def State.tickWait (s : State) (c : Nat) (t : Thread) (aw : Nat) : State :=
  let s1 := s.updTh c t fun th => { th with wait := .tick aw }
  if s.time.tick < aw then s1 else s1.release_ c t (decide (aw < s.time.tick))

/-- The conditions of SETTLE that the mask selects hold (R110). -/
def CellSt.settled (x : CellSt) (t : Thread) (mask : Nat) : Bool :=
  (List.range 3).all (fun k => !mask.testBit k || x.mxq.all fun m => m.thread ≠ t || m.acc.toNat ≠ k)
    && (!mask.testBit 3 || x.mvq.all fun e => e.thread ≠ t || e.kind ≠ .dma)
    && (!mask.testBit 4 || x.mvq.all fun e => e.thread ≠ t || e.kind = .dma)

end Sys2Proof.Machine
end

