-- ==== Sys2Proof/Machine/Slots.lean ====
section
/-! DEFINITION. The LD slot, the arithmetic of the MV slot and the CT slot (R92, R93, R104, R108 to R110, R115) with the releases of waits. -/

namespace Sys2Proof.Machine

/-! ### LD (R92, R93) -/

/-- LDL: line i to bytes 64 (i mod 4) of V[r + i / 4]. -/
def State.doLdl (s : State) (c : Nat) (t : Thread) (i : Issue) (x : Nat) : State :=
  forEach (List.range (sf x 21 4 + 1)) (fun s k =>
    let r := sf x 6 5 + k / 4
    let line := s.cellNat c (ldAddr i.a x k) 64
    s.putV c t r (putField (sget 0 (s.th c t).v r) (512 * (k % 4)) 512 line)) s

/-- STL: the same positions stored. -/
def State.doStl (s : State) (c : Nat) (i : Issue) (x : Nat) : State :=
  forEach (List.range (sf x 21 4 + 1)) (fun s k =>
    let v := sget 0 i.v (sf x 6 5 + k / 4)
    s.cellPut c (ldAddr i.a x k) (leBytes 64 (v.toNat / 2 ^ (512 * (k % 4))))) s

/-- LDL (R92). -/
def execLdl (c : Fin 128) (t : Thread) : State → Host.Outcome State Fault Refusal :=
  act fun s => s.slotRow c t .ld 0x01 fun s i x => s.doLdl c t i x

/-- STL (R92). -/
def execStl (c : Fin 128) (t : Thread) : State → Host.Outcome State Fault Refusal :=
  act fun s => s.slotRow c t .ld 0x02 fun s i x => s.doStl c i x

/-- LDA (R92): 8 bytes into A[r]. -/
def execLda (c : Fin 128) (t : Thread) : State → Host.Outcome State Fault Refusal :=
  act fun s => s.slotRow c t .ld 0x03 fun s i x => s.putA c t (sf x 6 5) (BitVec.ofNat 64 (s.cellNat c (ldAddr i.a x 0) 8))

/-- STA (R92): A[r] stored. -/
def execSta (c : Fin 128) (t : Thread) : State → Host.Outcome State Fault Refusal :=
  act fun s => s.slotRow c t .ld 0x04 fun s i x => s.cellPut c (ldAddr i.a x 0) (leBytes 8 (regA i.a (sf x 6 5)).toNat)

/-- LDP (R92): 16 bytes into P[r]. -/
def execLdp (c : Fin 128) (t : Thread) : State → Host.Outcome State Fault Refusal :=
  act fun s => s.slotRow c t .ld 0x05 fun s i x => s.putP c t (sf x 6 3) (BitVec.ofNat 128 (s.cellNat c (ldAddr i.a x 0) 16))

/-- STP (R92): P[r] stored. -/
def execStp (c : Fin 128) (t : Thread) : State → Host.Outcome State Fault Refusal :=
  act fun s => s.slotRow c t .ld 0x06 fun s i x => s.cellPut c (ldAddr i.a x 0) (leBytes 16 (sget 0 i.p (sf x 6 3)).toNat)

/-! ### MV arithmetic (R104) -/

/-- The first source of the MV slot. -/
def mvS (i : Issue) (x : Nat) : BitVec 64 := regA i.a (sf x 11 5)

/-- The second source of the register forms. -/
def mvT (i : Issue) (x : Nat) : BitVec 64 := regA i.a (sf x 16 5)

/-- ALI. -/
def execAli (c : Fin 128) (t : Thread) : State → Host.Outcome State Fault Refusal :=
  act fun s => s.slotRow c t .mv 0x01 fun s _ x => s.putA c t (sf x 6 5) (mvImm x)

/-- AADDI, modulo 2^64. -/
def execAaddi (c : Fin 128) (t : Thread) : State → Host.Outcome State Fault Refusal :=
  act fun s => s.slotRow c t .mv 0x02 fun s i x => s.putA c t (sf x 6 5) (mvS i x + mvImm x)

/-- AADD. -/
def execAadd (c : Fin 128) (t : Thread) : State → Host.Outcome State Fault Refusal :=
  act fun s => s.slotRow c t .mv 0x03 fun s i x => s.putA c t (sf x 6 5) (mvS i x + mvT i x)

/-- AAND. -/
def execAand (c : Fin 128) (t : Thread) : State → Host.Outcome State Fault Refusal :=
  act fun s => s.slotRow c t .mv 0x04 fun s i x => s.putA c t (sf x 6 5) (mvS i x &&& mvT i x)

/-- ASHL by imm[5:0]. -/
def execAshl (c : Fin 128) (t : Thread) : State → Host.Outcome State Fault Refusal :=
  act fun s => s.slotRow c t .mv 0x05 fun s i x => s.putA c t (sf x 6 5) (mvS i x <<< sf x 16 6)

/-- ASHR by imm[5:0], arithmetic. -/
def execAshr (c : Fin 128) (t : Thread) : State → Host.Outcome State Fault Refusal :=
  act fun s => s.slotRow c t .mv 0x06 fun s i x => s.putA c t (sf x 6 5) ((mvS i x).sshiftRight (sf x 16 6))

/-! ### Branches (R108) -/

/-- The first source of the CT slot. -/
def ctS (i : Issue) (x : Nat) : BitVec 64 := regA i.a (sf x 11 5)

/-- The second source of the CT slot. -/
def ctT (i : Issue) (x : Nat) : BitVec 64 := regA i.a (sf x 16 5)

/-- The thread goes on at the branch target where the branch is taken. -/
def State.branch (s : State) (c : Nat) (t : Thread) (x : Nat) (taken : Bool) : State :=
  if taken then s.updTh c t fun th => { th with issue := th.issue.map fun i => { i with next := ctImm x % 4096 } } else s

/-- BR. -/
def execBr (c : Fin 128) (t : Thread) : State → Host.Outcome State Fault Refusal :=
  act fun s => s.slotRow c t .ct 0x01 fun s _ x => s.branch c t x true

/-- BZ. -/
def execBz (c : Fin 128) (t : Thread) : State → Host.Outcome State Fault Refusal :=
  act fun s => s.slotRow c t .ct 0x02 fun s i x => s.branch c t x (ctS i x = 0)

/-- BNZ. -/
def execBnz (c : Fin 128) (t : Thread) : State → Host.Outcome State Fault Refusal :=
  act fun s => s.slotRow c t .ct 0x03 fun s i x => s.branch c t x (ctS i x ≠ 0)

/-- BLT, signed. -/
def execBlt (c : Fin 128) (t : Thread) : State → Host.Outcome State Fault Refusal :=
  act fun s => s.slotRow c t .ct 0x04 fun s i x => s.branch c t x ((ctS i x).slt (ctT i x))

/-- BGE, signed. -/
def execBge (c : Fin 128) (t : Thread) : State → Host.Outcome State Fault Refusal :=
  act fun s => s.slotRow c t .ct 0x05 fun s i x => s.branch c t x (!(ctS i x).slt (ctT i x))

/-! ### Tick waits, STEP, SETTLE (R62, R108 to R110) -/

/-- TWA: waits for tick A[as]. -/
def execTwa (c : Fin 128) (t : Thread) : State → Host.Outcome State Fault Refusal :=
  act fun s => s.waitRow c t 0x08 fun s th x => s.tickWait c t (regA th.a (sf x 11 5)).toNat

/-- TWR: waits for tick step_base + imm. -/
def execTwr (c : Fin 128) (t : Thread) : State → Host.Outcome State Fault Refusal :=
  act fun s => s.waitRow c t 0x09 fun s th x => s.tickWait c t (th.stepBase + BitVec.ofNat 64 (ctImm x)).toNat

/-- TICK_WAIT_RELEASE (R16, R62, R63): at the awaited tick; the late flag where the release comes one or more ticks after. -/
def execTickWaitRelease (c : Fin 128) : State → Host.Outcome State Fault Refusal :=
  act fun s =>
    match (s.th c .fg).wait with
    | .tick aw =>
      if s.compute && !(s.cell c).switching && decide (aw ≤ s.time.tick) then s.release_ c .fg (decide (aw < s.time.tick)) else s
    | _ => s

/-- The step boundary of a timetabled entry feeds overrun detection with its late flag (R62, R171). -/
def State.stepBoundary (s : State) (c : Nat) (t : Thread) : State :=
  match (s.th c t).work with
  | some (.entry inst _ period) => if (s.th c t).late then s.noteKind inst period fun k => { k with lateStep := true } else s
  | _ => s

/-- STEP: A[ad] takes the late flag, the flag clears, step_base goes on by imm (R108, R109). -/
def execStepOp (c : Fin 128) (t : Thread) : State → Host.Outcome State Fault Refusal :=
  act fun s => s.slotRow c t .ct 0x0A fun s _ x =>
    let late := (s.th c t).late
    ((s.stepBoundary c t).putA c t (sf x 6 5) (if late then 1 else 0)).updTh c t fun th =>
      { th with late := false, stepBase := th.stepBase + BitVec.ofNat 64 (ctImm x) }

/-- SETTLE (R110): it releases at once where its conditions hold. -/
def execSettle (c : Fin 128) (t : Thread) : State → Host.Outcome State Fault Refusal :=
  act fun s => s.waitRow c t 0x0B fun s _ x =>
    let mask := ctImm x % 32
    let s1 := s.updTh c t fun th => { th with wait := .settle (BitVec.ofNat 5 mask) }
    if (s.cell c).settled t mask then s1.release_ c t false else s1

/-- SETTLE_RELEASE (R110). -/
def execSettleRelease (c : Fin 128) (t : Thread) : State → Host.Outcome State Fault Refusal :=
  act fun s =>
    match (s.th c t).wait with
    | .settle mask => if s.compute && (s.cell c).settled t mask.toNat then s.release_ c t false else s
    | _ => s

/-! ### Sync objects (R82, R83, R108) -/

/-- SRD: A[ad] takes the whole object. -/
def execSrd (c : Fin 128) (t : Thread) : State → Host.Outcome State Fault Refusal :=
  act fun s => s.slotRow c t .ct 0x0C fun s i x => s.putA c t (sf x 6 5) (s.obj (ctObj i.a x)).word

/-- SADD: A[at][31:0], signed, is added; A[ad] takes the old object. -/
def execSadd (c : Fin 128) (t : Thread) : State → Host.Outcome State Fault Refusal :=
  act fun s => s.slotRow c t .ct 0x0D fun s i x =>
    let o := ctObj i.a x
    (s.putA c t (sf x 6 5) (s.obj o).word).syncAdd o (signed 32 (ctT i x).toNat)

/-- SWAIT: waits until the count is at least A[at], signed; an aborted object raises an abort fault (R83). -/
def execSwait (c : Fin 128) (t : Thread) : State → Host.Outcome State Fault Refusal :=
  act fun s => s.waitRow c t 0x0E fun s th x =>
    let o := ctObj th.a x
    let target := (regA th.a (sf x 16 5)).toInt
    if !s.objOk o th.ctx then s.progFault c t th.pc 0x01 (objDetail o)
    else if (s.obj o).aborted then s.progFault c t th.pc 0x07 (objDetail o)
    else
      let sat := decide (target ≤ (s.obj o).count)
      let s1 := s.updTh c t fun th => { th with wait := .sync o target sat false }
      if sat then s1.release_ c t false else s1

/-- SYNC_WAIT_RELEASE (R83, R267): a wait whose condition held releases; an abort that came before faults a thread's context, or
completes the descriptor with FAULT_CONTEXT. -/
def execSyncWaitRelease (w : Waiter) : State → Host.Outcome State Fault Refusal :=
  act fun s =>
    match w with
    | .thread c t =>
      match (s.th c t).wait with
      | .sync o _ sat ab =>
        if !s.compute then s
        else if ab then s.progFault c t (s.th c t).pc 0x07 (objDetail o)
        else if sat then s.release_ c t false
        else s
      | _ => s
    | .desc sq slot =>
      match s.syncWaiter sq slot.toNat with
      | none => s
      | some v =>
        if v.aborted then s.endSyncWait sq slot.toNat abortDone
        else if v.satisfied then s.endSyncWait sq slot.toNat { status := stOk }
        else s

/-! ### TRAP, HALT and the end of work (R108, R115, R117) -/

/-- TRAP: a trap fault with detail imm[15:0], before the bundle takes effect in any slot. -/
def execTrap (c : Fin 128) (t : Thread) : State → Host.Outcome State Fault Refusal :=
  act fun s => s.slotRow c t .ct 0x0F fun s _ _ => s

/-- HALT: the issue of the thread stops; the late flag it finds is a late step (R171). -/
def execHalt (c : Fin 128) (t : Thread) : State → Host.Outcome State Fault Refusal :=
  act fun s => s.slotRow c t .ct 0x10 fun s _ _ => (s.stepBoundary c t).updTh c t fun th => { th with running := false, halted := true }

end Sys2Proof.Machine
end

