-- ==== Sys2Proof/Machine/CellDma.lean ====
section
/-! DEFINITION. The MV queue of a cell (R78 to R80, R104 to R107, R247, R408, R509): DMA commands, SENDs, and the FERRY operation's
place in the queue. -/

namespace Sys2Proof.Machine

/-! ### Descriptors -/

def dmaSrc (d : Line) : Nat := fieldNat d 47 0
def dmaDst (d : Line) : Nat := fieldNat d 111 64
def dmaLen (d : Line) : Nat := fieldNat d 144 128
def dmaRows (d : Line) : Nat := fieldNat d 172 160
def dmaSync (d : Line) : Nat := fieldNat d 268 256
def dmaSyncEn (d : Line) : Bool := bitAt d 269

/-- The address of row r of a side: base and signed pitch. -/
def dmaRow (base pitch r : Nat) : Int := (base : Int) + (r : Int) * signed 32 pitch

/-- The source and the destination address of row r. -/
def dmaSrcRow (d : Line) (r : Nat) : Int := dmaRow (dmaSrc d) (fieldNat d 223 192) r
def dmaDstRow (d : Line) (r : Nat) : Int := dmaRow (dmaDst d) (fieldNat d 255 224) r

/-- The last case of R80: lengths, counts and reserved fields (DEDUCED, log 100). -/
def dmaMalformed (d : Line) : Bool :=
  dmaLen d < 4 || 65536 < dmaLen d || dmaLen d % 4 ≠ 0 || dmaRows d = 0 || 4096 < dmaRows d
    || fieldNat d 63 48 ≠ 0 || fieldNat d 127 112 ≠ 0 || fieldNat d 159 145 ≠ 0 || fieldNat d 191 173 ≠ 0 || fieldNat d 511 270 ≠ 0

/-- A run lies in the memory of logical cell c. -/
def ownRun (c a len : Nat) : Bool := inCells a && inCells (a + len - 1) && cellOf a = c && cellOf (a + len - 1) = c

/-- The host bus address of a run in a host window of a context (R247). -/
def State.windowAddr (s : State) (ctx : BitVec 6) (a len : Nat) : Option Nat :=
  let w := (a - 0xE00000000000) / 2 ^ 36
  let off := (a - 0xE00000000000) % 2 ^ 36
  match (s.ctx ctx.toNat).windows[w]? with
  | some v => if off + len ≤ v.len then some (v.base + off) else none
  | none => none

/-- The module is a twin partner (R302). -/
def State.twin (s : State) : Bool := s.fab.pairUser = 2

/-- Cell DMA of a context may reach the run as source or destination (R11, R12, R80, R121, R129, R247, R408). -/
def State.dmaReach (s : State) (ctx : BitVec 6) (write : Bool) (a : Int) (len : Nat) : Bool :=
  let n := a.toNat
  let last := n + len - 1
  decide (0 ≤ a) && decide (regionOf n = regionOf last) &&
    (match regionOf n with
      | .lpddr => decide (n + len ≤ s.capacity) && (s.pageFail ctx write false n len).isNone
      | .hostWin => (s.windowAddr ctx n len).isSome
      | .cellMem => inCells last
      | .pair => write && s.twin
      | _ => false)

/-- The address fault of a DMA command as it enters the queue (R80, R105): the descriptor's own case first, then its rows in order,
source before destination, then the sync object. Where neither address lies in the cell's own memory, the fault names the source
(DESIGN CHOICE, log 165). -/
def State.dmaBad (s : State) (c : Nat) (ctx : BitVec 6) (addr : Nat) (d : Line) : Option Nat :=
  if dmaMalformed d then some addr
  else
    let rows := List.range (dmaRows d)
    let len := dmaLen d
    let lowOf (a : Int) : Nat := (a % (2 ^ 48 : Int)).toNat
    let own (f : Nat → Int) : Bool := rows.all fun r => ownRun c (f r).toNat len && decide (0 ≤ f r)
    let bad (write : Bool) (f : Nat → Int) : Option Nat := (rows.find? fun r => !s.dmaReach ctx write (f r) len).map fun r => lowOf (f r)
    (bad false (dmaSrcRow d)).orElse fun _ => (bad true (dmaDstRow d)).orElse fun _ =>
      if !own (dmaSrcRow d) && !own (dmaDstRow d) then some (dmaSrc d)
      else if dmaSyncEn d && !s.objOk (dmaSync d) ctx then some (dmaSync d)
      else none

/-! ### The pair window (R408, R509) -/

/-- The module index at the other end of the pair port, as its partner record names it (R284). -/
def State.pairIdx (s : State) : Nat :=
  let p := (s.port 6).partner
  modIdx (fieldNat p 226 224, fieldNat p 229 227, fieldNat p 232 230)

/-- The nonce of a pair-window message: the count, source and destination modules, stream 0b11 and the key generation (R508, R509). -/
def pairNonce (count src dst : Nat) (gen : BitVec 6) : List Byte :=
  leBytes 12 (count + src * 2 ^ 64 + dst * 2 ^ 73 + 3 * 2 ^ 85 + gen.toNat * 2 ^ 87)

/-- The additional data of a pair-window message: its address, context and key slot (DESIGN CHOICE, log 32). -/
def pairAad (addr : Nat) (ctx : BitVec 6) (k : BitVec 4) : List Byte := leBytes 8 (addr + ctx.toNat * 2 ^ 48 + k.toNat * 2 ^ 54)

/-- A pair-window message put on the pair link (R285, R408). -/
def State.pairPut (s : State) (w : PairWrite) : State :=
  ({ s with fab := { s.fab with pairTx := s.fab.pairTx ++ [w] } }).pairCarry Config.pairWindowType
    (leBytes 8 (w.addr.toNat + w.ctx.toNat * 2 ^ 48 + w.keySlot.toNat * 2 ^ 54 + w.keyGen.toNat * 2 ^ 58) ++ leBytes 8 w.count.toNat
      ++ leBytes 16 w.tag.toNat ++ w.data)

/-- One pair-window message of at most 4,096 bytes goes out, protected for a context with a key slot. -/
def State.pairSend (s : State) (ctx : BitVec 6) (addr : Nat) (bs : List Byte) : State :=
  let k := s.ctxSlot ctx.toNat
  let gen := s.slotGen k
  let a : BitVec 48 := BitVec.ofNat 48 addr
  if k = 0 then s.pairPut { ctx := ctx, addr := a, data := bs, keySlot := 0, keyGen := 0, count := 0, tag := 0 }
  else
    let n := (s.key k.toNat).pairCount
    let iv := pairNonce n s.selfIdx s.pairIdx gen
    let ct := gcmText (s.linkKey k) iv bs
    let tag := BitVec.ofNat 128 (leNat (gcmTag (s.linkKey k) iv (pairAad addr ctx k) ct))
    ({ s with keys := supd {} s.keys k.toNat fun x => { x with pairCount := x.pairCount + 1 } }).pairPut
      { ctx := ctx, addr := a, data := ct, keySlot := k, keyGen := gen, count := BitVec.ofNat 64 n, tag := tag }

/-! ### Moving the bytes (R79, R124, R138) -/

/-- A cell cannot be reached: it is in reset or has failed (R84). -/
def State.cellAway (s : State) (n : Nat) : Bool := (s.cell n).inReset || (s.cell n).failed

/-- The first byte of a run that lies in a failing line. -/
def firstIn (a ln : Nat) : Nat := max a ln

/-- The first byte of a run in the memory of another logical cell that is away (R80). -/
def State.awayByte (s : State) (c a len : Nat) : Option Nat :=
  let last := cellOf (a + len - 1)
  if cellOf a ≠ c ∧ s.cellAway (cellOf a) then some a
  else if last ≠ c ∧ s.cellAway last then some (max a (cellAddr last 0))
  else none

/-- The bytes of a source run, or the fault that its read raises: code and address. -/
def State.dmaRead (s : State) (c : Nat) (ctx : BitVec 6) (a len : Nat) : State × Except (Nat × Nat) (List Byte) :=
  if regionOf a = .cellMem then
    match s.awayByte c a len with
    | some b => (s, .error (0x01, b))
    | none => (s, .ok (memGet s.mem a len))
  else
    let r := s.readBytes ctx (s.ctxSlot ctx.toNat) false a len
    match r.fail with
    | none => (r.st, .ok r.bytes)
    | some (true, ln) => (r.st, .error (0x01, firstIn a ln))
    | some (false, ln) => (r.st, .error (0x80, firstIn a ln))

/-- Bytes written at a destination run, with the fault that this raises. -/
def State.dmaWrite (s : State) (c : Nat) (ctx : BitVec 6) (a : Nat) (bs : List Byte) : State × Option (Nat × Nat) :=
  match regionOf a with
  | .cellMem =>
    match s.awayByte c a bs.length with
    | some b => (s, some (0x01, b))
    | none => ({ s with mem := memPut s.mem a bs }, none)
  | .hostWin =>
    match s.windowAddr ctx a bs.length with
    | some h => (s.hostWr h bs, none)
    | none => (s, some (0x01, a))
  | .pair => (s, none)
  | _ =>
    let r := s.writeBytes ctx (s.ctxSlot ctx.toNat) false false a bs
    (r.1, r.2.map fun ln => (0x80, firstIn a ln))

/-- Every row of a command moved in order, up to one that cannot be (R79, R80, R138): a row is read whole and then written, rows
ascending, which settles what rows that overlap hold (DESIGN CHOICE, log 164). -/
def State.dmaMove (s : State) (c : Nat) (e : MvEntry) : State × Option (Nat × Nat) :=
  (List.range (dmaRows e.desc)).foldl (fun r i =>
    match r.2 with
    | some _ => r
    | none =>
      match r.1.dmaRead c e.ctx (dmaSrcRow e.desc i).toNat (dmaLen e.desc) with
      | (s1, .error f) => (s1, some f)
      | (s1, .ok bs) => s1.dmaWrite c e.ctx (dmaDstRow e.desc i).toNat bs) (s, none)

/-- The source of a command lies in a host window. -/
def MvEntry.fromHost (e : MvEntry) : Bool := e.kind = .dma && regionOf (dmaSrc e.desc) = .hostWin

/-- The destination of a command lies in the host windows, or in the pair window. -/
def MvEntry.toHost (e : MvEntry) : Bool := e.kind = .dma && regionOf (dmaDst e.desc) = .hostWin
def MvEntry.toPair (e : MvEntry) : Bool := e.kind = .dma && regionOf (dmaDst e.desc) = .pair

/-- Bytes of a command. -/
def MvEntry.size (e : MvEntry) : Nat := dmaRows e.desc * dmaLen e.desc

/-- A row of a command lies in channels that are in reset (R133). -/
def State.dmaWaits (s : State) (e : MvEntry) : Bool :=
  (List.range (dmaRows e.desc)).any fun i =>
    s.memWaits (dmaSrcRow e.desc i).toNat (dmaLen e.desc) || s.memWaits (dmaDstRow e.desc i).toNat (dmaLen e.desc)

/-! ### The front of the queue -/

/-- The front of the MV queue changed. -/
def State.updFront (s : State) (c : Nat) (f : MvEntry → MvEntry) : State :=
  s.updCell c fun x => match x.mvq with
    | [] => x
    | e :: r => { x with mvq := f e :: r }

/-- The next host read of the command at the front: at most 4,096 bytes of one row (R244, R247). -/
def State.dmaAsk (s : State) (c : Nat) : State :=
  match (s.cell c).mvq with
  | [] => s
  | e :: _ =>
    if !e.fromHost || e.asked || e.failed.isSome || decide (e.size ≤ e.moved) then s
    else
      let len := dmaLen e.desc
      let k := min 4096 (len - e.moved % len)
      let a := (dmaSrcRow e.desc (e.moved / len)).toNat + e.moved % len
      match s.windowAddr e.ctx a k with
      | none => s.updFront c fun e => { e with failed := some a }
      | some h =>
        match s.hostRd h k (.cellDma c) with
        | none => s
        | some s1 => s1.updFront c fun e => { e with asked := true }

/-- The rows of a pair-window command go out over the pair port as it comes to the front (R408). -/
def State.dmaPair (s : State) (c : Nat) : State :=
  match (s.cell c).mvq with
  | [] => s
  | e :: _ =>
    if !e.toPair || e.done then s
    else
      let s1 := forEach (List.range (dmaRows e.desc)) (fun s i =>
        let a := (dmaDstRow e.desc i).toNat - 0xF20000000000
        forEach ((chunks 4096 (memGet s.mem (dmaSrcRow e.desc i).toNat (dmaLen e.desc))).zipIdx)
          (fun s p => s.pairSend e.ctx (a + 4096 * p.2) p.1) s) s
      s1.updFront c fun e => { e with done := true, sentAt := s.now }

/-- The command at the front begins. -/
def State.mvStart (s : State) (c : Nat) : State := (s.dmaPair c).dmaAsk c

/-- An entry joins the queue. -/
def State.mvPush (s : State) (c : Nat) (e : MvEntry) : State :=
  let s1 := s.updCell c fun x => { x with mvq := x.mvq ++ [e] }
  if (s.cell c).mvq.isEmpty then s1.mvStart c else s1

/-- The front leaves the queue, and the next begins. -/
def State.mvPop (s : State) (c : Nat) : State := (s.updCell c fun x => { x with mvq := x.mvq.tail }).mvStart c

/-- A fault of a queued entry (R116): of the thread while it still works for the context, else of the context alone. -/
def State.mvFault (s : State) (c : Nat) (e : MvEntry) (code detail : Nat) : State :=
  let th := s.th c e.thread
  if th.work.isSome ∧ th.ctx = e.ctx then s.impFault c e.thread e.bundle code detail
  else
    let r : FaultRec := { ctx := e.ctx, cell := c, thread := e.thread, bundle := e.bundle, code := BitVec.ofNat 8 code,
                          detail := BitVec.ofNat 32 detail }
    ({ s with faultRecs := (s.faultRecs ++ [r]).drop (s.faultRecs.length - 15) }).faultCtx e.ctx

/-! ### DMA (R104, R105, R79, R80) -/

/-- The local address of an MV descriptor, and the fault of one that is not local or not a multiple of 64 (R104). -/
def mvAddr (i : Issue) (x : Nat) : Nat := (mvS i x + mvImm x).toNat

def mvAddrFault (a : Nat) : Option (Nat × Nat) :=
  if 0x1FFFFF < a then some (0x01, a) else if a % 64 ≠ 0 then some (0x02, a) else none

/-- The entry that an MV operation queues. -/
def State.mvEntry (s : State) (c : Nat) (t : Thread) (k : MvKind) (a : Nat) : MvEntry :=
  { kind := k, thread := t, ctx := (s.th c t).ctx, bundle := (s.th c t).pc, addr := a, desc := BitVec.ofNat 512 (s.cellNat c a 64) }

/-- DMA: the descriptor is read and checked as the command enters the queue (R80, R105). -/
def State.doDma (s : State) (c : Nat) (t : Thread) (i : Issue) (x : Nat) : State :=
  let a := mvAddr i x
  let pc := (s.th c t).pc
  match mvAddrFault a with
  | some (code, ad) => s.impFault c t pc code ad
  | none =>
    let e := s.mvEntry c t .dma a
    match s.dmaBad c e.ctx a e.desc with
    | some ad => s.impFault c t pc 0x01 ad
    | none => s.mvPush c e

/-- DMA. -/
def execDma (c : Fin 128) (t : Thread) : State → Host.Outcome State Fault Refusal :=
  act fun s => s.slotRow c t .mv 0x08 fun s i x => s.doDma c t i x

/-- Lines of 64 bytes that a command moves (R553). -/
def MvEntry.lines (e : MvEntry) : Nat := dmaRows e.desc * ceilDiv (dmaLen e.desc) 64

/-- A command that has moved all its bytes completes: count, sync add, and its place is free (R79, R553). -/
def State.dmaDone (s : State) (c : Nat) (e : MvEntry) : State :=
  let n := if s.profOn && !s.cellConf c then e.lines else 0
  let s1 := s.updCell c fun x => { x with prof := { x.prof with lines := satAdd 32 x.prof.lines n }, progress := s.now }
  let s2 := if dmaSyncEn e.desc then s1.syncAddIf (dmaSync e.desc) e.ctx 1 else s1
  s2.mvPop c

/-- A running command stops and raises its fault; rows already written stay (R80). -/
def State.dmaFail (s : State) (c : Nat) (e : MvEntry) (code addr : Nat) : State := (s.mvPop c).mvFault c e code addr

/-- DMA_COMMAND_COMPLETE (R79): the last write of the command at the front is accepted. One that waits for host data, for the link or
for the pair port, or that cannot finish, goes on. -/
def execDmaCommandComplete (c : Fin 128) : State → Host.Outcome State Fault Refusal :=
  act fun s =>
    match (s.cell c).mvq with
    | [] => s
    | e :: _ =>
      if e.kind ≠ .dma ∨ !s.compute ∨ (s.cell c).inReset ∨ s.dmaWaits e then s
      else if e.fromHost then (if e.moved = e.size then s.dmaDone c e else s)
      else if e.toPair then (if e.done ∧ s.fab.pairUp then s.dmaDone c e else s)
      else if e.toHost ∧ !(s.hst.up && !s.hst.inReset) then s
      else
        match s.dmaMove c e with
        | (s1, none) => s1.dmaDone c e
        | (_, some _) => s

/-- DMA_COMMAND_FAULT (R80, R124, R138): the command at the front cannot finish, for a failed host read, a link
that stays down beyond hold_ms (R246), another cell in reset, or a memory error or tag mismatch it meets. -/
def execDmaCommandFault (c : Fin 128) : State → Host.Outcome State Fault Refusal :=
  act fun s =>
    match (s.cell c).mvq with
    | [] => s
    | e :: _ =>
      if e.kind ≠ .dma ∨ !s.compute ∨ (s.cell c).inReset ∨ s.dmaWaits e then s
      else if (e.fromHost || e.toHost) && !s.hst.up && decide (s.hst.downAt + s.holdTicks ≤ s.now) then
        let r := e.moved / dmaLen e.desc
        s.dmaFail c e 0x01 (if e.fromHost then dmaSrcRow e.desc r else dmaDstRow e.desc r).toNat
      else if e.toHost ∧ !(s.hst.up && !s.hst.inReset) then s
      else if e.fromHost then
        match e.failed with
        | some a => s.dmaFail c e 0x01 a
        | none => s
      else if e.toPair then s
      else
        match s.dmaMove c e with
        | (s1, some (code, a)) => s1.dmaFail c e code a
        | (_, none) => s

/-- Bytes of a host read for the command at the front of a cell's queue: written at their row, and the next ones asked. -/
def State.dmaData (s : State) (c : Nat) (bs : List Byte) : State :=
  match (s.cell c).mvq with
  | [] => s
  | e :: _ =>
    if !e.asked then s
    else
      let len := dmaLen e.desc
      let a := (dmaDstRow e.desc (e.moved / len)).toNat + e.moved % len
      let w := s.dmaWrite c e.ctx a bs
      ((w.1.updFront c fun e => { e with asked := false, moved := e.moved + bs.length, failed := w.2.map (·.2) }).dmaAsk c)

/-- The host read of the command at the front failed (R246). -/
def State.dmaReadFailed (s : State) (c : Nat) : State :=
  s.updFront c fun e =>
    let len := dmaLen e.desc
    { e with asked := false, failed := some ((dmaSrcRow e.desc (e.moved / len)).toNat + e.moved % len) }

/-- PAIR_WRITE_TIMEOUT (R408): 100 us after its last row was sent a pair-window command that the partner has not accepted completes; its
rows are discarded and counted. -/
def execPairWriteTimeout (c : Fin 128) : State → Host.Outcome State Fault Refusal :=
  act fun s =>
    match (s.cell c).mvq with
    | [] => s
    | e :: _ =>
      if e.toPair ∧ e.done ∧ e.sentAt + usTicks 100 ≤ s.now ∧ s.compute then
        ({ s with cnt := { s.cnt with pairDrop := satAdd 8 s.cnt.pairDrop (dmaRows e.desc) } }).dmaDone c e
      else s

/-- PAIR_WINDOW_WRITE (R129, R408, R509): a partner's row, written where the context lives here, its key and tag verify and its pages
allow it; else discarded and counted, and no fault. -/
def execPairWindowWrite (w : PairWrite) : State → Host.Outcome State Fault Refusal :=
  act fun s =>
    let drop : State := { s with cnt := { s.cnt with pairDrop := satAdd 8 s.cnt.pairDrop 1 } }
    let a := w.addr.toNat
    let k := s.ctxSlot w.ctx.toNat
    let iv := pairNonce w.count.toNat s.pairIdx s.selfIdx w.keyGen
    let keyOk := decide (w.keySlot = k) && (k = 0 || (decide (w.keyGen = s.slotGen k)
      && decide (w.tag.toNat = leNat (gcmTag (s.linkKey k) iv (pairAad a w.ctx k) w.data))))
    if !s.fab.pairUp || !s.compute then s
    else if !s.twin || !(s.ctx w.ctx.toNat).live || !keyOk || regionOf a ≠ .lpddr || decide (s.capacity < a + w.data.length)
        || (s.pageFail w.ctx true false a w.data.length).isSome then drop
    else (s.writeBytes w.ctx k false true a (if k = 0 then w.data else gcmText (s.linkKey k) iv w.data)).1

/-! ### SEND (R106, R107) -/

def sndDst (d : Line) : Nat := fieldNat d 66 64 * 64 + fieldNat d 69 67 * 8 + fieldNat d 72 70
def sndLaddr (d : Line) : Nat := fieldNat d 108 88
def sndLen (d : Line) : Nat := fieldNat d 124 112
def sndMode (d : Line) : Nat := fieldNat d 129 128
def sndFlow (d : Line) : Nat := fieldNat d 143 132
def sndLsync (d : Line) : Nat := fieldNat d 172 160

/-- A timetabled flow that an armed timetable of the context owns at a cell: a run of the flow in an instance that has an entry on the
cell (R107; DEDUCED, log 33). -/
def State.flowOwner (s : State) (ctx : BitVec 6) (c flow : Nat) : Option Instance :=
  s.tt.instances.find? fun i => i.ctx = ctx && (i.state = .armed || i.state = .releasing)
    && (i.object.runs.any fun r => r.2.flow = flow) && i.object.entries.any fun e => e.2.cell = c

/-- The fault of a SEND (R107, R327, R328). -/
def State.sendBad (s : State) (c : Nat) (t : Thread) (ctx : BitVec 6) (d : Line) : Option (Nat × Nat) :=
  let n := sndLen d
  let la := sndLaddr d
  let m := sndMode d
  let cls1 := bitAt d 130
  if !s.inSliceOf ctx.toNat (sndDst d) || m = 3 || (m = 1 && sndDst d ≠ s.selfIdx) || (m = 2 && s.conf ctx.toNat)
      || (cls1 && ((s.flowOwner ctx c (sndFlow d)).isNone || t = .tr))
      || n < 4 || 4096 < n || n % 4 ≠ 0 || (m = 2 && n % 16 ≠ 0)
      || fieldNat d 63 48 ≠ 0 || fieldNat d 79 73 ≠ 0 || fieldNat d 111 109 ≠ 0 || fieldNat d 127 125 ≠ 0
      || fieldNat d 159 158 ≠ 0 || fieldNat d 511 174 ≠ 0 then some (0x06, 0)
  else if la % 4 ≠ 0 then some (0x02, la)
  else if 0x200000 < la + n then some (0x01, max la 0x200000)
  else if bitAt d 173 && !s.objOk (sndLsync d) ctx then some (0x01, objDetail (sndLsync d))
  else none

/-- SEND: the descriptor is read and checked, and the send takes its place in the queue. -/
def State.doSend (s : State) (c : Nat) (t : Thread) (i : Issue) (x : Nat) : State :=
  let a := mvAddr i x
  let pc := (s.th c t).pc
  match mvAddrFault a with
  | some (code, ad) => s.impFault c t pc code ad
  | none =>
    let e := s.mvEntry c t .send a
    match s.sendBad c t e.ctx e.desc with
    | some (code, ad) => s.impFault c t pc code ad
    | none => s.mvPush c e

/-- SEND. -/
def execSend (c : Fin 128) (t : Thread) : State → Host.Outcome State Fault Refusal :=
  act fun s => s.slotRow c t .mv 0x09 fun s i x => s.doSend c t i x

/-- FERRY (R104): the dispatch record takes its place in the queue until the Ferry has read it. -/
def execFerry (c : Fin 128) (t : Thread) : State → Host.Outcome State Fault Refusal :=
  act fun s => s.slotRow c t .mv 0x0A fun s i x =>
    let a := mvAddr i x
    match mvAddrFault a with
    | some (code, ad) => s.impFault c t (s.th c t).pc code ad
    | none => s.mvPush c (s.mvEntry c t .ferry a)

/-- The packet of a SEND whose payload has been read (R106, R307). -/
def State.sendPacket (s : State) (c : Nat) (e : MvEntry) : State :=
  let d := e.desc
  s.send { cls := if bitAt d 130 then clsTt else clsOpen, dstEp := fieldNat d 87 80, dst := sndDst d, mode := sndMode d,
           ordered := bitAt d 131, raddr := fieldNat d 47 0, srcEp := c, gen := (s.cell c).gen.toNat, ctx := e.ctx,
           keySlot := s.ctxSlot e.ctx.toNat, flow := if bitAt d 130 || sndMode d ≠ 0 then sndFlow d else 0,
           rsync := fieldNat d 156 144, rsyncEn := bitAt d 157, contrib := if sndMode d = 2 then 1 else 0,
           payload := s.cellGet c (sndLaddr d) (sndLen d) } false none

/-- SEND_PAYLOAD_READ (R78, R106): the SEND at the front has read its payload, its packet goes out and lsync is added; or the Ferry has
read the record at the front. -/
def execSendPayloadRead (c : Fin 128) : State → Host.Outcome State Fault Refusal :=
  act fun s =>
    match (s.cell c).mvq with
    | [] => s
    | e :: _ =>
      if !s.compute ∨ (s.cell c).inReset then s
      else match e.kind with
        | .dma => s
        | .ferry => if e.done then s.mvPop c else s
        | .send =>
          let s1 := s.sendPacket c e
          let s2 := if bitAt e.desc 173 then s1.syncAddIf (sndLsync e.desc) e.ctx 1 else s1
          s2.mvPop c

end Sys2Proof.Machine
end

