-- ==== Sys2Proof/Machine/Matrix.lean ====
section
/-! DEFINITION. The MX slot and the matrix array (R71, R94 to R101): what enters the array's queue, and how the
array goes from one instruction to the next. -/

namespace Sys2Proof.Machine

/-! ### The MX slot -/

/-- The idle array begins its next instruction or goes on with the suspended one; one whose descriptor fails faults its thread, whose queued
instructions are discarded, and the next one follows (R65, R71, R97, R117). -/
def State.beginMx : Nat → State → Nat → State
  | 0, s, _ => s
  | n + 1, s, c =>
    let x := s.cell c
    if !s.compute || x.inReset || x.mxRun.isSome then s
    else
      match s.mxNext c with
      | none => s
      | some q =>
        match (if q.thread = .tr then x.mxHeld else none) with
        | some h => s.updCell c fun x => { x with mxRun := some h, mxHeld := none }
        | none =>
          match s.mxBegin c q with
          | .ok r => s.updCell c fun x => { x with mxRun := some r }
          | .error f =>
            ((s.updCell c fun x => { x with mxq := x.mxq.filter fun m => m.thread ≠ q.thread }).impFault c q.thread q.bundle f.1 f.2).beginMx n c

/-- What the array does by itself: an MMA of a trickle thread that has stopped is suspended, and the next instruction begins. -/
def State.settleArray (s : State) (c : Nat) : State := (s.suspendMx c).beginMx 3 c

/-- A matrix instruction enters the array's queue with its copy of the window (R94, R95), and begins where the array is idle (R71). -/
def State.queueMx (s : State) (c : Nat) (t : Thread) (op : MxOp) (i : Issue) (x : Nat) : State :=
  let q : MxInstr := { op := op, thread := t, bundle := (s.th c t).pc,
                       desc := (regA i.a (sf x 6 5) + BitVec.ofNat 64 (64 * sf x 17 14)).toNat, acc := BitVec.ofNat 2 (sf x 11 2),
                       win := sget 0 (s.cell c).win (sf x 13 3), zero := sf x 16 1 = 1 }
  (s.updCell c fun y => { y with mxq := y.mxq ++ [q] }).settleArray c

/-- MMA (R94). -/
def execMma (c : Fin 128) (t : Thread) : State → Host.Outcome State Fault Refusal :=
  act fun s => s.slotRow c t .mx 0x01 fun s i x => s.queueMx c t .mma i x

/-- MDRAIN (R94). -/
def execMdrain (c : Fin 128) (t : Thread) : State → Host.Outcome State Fault Refusal :=
  act fun s => s.slotRow c t .mx 0x02 fun s i x => s.queueMx c t .mdrain i x

/-- MLOAD (R94). -/
def execMload (c : Fin 128) (t : Thread) : State → Host.Outcome State Fault Refusal :=
  act fun s => s.slotRow c t .mx 0x03 fun s i x => s.queueMx c t .mload i x

/-- MCLR (R94). -/
def execMclr (c : Fin 128) (t : Thread) : State → Host.Outcome State Fault Refusal :=
  act fun s => s.slotRow c t .mx 0x04 fun s i x => s.queueMx c t .mclr i x

/-- MWIN (R94): bits [47:16] into WIN[win]. -/
def execMwin (c : Fin 128) (t : Thread) : State → Host.Outcome State Fault Refusal :=
  act fun s => s.slotRow c t .mx 0x05 fun s _ x =>
    s.updCell c fun y => { y with win := sset 0 y.win (sf x 13 3) (BitVec.ofNat 32 (sf x 16 32)) }

/-- MATRIX_QUEUE_ADVANCE (R71): the instruction that the array runs leaves with its work done, and the next one begins. -/
def execMatrixQueueAdvance (c : Fin 128) : State → Host.Outcome State Fault Refusal :=
  act fun s =>
    if !s.compute ∨ (s.cell c).inReset then s
    else
      let s1 := s.settleArray c
      match (s1.cell c).mxRun with
      | none => s1
      | some r => (s1.mxLeave c r).beginMx 3 c

end Sys2Proof.Machine
end

