-- ==== Sys2Proof/Machine/Programs.lean ====
section
/-! DEFINITION. Descriptors that gather host data, program images and PROGRAM_LOAD (R112, R113, R264), LAUNCH_OPEN (R266, R591) and
NOP (R259). -/

namespace Sys2Proof.Machine

/-! ### Host data of a descriptor (R244, R246) -/

/-- More host reads of a gathering descriptor, as tags allow. -/
def State.askJob : Nat → State → Nat → Nat → State
  | 0, s, _, _ => s
  | n + 1, s, sq, slot =>
    match s.job sq slot with
    | none => s
    | some j =>
      match j.kind with
      | .gather need asked base _ =>
        if asked < need then
          let k := min 4096 (need - asked)
          match s.hostRd (base + asked) k (.job sq slot asked) with
          | none => s
          | some s1 =>
            (s1.updJob sq slot fun k' => match k' with
              | .gather nd as_ b g => .gather nd (as_ + k) b g
              | x => x).askJob n sq slot
        else s
      | _ => s

/-- A descriptor starts by gathering bytes of host memory. -/
def State.startGather (s : State) (sq slot : Nat) (d : Line) (base need : Nat) : State :=
  (s.startJob sq slot d (.gather need 0 base [])).askJob 1024 sq slot

/-- The descriptor of a ring and slot; zero where it is not started. -/
def State.jobDesc (s : State) (sq slot : Nat) : Line := ((s.job sq slot).map (·.desc)).getD 0

/-- A read that the module makes for a descriptor from LPDDR6, and what ends the descriptor where a line fails (R590). -/
def State.moduleRead (s : State) (c : BitVec 6) (a len : Nat) : State × Except Done (List Byte) :=
  let r := s.readBytes c (s.ctxSlot c.toNat) false a len
  match r.fail with
  | none => (r.st, .ok r.bytes)
  | some (true, ln) => (r.st, .error { status := stGenStale, r0 := ln })
  | some (false, ln) => (r.st, .error { status := stFaultCtx, r0 := ln, detail := 0x80 })

/-- A started or starting descriptor ends: by its job where it has one, else by its record; FAULT_CONTEXT faults the context. -/
def State.endDesc (s : State) (sq slot : Nat) (d : Line) (r : Done) : State :=
  if (s.job sq slot).isSome then
    if r.status = stFaultCtx then s.finishFault sq slot r else s.finish sq slot r
  else if r.status = stFaultCtx then s.completeFault sq slot d r
  else s.complete sq slot d r

/-! ### Program images (R112, R113) -/

/-- Bundle i of an image. -/
def imgBundle (img : List Byte) (i : Nat) : BitVec 256 := BitVec.ofNat 256 (leNat ((img.drop (128 + 32 * i)).take 32))

/-- The lowest bit of the object at fault in a program image (R113, R255); none for a good one. -/
def imgBad (img : List Byte) : Option Nat :=
  let h := img.take 128
  let f := bytesField h
  let base := f 75 64
  let count := f 92 80
  let tr := decide (f 113 112 = 2)
  let hdr : List (Nat × Bool) := [(0, f 31 0 ≠ 0x4950434B), (32, f 47 32 ≠ 0x8130), (48, f 63 48 ≠ 1), (64, 4096 < base + count), (76, f 79 76 ≠ 0),
    (80, count = 0), (93, f 95 93 ≠ 0), (96, count ≤ f 107 96), (108, f 111 108 ≠ 0),
    (112, f 113 112 = 0 || f 113 112 = 3), (114, f 511 114 ≠ 0),
    (512, f 895 512 ≠ (sha384Nat (img.drop 128)).toNat), (896, f 1023 896 ≠ 0)]
  let bundles := (List.range count).filterMap fun i => (bundleBad base count tr (imgBundle img i)).map fun b => 1024 + 256 * i + b
  lowestBad (hdr ++ bundles.map fun b => (b, true))

/-- The logical cells of a mask. -/
def maskCells (m : Nat) : List Nat := (List.range 128).filter fun i => m.testBit i

/-- Bundles [base, base + count) overlap a program that a thread of the cell runs, or that an instance has armed (R77). -/
def State.imageBusy (s : State) (c base count : Nat) : Bool :=
  let x := s.cell c
  let hit (b n : Nat) : Bool := decide (base < b + n) && decide (b < base + count)
  ([x.fg, x.tr].any fun th => th.work.isSome && hit th.base th.count)
    || s.tt.instances.any fun i => (i.state = .armed || i.state = .releasing) && i.object.entries.any fun e =>
        e.2.cell = c && match x.entryImage .fg i.ctx e.2.bundle with
          | some img => hit img.base img.count
          | none => false

/-- An image written into a cell's instruction memory; images it overlaps are gone (R77, R113). -/
def CellSt.loadImage (x : CellSt) (i : Image) (bundles : List (BitVec 256)) : CellSt :=
  { x with imem := ssetRun 0 x.imem i.base bundles,
           images := (x.images.filter fun o => !(o.base < i.base + i.count && i.base < o.base + o.count)) ++ [i] }

/-- The image has been read: it is checked and loaded into every named cell or into none (R113, R264) (DEDUCED, log 118). -/
def State.loadProgram (s : State) (sq slot : Nat) (d : Line) (img : List Byte) : State :=
  let ctx := (s.sq sq).ctx
  let f := bytesField (img.take 128)
  let cells := maskCells (fieldNat d 383 256)
  if fieldNat d 255 224 ≠ 128 + 32 * f 92 80 then s.endDesc sq slot d (badBit 224)
  else
    match imgBad img with
    | some b => s.endDesc sq slot d (badObj b)
    | none =>
      let base := f 75 64
      let count := f 92 80
      if cells.any fun c => s.imageBusy c base count then s.endDesc sq slot d { status := stBusy }
      else
        let i : Image := { ctx := ctx, base := base, count := count, entry := f 107 96,
                           thread := if f 113 112 = 2 then .tr else .fg, digest := BitVec.ofNat 384 (f 895 512) }
        let bs := (List.range count).map (imgBundle img)
        (forEach cells (fun s c => s.updCell c fun x => x.loadImage i bs) s).endDesc sq slot d { status := stOk }

/-- FAULT_CONTEXT of a descriptor that names a failed cell (R452). -/
def failedCell (c : Nat) : Done := { status := stFaultCtx, r1 := c }

/-- The lengths that some count in a header can give an image (R264); a count of 0 or above 4,096 is the image's own fault (R113). -/
def imgLenOk (n : Nat) : Bool := decide (128 ≤ n) && decide (n ≤ 128 + 32 * 8191) && decide (n % 32 = 0)

/-- PROGRAM_LOAD starts: its fields (R264), confidentiality, pages, failed cells (R452), then the image. -/
def State.programStart (s : State) (sq slot : Nat) (d : Line) : State :=
  let ctx := (s.sq sq).ctx
  let sp := fieldNat d 193 192
  let src := fieldNat d 191 128
  let len := fieldNat d 255 224
  let dev := decide (sp = 0)
  match lowestBad [(128, dev && (regionOf src ≠ .lpddr || s.capacity < src + len)), (192, 2 ≤ sp), (194, fieldNat d 223 194 ≠ 0),
      (224, !imgLenOk len), (256, fieldNat d 383 256 = 0), (384, fieldNat d 511 384 ≠ 0)] with
  | some b => s.complete sq slot d (badBit b)
  | none =>
    if !dev ∧ s.conf ctx.toNat then s.complete sq slot d { status := stSecDenied }
    else
      match if dev then s.pageFail ctx false false src len else none with
      | some a => s.completeFault sq slot d (pageFault a)
      | none =>
        match (maskCells (fieldNat d 383 256)).find? fun c => (s.cell c).failed with
        | some c => s.completeFault sq slot d (failedCell c)
        | none =>
          if dev then
            match s.moduleRead ctx src len with
            | (s1, .ok img) => s1.loadProgram sq slot d img
            | (s1, .error r) => s1.endDesc sq slot d r
          else s.startGather sq slot d src len

/-- PROGRAM_LOAD (R264); one that reads an image in channels in reset waits (R133). -/
def execProgramLoad (sq : Fin 256) : State → Host.Outcome State Fault Refusal :=
  act fun s => s.startRow sq 0x03 (fun d => !(fieldNat d 193 192 = 0 && s.memWaits (fieldNat d 191 128) (fieldNat d 255 224))) fun s slot d => s.programStart sq slot d

/-! ### LAUNCH_OPEN (R266, R591) -/

/-- arg_addr of R591 for n bytes at an alignment: wholly in LPDDR6 pages that the context may read. -/
def State.argOk (s : State) (c : BitVec 6) (a n align : Nat) : Bool :=
  decide (a % align = 0) && decide (regionOf a = .lpddr) && decide (a + n ≤ s.capacity) && (s.pageFail c false false a n).isNone

/-- LAUNCH_OPEN starts: its fields, failed cells (R452), then a run on every named cell (R266). -/
def State.launchStart (s : State) (sq slot : Nat) (d : Line) : State :=
  let ctx := (s.sq sq).ctx
  let bundle := fieldNat d 139 128
  let cells := maskCells (fieldNat d 319 192)
  match lowestBad [(128, cells.any fun c => !(s.cell c).failed && ((s.cell c).image .fg ctx bundle).isNone),
      (140, fieldNat d 143 140 ≠ 0), (144, !s.argOk ctx (fieldNat d 191 144) 64 8), (192, cells.isEmpty),
      (320, fieldNat d 511 320 ≠ 0)] with
  | some b => s.complete sq slot d (badBit b)
  | none =>
    match cells.find? fun c => (s.cell c).failed with
    | some c => s.completeFault sq slot d (failedCell c)
    | none =>
      let s1 := s.startJob sq slot d (.launch cells 0 false false none)
      let s2 := forEach cells (fun s c => s.updCell c fun x => { x with launches := x.launches ++ [(sq, slot)] }) s1
      forEach cells (fun s c => s.startLaunch c) s2

/-- LAUNCH_OPEN (R266): the foreground thread starts at the descriptor's bundle on every named cell (DEDUCED, log 26). -/
def execLaunchOpen (sq : Fin 256) : State → Host.Outcome State Fault Refusal :=
  act fun s => s.startRow sq 0x05 (fun _ => true) fun s slot d => s.launchStart sq slot d

/-- NOP (R259): completes with OK; it has no fields of its own, and bits that no table gives it are not looked at (DEDUCED, log 27). -/
def execNop (sq : Fin 256) : State → Host.Outcome State Fault Refusal :=
  act fun s => s.startRow sq 0x00 (fun _ => true) fun s slot d => s.complete sq slot d { status := stOk }

/-- OPEN_LAUNCH_PREEMPT (R167): an open launch that still runs 2 ticks before an owned span of its cell stops with TIMEOUT. -/
def execOpenLaunchPreempt (c : Fin 128) : State → Host.Outcome State Fault Refusal :=
  act fun s =>
    match (s.th c .fg).work with
    | some (.launch sq slot) =>
      if s.compute && (s.owned c s.time.tick || s.owned c (s.time.tick + 2)) then (s.haltThread c .fg).launchEnd sq slot c .timeout else s
    | _ => s

/-- FREQUENCY_SWITCH_END (R61): issue resumes; no architected state has changed during the switch. -/
def execFrequencySwitchEnd (c : Fin 128) : State → Host.Outcome State Fault Refusal :=
  act fun s => if s.compute then s.updCell c fun x => { x with switching := false } else s

end Sys2Proof.Machine
end

