-- ==== Sys2Proof/Machine/Trickle.lean ====
section
/-! DEFINITION. The trickle queue, its dispatcher and the flattening of current at barriers (R64, R65, R176 to R181). -/

namespace Sys2Proof.Machine

/-! ### TRICKLE_SUBMIT and PHASE_HINT -/

/-- The cells that may run an entry: those of its mask, or any that hold the program (R176). -/
def State.mayRun (s : State) (ctx : BitVec 6) (mask bundle c : Nat) : Bool :=
  (mask = 0 || mask.testBit c) && ((s.cell c).entryImage .tr ctx bundle).isSome && !(s.cell c).failed

/-- An entry goes to the end of the queue, or BUSY_RETRY where it is full (R176, R177). -/
def State.queueTrickle (s : State) (sq slot : Nat) (d : Line) (e : TrickleEntry) : State :=
  if 4096 ≤ s.tt.queue.length then s.complete sq slot d { status := stBusy }
  else
    let id := s.tt.nextId
    let e' : TrickleEntry := { e with id := id, sq := sq, slot := slot, ctx := (s.sq sq).ctx }
    let s1 := s.startJob sq slot d (.trickle id)
    { s1 with tt := { s1.tt with queue := s1.tt.queue ++ [e'], nextId := id + 1 } }

/-- TRICKLE_SUBMIT of a program run (R176, R177, R452, R591). -/
def State.trickleProgram (s : State) (sq slot : Nat) (d : Line) : State :=
  let ctx := (s.sq sq).ctx
  let mask := fieldNat d 351 224
  let bundle := fieldNat d 147 136
  let named := if mask = 0 then List.range 128 else maskCells mask
  let holds := named.any fun c => ((s.cell c).entryImage .tr ctx bundle).isSome
  let onlyFailed := decide (mask ≠ 0) && named.all fun c => (s.cell c).failed
  match lowestBad [(128, 2 ≤ fieldNat d 129 128), (130, fieldNat d 135 130 ≠ 0), (136, !holds && !onlyFailed),
      (148, fieldNat d 159 148 ≠ 0), (160, !s.argOk ctx (fieldNat d 207 160) 64 8), (208, fieldNat d 223 208 ≠ 0),
      (352, fieldNat d 511 352 ≠ 0)] with
  | some b => s.complete sq slot d (badBit b)
  | none =>
    if onlyFailed then s.completeFault sq slot d (failedCell (named.headD 0))
    else s.queueTrickle sq slot d { bundle := bundle, argAddr := fieldNat d 207 160, mask := BitVec.ofNat 128 mask }

/-- TRICKLE_SUBMIT of a prefetch: the checks of R141, R121 and R129 as for a COPY (R177). -/
def State.tricklePrefetch (s : State) (sq slot : Nat) (d : Line) : State :=
  let ctx := (s.sq sq).ctx
  let src := fieldNat d 271 224
  let dst := fieldNat d 319 272
  let len := fieldNat d 351 320
  match lowestBad [(130, fieldNat d 135 130 ≠ 0), (136, fieldNat d 147 136 ≠ 0), (148, fieldNat d 159 148 ≠ 0),
      (160, fieldNat d 207 160 ≠ 0), (208, fieldNat d 223 208 ≠ 0), (224, !moverRange src len || overlaps src dst len),
      (272, !moverRange dst len), (320, len < 4 || len % 4 ≠ 0), (352, fieldNat d 511 352 ≠ 0)] with
  | some b => s.complete sq slot d (badBit b)
  | none =>
    if s.beyond src len then s.complete sq slot d (badBit 224)
    else if s.beyond dst len then s.complete sq slot d (badBit 272)
    else
      match (s.rangePage ctx false src len).orElse fun _ => s.rangePage ctx true dst len with
      | some a => s.completeFault sq slot d (pageFault a)
      | none => s.queueTrickle sq slot d { prefetch := true, src := src, dst := dst, len := len }

/-- The kind of a TRICKLE_SUBMIT. -/
def trickleKind (d : Line) : Nat := fieldNat d 129 128

/-- TRICKLE_SUBMIT_PROGRAM (R176); a reserved kind is answered here too. -/
def execTrickleSubmitProgram (sq : Fin 256) : State → Host.Outcome State Fault Refusal :=
  act fun s => s.startRow sq 0x06 (fun d => trickleKind d ≠ 1) fun s slot d => s.trickleProgram sq slot d

/-- TRICKLE_SUBMIT_PREFETCH (R176). -/
def execTrickleSubmitPrefetch (sq : Fin 256) : State → Host.Outcome State Fault Refusal :=
  act fun s => s.startRow sq 0x06 (fun d => trickleKind d = 1) fun s slot d => s.tricklePrefetch sq slot d

/-- PHASE_HINT (R180): a window that has passed has no effect. -/
def execPhaseHint (sq : Fin 256) : State → Host.Outcome State Fault Refusal :=
  act fun s => s.startRow sq 0x0D (fun _ => true) fun s slot d =>
    let start := fieldNat d 191 128
    let len := fieldNat d 223 192
    match lowestBad [(192, len = 0), (224, fieldNat d 227 224 ≠ 1), (228, fieldNat d 511 228 ≠ 0)] with
    | some b => s.complete sq slot d (badBit b)
    | none =>
      let s1 : State :=
        if start + len ≤ s.time.tick then s
        else { s with tt := { s.tt with barriers := s.tt.barriers ++ [{ ctx := (s.sq sq).ctx, start := start, len := len }] } }
      s1.complete sq slot d { status := stOk }

/-! ### Barrier windows and the ramp (R181) -/

/-- TTB_RAMP.reserve_ticks. -/
def State.reserveTicks (s : State) : Nat := s.fld 0x400020 8 16

/-- The windows that barrier marks of an instance place at tick t or next (R155, R181) (DEDUCED, log 121). -/
def Instance.windows (i : Instance) (reserve t : Nat) : List Barrier :=
  if i.state = .armed then
    i.object.barriers.map fun b =>
      let p := i.object.period * frameTicks
      let first := (i.phase + i.firstPeriod * i.object.period) * frameTicks + b.2.1
      let j := if p = 0 ∨ t + reserve < first then 0 else (t + reserve - first) / p
      { ctx := i.ctx, start := first + j * p, len := b.2.2 }
  else []

/-- Every barrier window: hints, then marks of the armed instances. -/
def State.windows (s : State) : List Barrier :=
  s.tt.barriers ++ s.tt.instances.flatMap fun i => i.windows s.reserveTicks s.time.tick

/-- From reserve_ticks before its start until its end a window holds back the dispatcher. -/
def Barrier.spans (b : Barrier) (reserve t : Nat) : Bool := decide (b.start ≤ t + reserve) && decide (t < b.start + b.len)

/-- A window's hold is on for a context. -/
def State.barrierHold (s : State) (c : BitVec 6) : Bool :=
  s.tt.barriers.any fun b => b.holding && b.ctx = c && b.spans s.reserveTicks s.time.tick

/-- A cell of a context: one that holds a program image of it (DEDUCED, log 28). -/
def CellSt.ofCtx (x : CellSt) (c : BitVec 6) : Bool := x.images.any fun i => i.ctx = c

/-- A cell lies under a hold. -/
def State.cellHeld (s : State) (c : Nat) : Bool :=
  (s.cell c).images.any fun i => s.barrierHold i.ctx

/-- The share with which a trickle thread begins to issue: full on a cell that issued a bundle during the preceding ramp step (R181). -/
def State.rampStart (s : State) (c : Nat) : Nat :=
  let x := s.cell c
  if 1 < s.rampStep ∧ (x.stepAt + 1 = s.rampStep ∨ x.stepBefore + 1 = s.rampStep) then 16 else 1

/-! ### The dispatcher (R178, R179) -/

/-- The trickle thread of a cell is idle. -/
def State.trIdle (s : State) (c : Nat) : Bool :=
  let x := s.cell c
  !x.tr.running && x.tr.work.isNone && !x.inReset && !x.failed && !s.replaying c

/-- The contexts in their turn after the last one served. -/
def State.turnOrder (s : State) : List (BitVec 6) :=
  (List.range 64).map fun k => s.tt.turn + BitVec.ofNat 6 (k + 1)

/-- The entry that the dispatcher gives out at cell c: of the next context in turn whose oldest entry can go. A context whose oldest entry
cannot run at the cell, or whose argument words lie in channels in reset (R133), is passed over, whatever stands behind it (R178; DESIGN CHOICE, log 167). -/
def State.dispatchPick (s : State) (c : Nat) : Option TrickleEntry :=
  s.turnOrder.findSome? fun x =>
    match s.tt.queue.find? fun e => e.ctx = x with
    | none => none
    | some e => if e.prefetch || (s.trIdle c && s.mayRun e.ctx e.mask.toNat e.bundle c && (e.ferry.isSome || !s.memWaits e.argAddr 64)) then some e else none

/-- The pieces of a prefetch on mover (n + j) mod 32 (R178). -/
def State.startPrefetch (s : State) (e : TrickleEntry) : State :=
  let c : MoverCmd := { kind := .prefetch, sq := e.sq, slot := e.slot, ctx := e.ctx, src := e.src, dst := e.dst, len := e.len,
                        trickleId := e.id }
  let ps := cutPieces c
  let s1 : State := { s with tt := { s.tt with running := s.tt.running ++ [(128, { e with left := ps.length })] } }
  s1.dispatchPieces e.sq false ps

/-- A program run starts on the trickle thread of a cell with its argument words (R114, R591); staged holds its first bundle back. -/
def State.startTrickle (s : State) (c : Nat) (e : TrickleEntry) (staged : Bool) : State :=
  let r := s.readArgs e.ctx e.argAddr
  match (if e.ferry.isSome then none else r.fail) with
  | some (stale, a) =>
    (r.st.trickleEnd e (.fault a (faultWhere c .tr e.bundle) (if stale then 0x01 else 0x80))).faultCtx e.ctx
  | none =>
    match (s.cell c).entryImage .tr e.ctx e.bundle with
    | none => s
    | some img =>
      let s0 := if e.ferry.isSome then s else r.st
      let args := if e.ferry.isSome then e.args else words64 r.bytes
      let s1 := s0.placeThread c .tr (.trickle e.id) e.ctx img e.bundle args s.time.tick
      let s2 := s1.updTh c .tr fun th => { th with staged := staged, share := if staged then 0 else s.rampStart c }
      ({ s2 with tt := { s2.tt with running := s2.tt.running ++ [(c, e)] } } : State).ready c .tr

/-- The dispatcher gives out one entry at cell c. -/
def State.dispatch (s : State) (c : Nat) (staged : Bool) : State :=
  match s.dispatchPick c with
  | none => s
  | some e =>
    let s1 : State := { s with tt := { s.tt with queue := s.tt.queue.erase e, turn := e.ctx } }
    if e.prefetch then s1.startPrefetch e else s1.startTrickle c e staged

/-- A staged entry may issue: the foreground thread waits inside a window of the cell, or no hold on the cell is left (R181). -/
def State.unstage (s : State) (c : Nat) : Bool :=
  let x := s.cell c
  let inside := s.tt.barriers.any fun b => b.holding && x.ofCtx b.ctx && decide (b.start ≤ s.time.tick)
    && decide (s.time.tick < b.start + b.len)
  !s.cellHeld c || (inside && x.fg.wait ≠ .none)

/-- A resumed trickle thread goes on: the array with the instruction it had suspended, issue with the next bundle that has something to do
(R65). -/
def State.trickleOn (s : State) (c : Nat) : State := (s.settleArray c).ready c .tr

/-- TRICKLE_DISPATCH (R65, R178, R179, R181): a suspended thread resumes in a gap, a staged one issues, or an idle one is given the next
entry; nothing is given out while the power controller sheds trickle work (DESIGN CHOICE, log 120). -/
def execTrickleDispatch (c : Fin 128) : State → Host.Outcome State Fault Refusal :=
  act fun s =>
    let x := s.cell c
    if !s.compute || s.pw.shed then s
    else if x.tr.running && x.tr.staged then
      if s.unstage c then ((s.updTh c .tr fun th => { th with staged := false, share := s.rampStart c }).ready c .tr) else s
    else if x.tr.running && x.tr.paused then
      if s.gap c then (s.updTh c .tr fun th => { th with paused := false, share := s.rampStart c }).trickleOn c else s
    else s.dispatch c (s.cellHeld c)

/-- TRICKLE_STOP (R64, R65): the trickle thread stops one tick before the awaited tick, or as the foreground goes on. -/
def execTrickleStop (c : Fin 128) : State → Host.Outcome State Fault Refusal :=
  act fun s =>
    if s.compute && (s.th c .tr).running && !s.gap c then
      (s.updTh c .tr fun th => { th with paused := true, share := 0 }).settleArray c
    else s

/-- BARRIER_HOLD_START (R181): the hold of a window begins, and an entry is staged on each cell of its context whose trickle thread
is idle. Windows that have ended are forgotten. -/
def execBarrierHoldStart (window : Nat) : State → Host.Outcome State Fault Refusal :=
  act fun s =>
    match s.windows[window]? with
    | none => s
    | some b =>
      if !s.compute || b.holding || !b.spans s.reserveTicks s.time.tick then s
      else
        let on : Barrier := { b with holding := true }
        let rest := s.tt.barriers.filter fun w => !(w.ctx = b.ctx && w.start = b.start && w.len = b.len)
          && decide (s.time.tick < w.start + w.len)
        let s1 : State := { s with tt := { s.tt with barriers := rest ++ [on] } }
        forEach (List.range 128) (fun s c =>
          if (s.cell c).ofCtx b.ctx && s.trIdle c && !s.pw.shed then s.dispatch c true else s) s1

/-- RAMP_STEP (R181): at tick counts that are multiples of step_ticks the share of every trickle thread that issues rises by 1/16. -/
def execRampStep : State → Host.Outcome State Fault Refusal :=
  act fun s =>
    if s.compute && s.time.tickSet && decide (s.time.tick % s.stepTicks = 0) then
      let up (th : ThreadSt) : ThreadSt :=
        if th.running && !th.paused && !th.staged && decide (0 < th.share) then { th with share := min 16 (th.share + 1) } else th
      { s with cells := s.cells.map fun e => (e.1, { e.2 with tr := up e.2.tr }) }
    else s

end Sys2Proof.Machine
end

