-- ==== Sys2Proof/WellFormed.lean ====
section
/-! DEFINITION. The commands a sender can form: the bounds that the operand types of Syntax do not carry. -/

namespace Sys2Proof

/-- A payload of a packet, a piece or a message of at most n bytes, in multiples of m. -/
def payloadOk (n m : Nat) (bs : List Byte) : Bool := decide (bs.length ≤ n) && decide (bs.length % m = 0)

/-- The command is one that a sender can form (R244 payloads of at most 4,096 bytes; R306 payloads of at most 4,096 bytes in
multiples of 4; R304 words 1 to 7 by the word write) (DESIGN CHOICE, log 148). -/
def Instr.wf : Instr → Bool
  | .hostRdData _ _ _ d => payloadOk 4096 1 d.bytes
  | .ethQWordWrite _ w _ => decide (w ≠ 0)
  | .resultChunk _ p => payloadOk 4096 4 p
  | .overflowToken _ p => payloadOk 4096 4 p
  | .refusal _ p => payloadOk 4096 4 p
  | .packetRoute _ _ ⟨some p, _⟩ => payloadOk 4096 4 p.payload
  | _ => true

end Sys2Proof
end

