-- ==== Sys2Proof/Machine/Ferry.lean ====
section
/-! DEFINITION. The Ferry (07, R188 to R220): sessions, placement banks and their swap, dispatch records, tickets, combine, overflow and
timeouts. -/

namespace Sys2Proof.Machine

/-! ### Placement entries (R191) -/

def plValid (e : Placement) : Bool := bitAt e 0
def plOvf (e : Placement) : Bool := bitAt e 1
/-- The home's module index. -/
def plHome (e : Placement) : Nat := fieldNat e 10 8 * 64 + fieldNat e 13 11 * 8 + fieldNat e 16 14
def plCell (e : Placement) : Nat := fieldNat e 23 17
def plBuf (e : Placement) : Nat := fieldNat e 44 24
def plQ (e : Placement) : Nat := fieldNat e 55 48
/-- The slot size in bytes. -/
def plSlot (e : Placement) : Nat := 64 * fieldNat e 63 56
def plSync (e : Placement) : Nat := fieldNat e 76 64
def plRing (e : Placement) : Nat := fieldNat e 127 80
def plSlots (e : Placement) : Nat := fieldNat e 143 128
def plBatch (e : Placement) : Nat := fieldNat e 151 144
def plBundle (e : Placement) : Nat := fieldNat e 163 152
/-- The cells that may run batches. -/
def plCells (e : Placement) : Nat := fieldNat e 175 168 * 2 ^ (8 * (plCell e / 8))

/-- A reserved field of an entry is nonzero, or a field is out of its range, whether or not the entry is valid (R193): a ring lies in LPDDR6
(DEDUCED, log 34). -/
def plBad (e : Placement) : Bool :=
  fieldNat e 7 2 ≠ 0 || fieldNat e 47 45 ≠ 0 || fieldNat e 79 77 ≠ 0 || fieldNat e 167 164 ≠ 0 || fieldNat e 255 176 ≠ 0
    || plBuf e % 64 ≠ 0 || plSlot e < 128 || 4096 < plSlot e || plRing e % 64 ≠ 0 || regionOf (plRing e) ≠ .lpddr || plSlots e = 0
    || plBatch e = 0

/-! ### Sessions (R188 to R190) -/

/-- The session of a context. -/
def State.session (s : State) (c : BitVec 6) : Option Session := s.fry.sessions.find? fun x => x.ctx = c

/-- The state with a session changed. -/
def State.updSession (s : State) (c : BitVec 6) (f : Session → Session) : State :=
  { s with fry := { s.fry with sessions := s.fry.sessions.map fun x => if x.ctx = c then f x else x } }

/-- An entry of a bank by its absolute number. -/
def State.placement (s : State) (bank : Bool) (i : Nat) : Placement := sget 0 (if bank then s.fry.bank1 else s.fry.bank0) i

/-- The state with entries of a bank written. -/
def State.putPlacements (s : State) (bank : Bool) (i : Nat) (es : List Placement) : State :=
  if bank then { s with fry := { s.fry with bank1 := ssetRun 0 s.fry.bank1 i es } }
  else { s with fry := { s.fry with bank0 := ssetRun 0 s.fry.bank0 i es } }

/-- Step a is later than step b (R194). -/
def later (a b : Nat) : Bool :=
  let d := (a + 65536 - b % 65536) % 65536
  decide (1 ≤ d) && decide (d ≤ 32767)

/-- The bank in which records of a step resolve (R194). -/
def Session.bank (x : Session) (step : Nat) : Bool :=
  match x.swapStep with
  | none => x.active
  | some st => if later st step then x.active else !x.active

/-! ### Tickets (R203 to R207) -/

/-- Open and overflow tickets of a context reach its cap. -/
def State.capped (s : State) (x : Session) : Bool :=
  x.openMax ≠ 0 && decide (x.openMax ≤ s.usedTickets fun t => t.ctx = x.ctx && t.cls ≠ .timetabled)

/-- A class has a ticket to give (R205). -/
def State.canTake (s : State) (x : Session) (k : TicketClass) (inst : Nat) : Bool :=
  match k with
  | .timetabled =>
    let r := sumOf ((s.tt.instances.filter fun i => i.id = inst).map fun i => i.object.tickets)
    decide (s.ttOf inst < r) || decide (s.ttExcess < s.ttMin - s.reserved) || decide (s.poolUsed < s.pool)
  | .open_ =>
    !s.capped x && (decide ((s.usedTickets fun t => t.cls = .open_) < s.openMin) || decide (s.poolUsed < s.pool))
  | .overflow => !s.capped x && decide ((s.usedTickets fun t => t.cls = .overflow) < s.ovfMin)

/-- The lowest free ticket. -/
def State.freeTicket (s : State) : Option Nat := firstFrom (fun k => (s.ticket k).state = .free) 1048576 0

/-- A ticket becomes free: its generation goes on (R203). -/
def State.ticketFree (s : State) (k : Nat) : State := (s.setTicket k { tgen := (s.ticket k).tgen + 1 }).ticketSignal

/-- The swap of a session completes once no ticket of its old bank is left; the new bank is copied over the other (R194). -/
def State.settleSwap (s : State) (c : BitVec 6) : State :=
  match s.session c with
  | none => s
  | some x =>
    if x.swapStep.isNone ∨ 0 < s.usedTickets (fun t => t.ctx = c && t.bank = x.active) then s
    else
      let s1 := s.putPlacements x.active x.pbase ((List.range x.pcount).map fun i => s.placement (!x.active) (x.pbase + i))
      (s1.updSession c fun x => { x with active := !x.active, swapStep := none }).finish x.swapJob.1 x.swapJob.2 { status := stOk }

/-- A ticket retires: the sync add, and it is free (R204). -/
def State.retireTicket (s : State) (k : Nat) : State :=
  let t := s.ticket k
  ((if t.syncEn then s.syncAddIf t.sync t.ctx 1 else s).ticketFree k).settleSwap t.ctx

/-- A ticket retires as lost: N in every record in add mode, canonical NaN in place mode, the sync add, and the count (R207). -/
def State.loseTicket (s : State) (k : Nat) : State :=
  let t := s.ticket k
  let s1 := if t.cmode then
      s.cellPut t.originCell (t.aux + t.k * t.rlen) ((List.range (t.rlen / 4)).flatMap fun _ => leBytes 4 0x7FC00000)
    else
      forEach (List.range (t.rlen / 16)) (fun s i =>
        let a := t.aux + 16 * i
        s.cellPut t.originCell a (leBytes 16 (Nat.lor (s.cellNat t.originCell a 16) (2 ^ 120)))) s
  ({ s1 with cnt := { s1.cnt with fryLost := satAdd 16 s1.cnt.fryLost 1 } }).retireTicket k

/-- Tickets of a context, or of an origin cell, freed without combine and sync add (R190, R214, R215); their number. -/
def State.dropTickets (s : State) (p : Ticket → Bool) : State × Nat :=
  let ks := (s.fry.tickets.filter fun e => e.2.state ≠ .free && p e.2).map (·.1)
  let cs := (ks.map fun k => (s.ticket k).ctx).eraseDups
  (forEach cs (fun s c => s.settleSwap c) (forEach ks (fun s k => s.ticketFree k) s), ks.length)

/-! ### FERRY_OPEN (R188 to R190) -/

/-- The action of FERRY_OPEN and FERRY_PLACE. -/
def fryAction (d : Line) : Nat := fieldNat d 129 128

/-- FERRY_OPEN open (R189, R190). -/
def State.ferryOpen (s : State) (sq slot : Nat) (d : Line) : State :=
  let c := (s.sq sq).ctx
  let pb := fieldNat d 157 144
  let pc := fieldNat d 174 160
  let base := fieldNat d 303 256
  let len := fieldNat d 351 320
  let clash := s.fry.sessions.any fun x => pb < x.pbase + x.pcount && x.pbase < pb + pc
  match lowestBad [(128, 2 ≤ fryAction d || (s.session c).isSome), (130, fieldNat d 143 130 ≠ 0),
      (144, clash || 16384 < pb + pc), (158, fieldNat d 159 158 ≠ 0), (160, pc = 0 || 16384 < pc), (175, bitAt d 175),
      (176, fieldNat d 201 192 ≤ fieldNat d 184 176), (185, fieldNat d 191 185 ≠ 0),
      (192, fieldNat d 201 192 = 0 || 512 < fieldNat d 201 192), (202, fieldNat d 223 202 ≠ 0), (244, fieldNat d 255 244 ≠ 0),
      (256, base % 64 ≠ 0 || (len ≠ 0 && (regionOf base ≠ .lpddr || s.capacity < base + len))), (304, fieldNat d 319 304 ≠ 0),
      (320, len % 64 ≠ 0), (352, fieldNat d 511 352 ≠ 0)] with
  | some b => s.complete sq slot d (badBit b)
  | none =>
    match s.pageFail c true false base len with
    | some a => s.completeFault sq slot d (pageFault a)
    | none =>
      let x : Session := { ctx := c, pbase := pb, pcount := pc, srcIndex := fieldNat d 184 176, nSrc := fieldNat d 201 192,
                           openMax := fieldNat d 243 224, parkBase := base, parkBytes := len }
      ({ s with fry := { s.fry with sessions := s.fry.sessions ++ [x] } }).complete sq slot d { status := stOk }

/-- The session of a context closes (R190): its tickets retire without combine and sync add, its entries are cleared in both banks. The
number of tickets that were in flight. -/
def State.closeSession (s : State) (c : BitVec 6) : State × Nat :=
  match s.session c with
  | none => (s, 0)
  | some x =>
    let r := s.dropTickets fun t => t.ctx = c
    let f := r.1.fry
    ({ r.1 with fry := { f with
        sessions := f.sessions.filter (fun y => y.ctx ≠ c), bank0 := sclear f.bank0 x.pbase (x.pbase + x.pcount),
        bank1 := sclear f.bank1 x.pbase (x.pbase + x.pcount), lastStep := sclear f.lastStep x.pbase (x.pbase + x.pcount),
        rings := f.rings.filter fun r => r.ctx ≠ c } }, r.2)

/-- FERRY_OPEN_OPEN (R190); a reserved action is answered here too. -/
def execFerryOpenOpen (sq : Fin 256) : State → Host.Outcome State Fault Refusal :=
  act fun s => s.startRow sq 0x0F (fun d => fryAction d ≠ 1) fun s slot d => s.ferryOpen sq slot d

/-- FERRY_OPEN_CLOSE (R190). -/
def execFerryOpenClose (sq : Fin 256) : State → Host.Outcome State Fault Refusal :=
  act fun s => s.startRow sq 0x0F (fun d => fryAction d = 1) fun s slot d =>
    match lowestBad [(130, fieldNat d 143 130 ≠ 0), (144, fieldNat d 157 144 ≠ 0), (158, fieldNat d 159 158 ≠ 0),
        (160, fieldNat d 174 160 ≠ 0), (175, bitAt d 175), (176, fieldNat d 184 176 ≠ 0), (185, fieldNat d 191 185 ≠ 0),
        (192, fieldNat d 201 192 ≠ 0), (202, fieldNat d 223 202 ≠ 0), (224, fieldNat d 243 224 ≠ 0), (244, fieldNat d 255 244 ≠ 0),
        (256, fieldNat d 303 256 ≠ 0), (304, fieldNat d 319 304 ≠ 0), (320, fieldNat d 351 320 ≠ 0), (352, fieldNat d 511 352 ≠ 0)] with
    | some b => s.complete sq slot d (badBit b)
    | none =>
      let r := s.closeSession (s.sq sq).ctx
      r.1.complete sq slot d (if r.2 = 0 then { status := stOk } else { status := stPartial, r0 := r.2 })

/-! ### FERRY_PLACE (R192 to R194) -/

/-- The entries read for a write, into the inactive bank or refused as a whole (R193). -/
def State.placeEntries (s : State) (sq slot : Nat) (d : Line) (x : Session) (bs : List Byte) : State :=
  let es := (chunks 32 bs).map fun b => (BitVec.ofNat 256 (leNat b) : Placement)
  if es.any fun e => plBad e || (plValid e && !s.inSliceOf x.ctx.toNat (plHome e)) then s.complete sq slot d (badBit 176)
  else (s.putPlacements (!x.active) (x.pbase + fieldNat d 157 144) es).complete sq slot d { status := stOk }

/-- FERRY_PLACE write (R193). -/
def State.placeWrite (s : State) (sq slot : Nat) (d : Line) : State :=
  let c := (s.sq sq).ctx
  let n := fieldNat d 174 160
  let src := fieldNat d 223 176
  let len := 32 * n
  let over_ := match s.session c with
    | some x => decide (x.pcount < fieldNat d 157 144 + n)
    | none => false
  match lowestBad [(128, 2 ≤ fryAction d || (s.session c).isNone), (130, fieldNat d 143 130 ≠ 0), (144, over_),
      (158, fieldNat d 159 158 ≠ 0), (160, n = 0 || 16384 < n), (175, bitAt d 175),
      (176, src % 64 ≠ 0 || regionOf src ≠ .lpddr || s.capacity < src + len), (224, fieldNat d 239 224 ≠ 0),
      (240, fieldNat d 511 240 ≠ 0)], s.session c with
  | some b, _ => s.complete sq slot d (badBit b)
  | none, none => s.complete sq slot d (badBit 128)
  | none, some x =>
    if x.swapStep.isSome then s.complete sq slot d { status := stBusy }
    else
      match s.pageFail c false false src len with
      | some a => s.completeFault sq slot d (pageFault a)
      | none =>
        match s.moduleRead c src len with
        | (s1, .error r) => s1.endDesc sq slot d r
        | (s1, .ok bs) => s1.placeEntries sq slot d x bs

/-- FERRY_PLACE_WRITE (R193); a reserved action is answered here too. -/
def execFerryPlaceWrite (sq : Fin 256) : State → Host.Outcome State Fault Refusal :=
  act fun s => s.startRow sq 0x0E (fun d => fryAction d ≠ 1 && !s.memWaits (fieldNat d 223 176) (32 * fieldNat d 174 160)) fun s slot d => s.placeWrite sq slot d

/-- FERRY_PLACE swap (R194). -/
def State.placeSwap (s : State) (sq slot : Nat) (d : Line) : State :=
  let c := (s.sq sq).ctx
  let st := fieldNat d 239 224
  let early := match (s.session c).bind (·.lastStep) with
    | some l => !later st l
    | none => false
  match lowestBad [(128, (s.session c).isNone), (130, fieldNat d 143 130 ≠ 0), (144, fieldNat d 157 144 ≠ 0),
      (158, fieldNat d 159 158 ≠ 0), (160, fieldNat d 174 160 ≠ 0), (175, bitAt d 175), (176, fieldNat d 223 176 ≠ 0),
      (240, fieldNat d 511 240 ≠ 0)], s.session c with
  | some b, _ => s.complete sq slot d (badBit b)
  | none, none => s.complete sq slot d (badBit 128)
  | none, some x =>
    if x.swapStep.isSome then s.complete sq slot d { status := stBusy }
    else if early then s.complete sq slot d (badBit 224)
    else
      ((s.startJob sq slot d .swap).updSession c fun x => { x with swapStep := some st, swapJob := (sq, slot) }).settleSwap c

/-- FERRY_PLACE_SWAP (R194). -/
def execFerryPlaceSwap (sq : Fin 256) : State → Host.Outcome State Fault Refusal :=
  act fun s => s.startRow sq 0x0E (fun d => fryAction d = 1) fun s slot d => s.placeSwap sq slot d

/-! ### Dispatch records (R195, R196) -/

def rcKind (r : Line) : Nat := fieldNat r 3 0
def rcTt (r : Line) : Bool := bitAt r 4
def rcPlace (r : Line) : Bool := bitAt r 5
def rcExpert (r : Line) : Nat := fieldNat r 21 8
def rcK (r : Line) : Nat := fieldNat r 26 24
def rcStep (r : Line) : Nat := fieldNat r 47 32
def rcCount (r : Line) : Nat := fieldNat r 61 48
def rcData (r : Line) : Nat := fieldNat r 84 64
def rcAux (r : Line) : Nat := fieldNat r 116 96
def rcLen (r : Line) : Nat := fieldNat r 144 128
def rcSync (r : Line) : Nat := fieldNat r 172 160
def rcSyncEn (r : Line) : Bool := bitAt r 173
def rcFlow (r : Line) : Nat := fieldNat r 187 176
def rcRlen (r : Line) : Nat := fieldNat r 272 256

/-- A reserved field of the record is nonzero, or flow is without cls. -/
def rcReserved (r : Line) : Bool :=
  fieldNat r 7 6 ≠ 0 || fieldNat r 23 22 ≠ 0 || fieldNat r 31 27 ≠ 0 || fieldNat r 63 62 ≠ 0 || fieldNat r 95 85 ≠ 0
    || fieldNat r 127 117 ≠ 0 || fieldNat r 159 145 ≠ 0 || fieldNat r 175 174 ≠ 0 || fieldNat r 191 188 ≠ 0
    || fieldNat r 479 273 ≠ 0 || (!rcTt r && rcFlow r ≠ 0)

/-- The front of a cell's queue is a record that the Ferry has not taken: the entry and the record as it stands in cell memory. -/
def State.record (s : State) (c : Nat) : Option (MvEntry × Line) :=
  match (s.cell c).mvq with
  | [] => none
  | e :: _ =>
    if e.kind = .ferry ∧ !e.done ∧ !s.fry.inReset ∧ s.compute ∧ !(s.cell c).inReset then
      some (e, BitVec.ofNat 512 (s.cellNat c e.addr 64))
    else none

/-- The status is written and the record counts as read (R196); a HELD is counted. -/
def State.recordDone (s : State) (c : Nat) (e : MvEntry) (status : Nat) : State :=
  let s1 := (s.cellPut c (e.addr + 60) (leBytes 4 status)).updFront c fun e => { e with done := true }
  { s1 with fry := { s1.fry with progress := s1.now },
            cnt := { s1.cnt with fryHeld := if status = 0x04 then satAdd 16 s1.cnt.fryHeld 1 else s1.cnt.fryHeld } }

/-- The session that serves a record: none during a tenant's removal (R215). -/
def State.serving (s : State) (c : BitVec 6) : Option Session := if (s.ctx c.toNat).stopped then none else s.session c

/-- A timetabled record has no flow at its cell, or comes from the trickle thread (R196). -/
def State.noFlow (s : State) (c : Nat) (e : MvEntry) (r : Line) : Bool :=
  rcTt r && (e.thread = .tr || (s.flowOwner e.ctx c (rcFlow r)).isNone)

/-! ### Token records (R197 to R199, R211) -/

/-- A token record with a field out of range (R195, R196) (DEDUCED, log 99). -/
def tokenBad (r : Line) : Bool :=
  rcKind r ≠ 1 || rcReserved r || rcCount r ≠ 0 || rcData r % 64 ≠ 0 || rcAux r % 16 ≠ 0 || rcLen r < 64 || 4032 < rcLen r
    || rcLen r % 64 ≠ 0 || rcRlen r < 16 || 65536 < rcRlen r || rcRlen r % 16 ≠ 0 || 0x200000 < rcData r + rcLen r
    || 0x200000 < rcAux r + (if rcPlace r then (rcK r + 1) * rcRlen r else rcRlen r)

/-- The slot header of a token (R199). -/
def State.slotHeader (s : State) (k : Nat) (t : Ticket) (gate index : Nat) : Line :=
  let o := idxXYZ s.selfIdx
  BitVec.ofNat 512 (k + t.tgen.toNat * 2 ^ 20 + s.fry.gen.toNat * 2 ^ 28 + o.1 * 2 ^ 36 + o.2.1 * 2 ^ 39 + o.2.2 * 2 ^ 42
    + t.bank.toNat * 2 ^ 45 + 2 ^ 46 + t.step * 2 ^ 48 + t.expert * 2 ^ 64 + t.k * 2 ^ 78 + gate * 2 ^ 96 + index * 2 ^ 128
    + t.rlen * 2 ^ 160)

/-- The address of slot j of an entry's step buffer in its home cell (R198). -/
def slotAddr (e : Placement) (nSrc j : Nat) : Nat := plBuf e + ceilDiv (4 * nSrc) 64 * 64 + j * plSlot e

/-- The ticket of a token record (DESIGN CHOICE, log 97). -/
def State.newTicket (s : State) (x : Session) (c : Nat) (e : Placement) (r : Line) (cls : TicketClass) (inst k : Nat) : Ticket :=
  { state := if cls = .overflow then .parked else .issued, cls := cls, ctx := x.ctx, tgen := (s.ticket k).tgen,
    bank := x.bank (rcStep r), cmode := rcPlace r, k := rcK r, expert := rcExpert r, home := plHome e, homeCell := plCell e,
    instance_ := inst, originCell := c, aux := rcAux r, step := rcStep r, rlen := rcRlen r, sync := rcSync r, syncEn := rcSyncEn r }

/-- A run of free space in a park region for n bytes, lowest first (R211). -/
def State.parkSpace (s : State) (x : Session) (n : Nat) : Option Nat :=
  let held := (s.fry.tickets.filter fun e => e.2.ctx = x.ctx && e.2.state = .parked && e.2.parkLen ≠ 0).map fun e => (e.2.park, e.2.parkLen)
  ((sortBy id (x.parkBase :: held.map fun h => h.1 + h.2)).filter fun a =>
    decide (x.parkBase ≤ a) && decide (a + n ≤ x.parkBase + x.parkBytes)
      && held.all fun h => decide (a + n ≤ h.1) || decide (h.1 + h.2 ≤ a)).head?

/-- Token bytes parked (R211); none without space, or where the region's pages no longer allow the write (R129). -/
def State.parkToken (s : State) (x : Session) (k : Nat) (t : Ticket) (bs : List Byte) : Option State :=
  match s.parkSpace x bs.length with
  | none => none
  | some a =>
    if (s.pageFail x.ctx true false a bs.length).isSome then none
    else
      match s.writeBytes x.ctx (s.ctxSlot x.ctx.toNat) false false a bs with
      | (_, some _) => none
      | (s1, none) => some (s1.setTicket k { t with state := .parked, park := a, parkLen := bs.length })

/-- FRY_TKT_TIMEOUT.ovf_ms in ticks (R217). -/
def State.ovfTicks (s : State) : Nat := msTicks (max 1 (s.fld 0x500020 9 16))

/-- The step of a dispatched token noted for its entry and session (R194, R197). -/
def State.noteStep (s : State) (x : Session) (i step count : Nat) : State :=
  let s1 : State := { s with fry := { s.fry with lastStep := sset (0, 0) s.fry.lastStep i (step + 1, count) } }
  s1.updSession x.ctx fun x => { x with lastStep := match x.lastStep with
    | some l => if later step l then some step else some l
    | none => some step }

/-- A step-buffer token is sent in slot j (R197, R198). -/
def State.sendSlot (s : State) (x : Session) (c : Nat) (e : Placement) (r : Line) (k : Nat) (t : Ticket) (j : Nat) : State :=
  let hdr := s.slotHeader k t (fieldNat r 223 192) (fieldNat r 255 224)
  (s.setTicket k t).sendToken
    { cls := if rcTt r then clsTt else clsOpen, dstEp := plCell e, dst := plHome e, raddr := cellAddr (plCell e) (slotAddr e x.nSrc j),
      srcEp := 160, gen := s.fry.gen.toNat, ctx := x.ctx, keySlot := s.ctxSlot x.ctx.toNat, flow := rcFlow r,
      payload := leBytes 64 hdr.toNat ++ s.cellGet c (rcData r) (rcLen r) } false (k, t.tgen)

/-- The path of a token record (R197): the state and the status. -/
def State.token (s : State) (c : Nat) (q : MvEntry) (r : Line) : State × Nat :=
  if tokenBad r then (s, 0x10)
  else
    match s.serving q.ctx with
    | none => (s, 0x11)
    | some x =>
      let i := x.pbase + rcExpert r
      let bank := x.bank (rcStep r)
      let e := s.placement bank i
      let last := sget (0, 0) s.fry.lastStep i
      let count := if last.1 = rcStep r + 1 then last.2 else 0
      if x.pcount ≤ rcExpert r ∨ !plValid e then (s, 0x11)
      else if plSlot e < 64 + rcLen r then (s, 0x10)
      else if !s.inSliceOf q.ctx.toNat (plHome e) then (s, 0x12)
      else if s.noFlow c q r then (s, 0x13)
      else if last.1 ≠ 0 ∧ later (last.1 - 1) (rcStep r) then (s, 0x14)
      else if count < plQ e then
        let cls : TicketClass := if rcTt r then .timetabled else .open_
        let inst := if rcTt r then ((s.flowOwner q.ctx c (rcFlow r)).map (·.id)).getD 0 else 0
        match s.canTake x cls inst, s.freeTicket with
        | true, some k =>
          let s1 := s.noteStep x i (rcStep r) (count + 1)
          let s2 := s1.sendSlot x c e r k (s.newTicket x c e r cls inst k) (x.srcIndex * plQ e + count)
          (s2.ticketSignal, if rcTt r then 0x01 else 0x03)
        | _, _ => (s, 0x04)
      else if !plOvf e then (s, 0x04)
      else
        match s.canTake x .overflow 0, s.freeTicket with
        | true, some k =>
          let t := { s.newTicket x c e r .overflow 0 k with due := s.time.tick + s.ovfTicks }
          let hdr := s.slotHeader k t (fieldNat r 223 192) (fieldNat r 255 224)
          match s.parkToken x k t (leBytes 64 hdr.toNat ++ s.cellGet c (rcData r) (rcLen r)) with
          | some s1 => ((s1.noteStep x i (rcStep r) count).ticketSignal, 0x02)
          | none => (s, 0x04)
        | _, _ => (s, 0x04)

/-- FERRY_TOKEN_RECORD (R196, R197); a record of a reserved kind is answered here too. -/
def execFerryTokenRecord (c : Fin 128) : State → Host.Outcome State Fault Refusal :=
  act fun s =>
    match s.record c with
    | none => s
    | some (e, r) =>
      if rcKind r = 2 ∨ rcKind r = 3 then s
      else
        let t := s.token c e r
        t.1.recordDone c e t.2

/-! ### Close records (R201) -/

/-- A close record with a field out of range, or one that a close does not use. -/
def closeBad (r : Line) : Bool :=
  rcReserved r || rcPlace r || rcK r ≠ 0 || rcCount r = 0 || rcData r ≠ 0 || rcAux r ≠ 0 || rcLen r ≠ 0 || rcSync r ≠ 0 || rcSyncEn r
    || fieldNat r 255 192 ≠ 0 || rcRlen r ≠ 0

/-- A close record: the state and the status. -/
def State.closeRecord (s : State) (c : Nat) (q : MvEntry) (r : Line) : State × Nat :=
  if closeBad r then (s, 0x10)
  else
    match s.serving q.ctx with
    | none => (s, 0x11)
    | some x =>
      if x.pcount < rcExpert r + rcCount r then (s, 0x11)
      else
        let es := ((List.range (rcCount r)).map fun i => s.placement (x.bank (rcStep r)) (x.pbase + rcExpert r + i)).filter plValid
        if es.any fun e => !s.inSliceOf q.ctx.toNat (plHome e) then (s, 0x12)
        else if s.noFlow c q r then (s, 0x13)
        else
          (forEach es (fun s e =>
            s.send { cls := if rcTt r then clsTt else clsOpen, dstEp := plCell e, dst := plHome e, ordered := true,
                     raddr := cellAddr (plCell e) (plBuf e + 4 * x.srcIndex), srcEp := 160, gen := s.fry.gen.toNat, ctx := x.ctx,
                     keySlot := s.ctxSlot x.ctx.toNat, flow := rcFlow r, rsync := plSync e, rsyncEn := true,
                     payload := leBytes 4 (rcStep r) } false none) s, 0x05)

/-- FERRY_CLOSE_RECORD (R201). -/
def execFerryCloseRecord (c : Fin 128) : State → Host.Outcome State Fault Refusal :=
  act fun s =>
    match s.record c with
    | none => s
    | some (e, r) =>
      if rcKind r ≠ 2 then s
      else
        let t := s.closeRecord c e r
        t.1.recordDone c e t.2

/-! ### Result records (R202) -/

/-- A result record with a field out of range, or one that a result does not use. -/
def resultBad (r : Line) : Bool :=
  rcReserved r || rcPlace r || rcExpert r ≠ 0 || rcK r ≠ 0 || rcStep r ≠ 0 || rcCount r ≠ 0 || rcData r % 64 ≠ 0 || rcAux r % 64 ≠ 0
    || rcLen r < 16 || 65536 < rcLen r || rcLen r % 16 ≠ 0 || fieldNat r 255 192 ≠ 0 || rcRlen r ≠ 0
    || 0x200000 < rcData r + rcLen r || 0x200000 < rcAux r + 64

/-- A result record: the state and the status. -/
def State.resultRecord (s : State) (c : Nat) (q : MvEntry) (r : Line) : State × Nat :=
  let h : Line := BitVec.ofNat 512 (s.cellNat c (rcAux r) 64)
  let dst := fieldNat h 38 36 * 64 + fieldNat h 41 39 * 8 + fieldNat h 44 42
  if resultBad r then (s, 0x10)
  else
    match s.serving q.ctx with
    | none => (s, 0x11)
    | some x =>
      if !bitAt h 46 ∨ rcLen r ≠ fieldNat h 176 160 then (s, 0x10)
      else if !s.inSliceOf q.ctx.toNat dst then (s, 0x12)
      else if s.noFlow c q r then (s, 0x13)
      else
        let s1 := forEach ((chunks 4096 (s.cellGet c (rcData r) (rcLen r))).zipIdx) (fun s p =>
          s.send { cls := if rcTt r then clsTt else clsOpen, dstEp := 160, dst := dst, reply := true,
                   raddr := fieldNat h 27 0 + p.2 * 2 ^ 28 + 2 ^ 32, srcEp := 160, gen := fieldNat h 35 28, ctx := x.ctx,
                   keySlot := s.ctxSlot x.ctx.toNat, flow := rcFlow r, payload := p.1 } false none) s
        (if rcSyncEn r then s1.syncAddIf (rcSync r) q.ctx 1 else s1, 0x05)

/-- FERRY_RESULT_RECORD (R202). -/
def execFerryResultRecord (c : Fin 128) : State → Host.Outcome State Fault Refusal :=
  act fun s =>
    match s.record c with
    | none => s
    | some (e, r) =>
      if rcKind r ≠ 3 then s
      else
        let t := s.resultRecord c e r
        t.1.recordDone c e t.2

/-! ### Packets for endpoint 160 (R200, R208, R209) -/

/-- The Ferry takes a delivered packet: it leaves the endpoint's input. -/
def State.takeLocal (s : State) (p : Packet) : State := { s with fab := { s.fab with local_ := s.fab.local_.erase p } }

/-- A packet dropped as stale (R209). -/
def State.fryStale (s : State) : State := { s with cnt := { s.cnt with fryStale := satAdd 16 s.cnt.fryStale 1 } }

def raTicket (h : Line) : Nat := hRaddr h % 2 ^ 20
def raTgen (h : Line) : Nat := hRaddr h / 2 ^ 20 % 256
def raChunk (h : Line) : Nat := hRaddr h / 2 ^ 28 % 16
def raKind (h : Line) : Nat := hRaddr h / 2 ^ 32 % 16

/-- The length of chunk i of a result of n bytes. -/
def chunkLen (n i : Nat) : Nat := min 4096 (n - 4096 * i)

/-- A result packet fails a check of R209. -/
def State.resultStale (s : State) (h : Line) (len : Nat) : Bool :=
  let t := s.ticket (raTicket h)
  hGen h ≠ s.fry.gen.toNat || t.state = .free || t.tgen.toNat ≠ raTgen h || (t.state ≠ .sent && t.state ≠ .combining)
    || hKeySlot h ≠ s.ctxSlot t.ctx.toNat || hKeyGen h ≠ s.slotGen (s.ctxSlot t.ctx.toNat)
    || decide (ceilDiv t.rlen 4096 ≤ raChunk h) || bitAt t.rmask (raChunk h) || len ≠ chunkLen t.rlen (raChunk h)

/-- Records added into the records of a cell (R40). -/
def State.addRecords (s : State) (a : Nat) (bs : List Byte) : State :=
  { s with mem := ((chunks 16 bs).zipIdx).foldl (fun m p =>
      let at_ := a + 16 * p.2
      let old : Acc := ({} : Acc).addRecord (BitVec.ofNat 128 (leNat (memGet m at_ 16)))
      memPut m at_ (leBytes 16 (old.addRecord (BitVec.ofNat 128 (leNat p.1))).record.toNat)) s.mem }

/-- RESULT_CHUNK (R208, R209): combined by the ticket's mode; with its last chunk the ticket retires. A packet of a reserved kind is
dropped here too (R200) (DESIGN CHOICE, log 102). -/
def execResultChunk (hdr : BitVec 512) (payload : List (BitVec 8)) : State → Host.Outcome State Fault Refusal :=
  actIf (payloadOk 4096 4 payload) fun s0 =>
    let s := s0.takeLocal { hdr := hdr, payload := payload }
    if s.fry.inReset ∨ !s.compute then s0
    else if raKind hdr ≠ 1 then (if raKind hdr = 2 ∨ raKind hdr = 3 then s0 else s.fryStale)
    else if s.resultStale hdr payload.length then s.fryStale
    else
      let k := raTicket hdr
      let t := s.ticket k
      let i := raChunk hdr
      let s1 := if t.cmode then s.cellPut t.originCell (t.aux + t.k * t.rlen + 4096 * i) payload
        else s.addRecords (cellAddr t.originCell (t.aux + 4096 * i)) payload
      let mask := t.rmask ||| BitVec.ofNat 16 (2 ^ i)
      let s2 := s1.setTicket k { t with state := .combining, rmask := mask }
      let s3 : State := { s2 with fry := { s2.fry with progress := s2.now } }
      if mask.toNat + 1 = 2 ^ ceilDiv t.rlen 4096 then s3.retireTicket k else s3

/-! ### Overflow (R211 to R213, R218) -/

/-- A parked token goes to its home at trickle rank; a memory error or tag mismatch in the park region loses it (R211, R213). It stays parked
until its packet has left (R204). -/
def State.sendParked (s : State) (k : Nat) : State :=
  let t := s.ticket k
  let r := s.readBytes t.ctx (s.ctxSlot t.ctx.toNat) false t.park t.parkLen
  if r.fail.isSome then r.st.loseTicket k
  else
    (r.st.setTicket k { t with leaving := true }).sendToken
      { cls := clsOpen, dstEp := 160, dst := t.home, raddr := 2 * 2 ^ 32, srcEp := 160, gen := s.fry.gen.toNat, ctx := t.ctx,
        keySlot := s.ctxSlot t.ctx.toNat, payload := r.bytes } true (k, t.tgen)

/-- A parked ticket has bytes to send, is not on its way already, and its lines do not lie in channels in reset (R133). -/
def State.parkReady (s : State) (t : Ticket) : Bool :=
  t.state = .parked && !t.leaving && t.parkLen ≠ 0 && !s.memWaits t.park t.parkLen && s.compute && !s.fry.inReset

/-- PARKED_TOKEN_SEND (R211). -/
def execParkedTokenSend (ticket : BitVec 20) : State → Host.Outcome State Fault Refusal :=
  act fun s =>
    let t := s.ticket ticket.toNat
    if s.parkReady t ∧ t.retryAt = 0 then s.sendParked ticket.toNat else s

/-- The overflow ring that an entry names. -/
def State.ring (s : State) (c : BitVec 6) (i : Nat) (e : Placement) : OvfRing :=
  match s.fry.rings.find? fun r => r.ctx = c && r.entry = i && plRing r.place = plRing e with
  | some r => { r with place := e }
  | none => { ctx := c, entry := i, place := e }

/-- The state with an overflow ring replaced. -/
def State.setRing (s : State) (r : OvfRing) : State :=
  let rest := s.fry.rings.filter fun x => !(x.ctx = r.ctx && x.entry = r.entry && plRing x.place = plRing r.place)
  { s with fry := { s.fry with rings := rest ++ [r] } }

/-- The address of a slot of a ring. -/
def OvfRing.slotAt (r : OvfRing) (j : Nat) : Nat := plRing r.place + j * plSlot r.place

/-- The waiting tokens of a ring before and after the first whose slot fails its read: the state, those before, that one, those after (R213). -/
def State.readRing (s : State) (r : OvfRing) : List (Nat × Nat) → State × List (Nat × Nat) × Option (Nat × Nat) × List (Nat × Nat)
  | [] => (s, [], none, [])
  | w :: ws =>
    let q := s.readBytes r.ctx (s.ctxSlot r.ctx.toNat) false (r.slotAt w.1) w.2
    if q.fail.isSome then (q.st, [], some w, ws)
    else
      let t := q.st.readRing r ws
      (t.1, w :: t.2.1, t.2.2.1, t.2.2.2)

/-- Trickle runs of the waiting tokens of a ring are queued, or blocked by a full queue (R212). A token whose slot fails its read is dropped,
its loss counted, and ends the batch before it (R213) (DESIGN CHOICE, log 176). -/
def State.queueBatch : Nat → State → OvfRing → State
  | 0, s, _ => s
  | n + 1, s, r =>
    match r.waiting with
    | [] => s
    | _ =>
      if 4096 ≤ s.tt.queue.length ∨ r.waiting.any (fun w => s.memWaits (r.slotAt w.1) w.2) then s.setRing { r with blocked := true }
      else
        let q := s.readRing r r.waiting
        let run := q.2.1
        let dropped := (q.2.2.1.map (·.1)).toList
        let r1 : OvfRing := { r with waiting := q.2.2.2, blocked := false, taken := r.taken.filter fun j => !dropped.contains j }
        let s1 : State := { q.1 with cnt := { q.1.cnt with fryLost := if q.2.2.1.isSome then satAdd 16 q.1.cnt.fryLost 1 else q.1.cnt.fryLost } }
        let t : TrickleEntry := { id := s.tt.nextId, ctx := r.ctx, bundle := plBundle r.place, mask := BitVec.ofNat 128 (plCells r.place),
                                  args := [BitVec.ofNat 64 (r.slotAt ((run.map (·.1)).headD 0)), BitVec.ofNat 64 run.length,
                                           BitVec.ofNat 64 r.entry],
                                  ferry := some { entry := r.entry, base := plRing r.place, slots := run.map (·.1) } }
        let s2 : State := if run.isEmpty then s1 else { s1 with tt := { s1.tt with queue := s1.tt.queue ++ [t], nextId := s1.tt.nextId + 1 } }
        (s2.setRing r1).queueBatch n r1

/-- The waiting tokens of a ring go into the trickle queue. -/
def State.queueRing (s : State) (r : OvfRing) : State := s.queueBatch (r.waiting.length + 1) r

/-- A refusal of an overflow token goes back to its origin with the token (R212; DESIGN CHOICE, log 35); reply is 0, which results alone set
(R449). -/
def State.refuse (s : State) (h sh : Line) (payload : List Byte) : State :=
  s.send { cls := clsOpen, dstEp := 160, dst := fieldNat sh 38 36 * 64 + fieldNat sh 41 39 * 8 + fieldNat sh 44 42,
           raddr := fieldNat sh 27 0 + 3 * 2 ^ 32, srcEp := 160, gen := fieldNat sh 35 28, ctx := hCtx h, keySlot := hKeySlot h,
           payload := payload } false none

/-- OVERFLOW_TOKEN (R212): refused where the home's own entry does not take it, else appended to its ring, with a run queued when a batch
waits. A failed page check drops it, counted as at a mover (R311; DEDUCED, log 36). -/
def execOverflowToken (hdr : BitVec 512) (payload : List (BitVec 8)) : State → Host.Outcome State Fault Refusal :=
  actIf (payloadOk 4096 4 payload) fun s0 =>
    let s := s0.takeLocal { hdr := hdr, payload := payload }
    let sh : Line := BitVec.ofNat 512 (leNat (payload.take 64))
    let c := hCtx hdr
    let i := fieldNat sh 77 64
    if s.fry.inReset ∨ !s.compute ∨ raKind hdr ≠ 2 then s0
    else
      match s.serving c with
      | none => s.refuse hdr sh payload
      | some x =>
        let e := s.placement (bitAt sh 45) (x.pbase + i)
        let r := s.ring c i e
        if x.pcount ≤ i ∨ !plValid e ∨ plHome e ≠ s.selfIdx ∨ plSlots e ≤ r.head ∨ r.taken.contains r.head ∨ plSlot e < payload.length then
          s.refuse hdr sh payload
        else
          let a := r.slotAt r.head
          if s.memWaits a payload.length then s0
          else if (s.pageFail c true false a payload.length).isSome ∨ s.capacity < a + payload.length ∨ s.ctxSlot c.toNat ≠ hKeySlot hdr then
            s.cntBadDest
          else
            let s1 := (s.writeBytes c (hKeySlot hdr) false false a payload).1
            let r' : OvfRing := { r with head := (r.head + 1) % plSlots e, taken := r.taken ++ [r.head],
                                         waiting := r.waiting ++ [(r.head, payload.length)], lastArrival := s.now }
            let s2 := s1.setRing r'
            if plBatch e ≤ r'.waiting.length then s2.queueRing r' else s2

/-- REFUSAL (R212, R218): the expert resolved again in the current active bank, the ticket parked under the result, and tried again after
retry_frames. Its overflow timeout goes on from its first parking, and where the park region has no room for it, it ends the ticket as lost
(DEDUCED, log 37). -/
def execRefusal (hdr : BitVec 512) (payload : List (BitVec 8)) : State → Host.Outcome State Fault Refusal :=
  actIf (payloadOk 4096 4 payload) fun s0 =>
    let s := s0.takeLocal { hdr := hdr, payload := payload }
    let k := raTicket hdr
    let t := s.ticket k
    if s.fry.inReset ∨ !s.compute ∨ raKind hdr ≠ 3 then s0
    else if hGen hdr ≠ s.fry.gen.toNat ∨ t.state ≠ .sent ∨ t.cls ≠ .overflow ∨ t.tgen.toNat ≠ raTgen hdr
        ∨ hKeySlot hdr ≠ s.ctxSlot t.ctx.toNat ∨ hKeyGen hdr ≠ s.slotGen (s.ctxSlot t.ctx.toNat) then s.fryStale
    else
      let s1 : State := { s with cnt := { s.cnt with fryRefused := satAdd 16 s.cnt.fryRefused 1 } }
      match s1.session t.ctx with
      | none => s1.loseTicket k
      | some x =>
        let e := s1.placement x.active (x.pbase + t.expert)
        let sh : Line := BitVec.ofNat 512 (leNat (payload.take 64))
        let sh' := putField sh 45 1 x.active.toNat
        let retry := s1.time.tick + frameTicks * max 1 (s1.fld 0x500030 0 4)
        let t' : Ticket := { t with bank := x.active, home := if plValid e then plHome e else t.home,
                                    homeCell := if plValid e then plCell e else t.homeCell, retryAt := retry }
        match s1.parkToken x k t' (leBytes 64 sh'.toNat ++ payload.drop 64) with
        | some s2 => s2.settleSwap t.ctx
        | none => s1

/-- OVERFLOW_RETRY_TIMER (R212, R218): retry_frames after a refusal the token is sent again. -/
def execOverflowRetryTimer (ticket : BitVec 20) : State → Host.Outcome State Fault Refusal :=
  act fun s =>
    let t := s.ticket ticket.toNat
    if s.parkReady t ∧ 0 < t.retryAt ∧ t.retryAt ≤ s.time.tick then s.sendParked ticket.toNat else s

/-- OVERFLOW_IDLE_TIMER (R212, R218): idle_frames without an arrival, a partial batch is queued. -/
def execOverflowIdleTimer (ctx : BitVec 6) (entry : Nat) : State → Host.Outcome State Fault Refusal :=
  act fun s =>
    if !s.compute ∨ s.fry.inReset then s
    else
      forEach (s.fry.rings.filter fun r => r.ctx = ctx && r.entry = entry
          && decide (r.lastArrival + frameTicks * max 1 (s.fld 0x500030 4 4) ≤ s.now)) (fun s r => s.queueRing r) s

/-- OVERFLOW_QUEUE_RETRY (R212): each link frame the batches that a full trickle queue blocked are tried again. -/
def execOverflowQueueRetry : State → Host.Outcome State Fault Refusal :=
  act fun s =>
    if !s.compute ∨ s.fry.inReset then s else forEach (s.fry.rings.filter (·.blocked)) (fun s r => s.queueRing r) s

/-- TICKET_TIMEOUT (R207). -/
def execTicketTimeout (ticket : BitVec 20) : State → Host.Outcome State Fault Refusal :=
  act fun s =>
    let t := s.ticket ticket.toNat
    if (t.state = .sent ∨ t.state = .combining) ∧ t.cls ≠ .overflow ∧ t.due ≤ s.time.tick ∧ s.compute ∧ !s.fry.inReset then
      s.loseTicket ticket.toNat
    else s

/-- OVERFLOW_TICKET_TIMEOUT (R207). -/
def execOverflowTicketTimeout (ticket : BitVec 20) : State → Host.Outcome State Fault Refusal :=
  act fun s =>
    let t := s.ticket ticket.toNat
    if t.state ≠ .free ∧ t.cls = .overflow ∧ t.due ≤ s.time.tick ∧ s.compute ∧ !s.fry.inReset then s.loseTicket ticket.toNat else s

end Sys2Proof.Machine
end

