-- ==== Sys2Proof/Machine/IntakeCfg.lean ====
section
/-! DEFINITION. Stream configuration records (R221, R222, R231, R233), engine loads and the intake test (R228, R229). -/

namespace Sys2Proof.Machine

def rCodec (r : StreamRec) : Nat := fieldNat r 3 0
def rSsrcMatch (r : StreamRec) : Bool := bitAt r 6
def rPt (r : StreamRec) : Nat := fieldNat r 14 8
def rUdp (r : StreamRec) : Nat := fieldNat r 31 16
def rSsrc (r : StreamRec) : Nat := fieldNat r 63 32
def rWidth (r : StreamRec) : Nat := fieldNat r 207 192
def rHeight (r : StreamRec) : Nat := fieldNat r 223 208
def rFps (r : StreamRec) : Nat := fieldNat r 231 224
def rTenBit (r : StreamRec) : Bool := bitAt r 232
def rRate (r : StreamRec) : Nat := fieldNat r 249 240
def rReorder (r : StreamRec) : Nat := fieldNat r 271 256
def rOutW (r : StreamRec) : Nat := fieldNat r 399 384
def rOutH (r : StreamRec) : Nat := fieldNat r 415 400
def rOutFmt (r : StreamRec) : Nat := fieldNat r 419 416
def rScaler (r : StreamRec) : Nat := fieldNat r 421 420
def rMatrix (r : StreamRec) : Nat := fieldNat r 423 422
def rFull (r : StreamRec) : Bool := bitAt r 424
def rGrey (r : StreamRec) : Bool := bitAt r 425
def rTileW (r : StreamRec) : Nat := fieldNat r 447 432
def rTileH (r : StreamRec) : Nat := fieldNat r 463 448
def rCellFirst (r : StreamRec) : Nat := fieldNat r 470 464
def rCells (r : StreamRec) : Nat := fieldNat r 479 472
def rBuf (r : StreamRec) : Nat := fieldNat r 500 480
def rNbuf (r : StreamRec) : Nat := fieldNat r 502 501 + 1
def rSync (r : StreamRec) : Nat := fieldNat r 516 504
def rReady (r : StreamRec) : Nat := fieldNat r 551 520

/-- Channels of the output (R233). -/
def rChannels (r : StreamRec) : Nat := if rGrey r then 1 else 3

/-- Bytes of a tile (R233). -/
def rTileBytes (r : StreamRec) : Nat := ceilDiv (rTileW r * rTileH r * rChannels r * (elemBits (rOutFmt r) / 8)) 64 * 64

/-- Tiles of the output image. -/
def rTiles (r : StreamRec) : Nat := (rOutW r / rTileW r) * (rOutH r / rTileH r)

/-- Bytes of one buffer: the header and the tiles of a cell (R233). -/
def rBufBytes (r : StreamRec) : Nat := 64 + ceilDiv (rTiles r) (rCells r) * rTileBytes r

/-- The work size in bytes (R231). -/
def rWorkSize (r : StreamRec) : Nat :=
  let pics := if rCodec r = 1 then 7 else if rCodec r = 2 then 9 else 2
  let b := if rTenBit r then 2 else 1
  ceilDiv (pics * rWidth r * rHeight r * 3 * b + rRate r * 25 * (rReorder r + 1000)) 8192 * 4096

/-- The decode load in quarters of a weighted luma sample per second (R228). -/
def rDecode4 (r : StreamRec) : Nat :=
  rWidth r * rHeight r * rFps r * (if rCodec r = 3 then 2 else if rTenBit r then 5 else 4)

/-- The shaper load in pixels per second (R228). -/
def rShaper (r : StreamRec) : Nat := rOutW r * rOutH r * rFps r

/-- The work area lies in pages that the context may write (R129, R222). -/
def State.workPages (s : State) (c : BitVec 6) (a n : Nat) : Bool :=
  decide (0 < n) && decide (a + n ≤ s.capacity) && (s.pageFail c true false a n).isNone

/-- The fields of a record that break R221 or R222, as the lowest bit, for an instance whose period is `period` frames (DEDUCED, log 123). -/
def State.recBad (s : State) (ctx : BitVec 6) (period : Nat) (r : StreamRec) : Option Nat :=
  let lim := if rCodec r = 3 then 8192 else 0
  let wb := fieldNat r 335 288
  let wl := fieldNat r 383 352
  let low : List (Nat × Bool) := [(0, rCodec r = 0 || 3 < rCodec r), (7, bitAt r 7), (15, bitAt r 15), (16, rUdp r = 0),
    (32, !rSsrcMatch r && rSsrc r ≠ 0), (64, !rIpv6 r && fieldNat r 191 96 ≠ 0),
    (192, rWidth r < 16 || max 4096 lim < rWidth r), (208, rHeight r < 16 || max 2304 lim < rHeight r),
    (224, rFps r = 0 || 60 < rFps r), (232, rTenBit r && rCodec r = 3), (233, fieldNat r 239 233 ≠ 0),
    (240, rRate r = 0 || 1000 < rRate r), (250, fieldNat r 255 250 ≠ 0), (256, rReorder r = 0 || 10000 < rReorder r)]
  let high : List (Nat × Bool) := [(272, fieldNat r 287 272 ≠ 0), (288, wb % 4096 ≠ 0 || !s.workPages ctx wb wl), (336, fieldNat r 351 336 ≠ 0),
    (352, wl < rWorkSize r), (384, rOutW r = 0 || 4096 < rOutW r || rTileW r = 0 || rOutW r % rTileW r ≠ 0
      || 0x200000 < rBuf r + rNbuf r * rBufBytes r),
    (400, rOutH r = 0 || 4096 < rOutH r || rTileH r = 0 || rOutH r % rTileH r ≠ 0),
    (416, rOutFmt r ≠ 6 && rOutFmt r ≠ 8 && rOutFmt r ≠ 9), (420, rScaler r = 3), (422, rMatrix r = 3),
    (426, fieldNat r 431 426 ≠ 0), (464, 128 < rCellFirst r + rCells r), (471, bitAt r 471), (472, rCells r = 0 || 128 < rCells r),
    (480, rBuf r % 64 ≠ 0), (503, bitAt r 503), (504, !s.objOk (rSync r) ctx), (517, fieldNat r 519 517 ≠ 0),
    (520, period * frameTicks ≤ rReady r), (744, fieldNat r 1023 744 ≠ 0)]
  lowestBad (low ++ high)

/-- Two records name the same steering key (R223). -/
def sameKey (a b : StreamRec) : Bool :=
  rPort a = rPort b && rIp a = rIp b && rUdp a = rUdp b && rIpv6 a = rIpv6 b
    && (!rSsrcMatch a || !rSsrcMatch b || rSsrc a = rSsrc b)

/-- The lowest engine that fits a record; none where the intake test fails (R229). -/
def State.intakeFits (s : State) (r : StreamRec) : Option Nat :=
  if s.streams.any (fun x => sameKey x.record r) ∨ 512 ≤ s.streams.length then none
  else
    firstFrom (fun e =>
      let on := s.streams.filter fun x => x.engine = e
      decide (on.length < 32) && decide (sumOf (on.map fun x => rDecode4 x.record) + rDecode4 r ≤ 8000000000)
        && decide (sumOf (on.map fun x => rShaper x.record) + rShaper r ≤ 8000000000) && !s.boot.decodeBad.contains e) 16 0

end Sys2Proof.Machine
end

