-- ==== Sys2Proof/Machine/RtpFormat.lean ====
section
/-! DEFINITION. What Intake reads in an RTP packet: the payload, the payload formats that R226 supports, and the AV1 sequence header that says how
many operating points there are. The layouts are those of RFC 3550, RFC 7798, RFC 2435 and the AV1 specifications (PRESUMED, log 38). -/

namespace Sys2Proof.Machine

/-- The number in n bytes from i on. -/
def beAt (bs : List Byte) (i n : Nat) : Nat := beNat ((bs.drop i).take n)

/-- The RTP payload of a packet (RFC 3550): header extension, contributing sources and padding off. -/
def rtpPayload (p : List Byte) : List Byte :=
  let b0 := beAt p 0 1
  let h := 12 + 4 * (b0 % 16)
  let h' := if b0 / 16 % 2 = 1 then h + 4 + 4 * beAt p (h + 2) 2 else h
  let body := p.drop h'
  if b0 / 32 % 2 = 1 then body.take (body.length - (beNat (body.drop (body.length - 1)))) else body

/-- A number of AV1 in 7-bit groups, least significant first, and the bytes it takes. -/
def leb128 : Nat → List Byte → Nat × Nat
  | 0, _ => (0, 0)
  | _, [] => (0, 0)
  | n + 1, b :: r =>
    if b.toNat < 128 then (b.toNat, 1)
    else
      let t := leb128 n r
      (b.toNat % 128 + 128 * t.1, t.2 + 1)

/-- The OBU elements of an AV1 payload behind its aggregation header; the last of w has no length, and with w = 0 every one has. -/
def obuElems : Nat → Nat → List Byte → List (List Byte)
  | 0, _, _ => []
  | n + 1, w, bs =>
    if bs.isEmpty then []
    else if w = 1 then [bs]
    else
      let l := leb128 8 bs
      (bs.drop l.2).take l.1 :: obuElems n (w - 1) (bs.drop (l.2 + l.1))

/-- The n bits from bit i on, most significant first. -/
def bitsAt (bs : List Byte) (i n : Nat) : Nat := beNat bs / 2 ^ (8 * bs.length - i - n) % 2 ^ n

/-- The zero bits from bit i on, at most n. -/
def zerosFrom (bs : List Byte) : Nat → Nat → Nat
  | 0, _ => 0
  | n + 1, i => if bitsAt bs i 1 = 0 then 1 + zerosFrom bs n (i + 1) else 0

/-- operating_points_cnt_minus_1 of a sequence header. -/
def opPoints (bs : List Byte) : Nat :=
  if bitsAt bs 4 1 = 1 then 0
  else
    let timing := bitsAt bs 5 1 = 1
    let i := if timing then (if bitsAt bs 70 1 = 1 then 72 + 2 * zerosFrom bs 32 71 else 71) else 6
    let j := if timing then (if bitsAt bs i 1 = 1 then i + 48 else i + 1) else i
    bitsAt bs (j + 1) 5

/-- An OBU of a stream with one operating point and without layers (R226). -/
def obuOk (e : List Byte) : Bool :=
  let h := beAt e 0 1
  let ext := decide (h / 4 % 2 = 1)
  let body := e.drop (if ext then 2 else 1)
  let data := if h / 2 % 2 = 1 then body.drop (leb128 8 body).2 else body
  !(ext && decide (8 ≤ beAt e 1 1)) && (decide (h / 8 % 16 ≠ 1) || opPoints (data.take 64 ++ List.replicate 16 0) = 0)

/-- The payload format of a packet is one that Intake supports (R226): no PACI for H.265; one operating point and no layers for AV1; types
0, 1, 64, 65 and Q 128 to 255 for JPEG. -/
def formatOk (codec : Nat) (body : List Byte) : Bool :=
  match codec with
  | 1 => beAt body 0 1 / 2 % 64 ≠ 50
  | 3 =>
    let t := beAt body 4 1
    (t = 0 || t = 1 || t = 64 || t = 65) && decide (128 ≤ beAt body 5 1)
  | _ =>
    let h := beAt body 0 1
    let elems := obuElems body.length (h / 16 % 4) (body.drop 1)
    (if 128 ≤ h then elems.drop 1 else elems).all obuOk

end Sys2Proof.Machine
end

