-- ==== Sys2Proof/Machine/Shaper.lean ====
section
/-! DEFINITION. The frame shaper (R232, R233): chroma upsampling and scaling, which are exact, then normalising, the colour matrix, scale, bias and
conversion in FP32, and the tiles of a picture. What the rule leaves open of them is log 178. -/

namespace Sys2Proof.Machine

/-! ### FP32 arithmetic of the shaper -/

/-- The FP32 code nearest to (-1)^neg x num x 2^e / den, ties to even. -/
def ratF32 (neg : Bool) (num den : Nat) (e : Int) : Nat :=
  let q := num * 2 ^ 64 / den
  fFP32.round .nearest (.fin neg (2 * q + (decide (num * 2 ^ 64 % den ≠ 0)).toNat) (e - 65))

/-- Product, quotient by a natural, and negation of FP32 codes, each result rounded. -/
def mul32 (a b : Nat) : Nat := fFP32.round .nearest ((fFP32.decode a).mul (fFP32.decode b))
def divNat32 (a n : Nat) : Nat :=
  match fFP32.decode a with
  | .fin neg m e => ratF32 neg m n e
  | _ => a
def neg32 (a : Nat) : Nat := if a < 2 ^ 31 then a + 2 ^ 31 else a - 2 ^ 31

/-- A code limited to 0 to 1. -/
def clamp01 (x : Nat) : Nat := if 2 ^ 31 ≤ x then 0 else min x 0x3F800000

/-! ### Steps 1 and 2: planes at luma resolution, and their scaling -/

/-- Width and height of a chroma plane. -/
def chromaSize (p : Picture) : Nat × Nat :=
  match p.chroma with
  | .mono => (0, 0)
  | .c420 => (ceilDiv p.width 2, ceilDiv p.height 2)
  | .c422 => (ceilDiv p.width 2, p.height)

/-- A sample of plane 0 (luma), 1 (Cb) or 2 (Cr). -/
def planeAt (p : Picture) (plane x y : Nat) : Nat :=
  let c := chromaSize p
  let i := if plane = 0 then y * p.width + x else p.width * p.height + (plane - 1) * (c.1 * c.2) + y * c.1 + x
  (p.samples.getD i 0).toNat

/-- The two samples around a position given in 1/d samples, with their weights out of d, for n samples; beyond an edge the edge counts. -/
def linearTaps (n d : Nat) (pos : Int) : List (Nat × Nat) :=
  let k := pos / (d : Int)
  let f := (pos % (d : Int)).toNat
  let at_ (i : Int) : Nat := min i.toNat (n - 1)
  [(at_ k, d - f), (at_ (k + 1), f)]

/-- The weighted sum of a plane over taps across and down. -/
def tapSum (g : Nat → Nat → Nat) (xs ys : List (Nat × Nat)) : Nat :=
  sumOf (ys.flatMap fun y => xs.map fun x => x.2 * y.2 * g x.1 y.1)

/-- 16 times the sample of a plane at a luma position: bilinear for chroma (R232 step 1), mid range where a picture has no chroma. -/
def upsampled (codec depth : Nat) (p : Picture) (plane x y : Nat) : Nat :=
  let c := chromaSize p
  let site := Config.chromaMidway codec
  let across := linearTaps c.1 4 (2 * (x : Int) - site.1.toNat)
  match plane, p.chroma with
  | 0, _ => 16 * planeAt p 0 x y
  | _, .mono => 16 * 2 ^ (depth - 1)
  | _, .c420 => tapSum (planeAt p plane) across (linearTaps c.2 4 (2 * (y : Int) - site.2.toNat))
  | _, .c422 => 4 * tapSum (planeAt p plane) across [(y, 1)]

/-- The samples of one of n that make up output sample i of m, with weights, and the sum of the weights: bilinear about the middle of the
output sample, by area over it, or the sample that holds its middle (R232 step 2). -/
def scaleTaps (scaler n m i : Nat) : List (Nat × Nat) × Nat :=
  match scaler with
  | 2 => ([((2 * i + 1) * n / (2 * m), 1)], 1)
  | 1 =>
    let lo := i * n / m
    let hi := ((i + 1) * n - 1) / m
    ((List.range (hi + 1 - lo)).map fun k => (lo + k, min ((i + 1) * n) ((lo + k + 1) * m) - max (i * n) ((lo + k) * m)), n)
  | _ => (linearTaps n (2 * m) ((2 * (i : Int) + 1) * n - m), 2 * m)

/-- The FP32 sample of a plane at an output row and column (R232 steps 1 and 2). -/
def scaledSample (r : StreamRec) (depth : Nat) (p : Picture) (plane row col : Nat) : Nat :=
  let xs := scaleTaps (rScaler r) p.width (rOutW r) col
  let ys := scaleTaps (rScaler r) p.height (rOutH r) row
  ratF32 false (tapSum (upsampled (rCodec r) depth p plane) xs.1 ys.1) (16 * xs.2 * ys.2) 0

/-! ### Steps 3 to 5 -/

/-- A sample less its zero, over its range: luma to 0 to 1, chroma to -1/2 to 1/2 (R232 step 3). -/
def normSample (full : Bool) (depth : Nat) (chroma : Bool) (x : Nat) : Nat :=
  let u := 2 ^ (depth - 8)
  let zero_ := if chroma then 2 ^ (depth - 1) else if full then 0 else 16 * u
  let range := if full then 2 ^ depth - 1 else if chroma then 224 * u else 219 * u
  divNat32 (add32 x (neg32 (ratF32 false zero_ 1 0))) range

/-- The weights of red and blue in luma, in 1/10000 (BT.601, BT.709, BT.2020). -/
def lumaWeights (matrix : Nat) : Nat × Nat :=
  match matrix with
  | 0 => (2990, 1140)
  | 1 => (2126, 722)
  | _ => (2627, 593)

/-- A channel of R'G'B' before its clamp, of normalised Y', Cb and Cr. -/
def rgbOf (matrix ch y cb cr : Nat) : Nat :=
  let k := lumaWeights matrix
  let green := 10000 - k.1 - k.2
  match ch with
  | 0 => add32 y (mul32 (ratF32 false (2 * (10000 - k.1)) 10000 0) cr)
  | 2 => add32 y (mul32 (ratF32 false (2 * (10000 - k.2)) 10000 0) cb)
  | _ =>
    add32 (add32 y (neg32 (mul32 (ratF32 false (2 * k.2 * (10000 - k.2)) (10000 * green) 0) cb)))
      (neg32 (mul32 (ratF32 false (2 * k.1 * (10000 - k.1)) (10000 * green) 0) cr))

/-- The normalised channel of an output row and column (R232 steps 1 to 3). -/
def normalised (r : StreamRec) (p : Picture) (ch row col : Nat) : Nat :=
  let depth := if rTenBit r then 10 else 8
  let norm (plane : Nat) : Nat := normSample (rFull r) depth (decide (plane ≠ 0)) (scaledSample r depth p plane row col)
  if rGrey r then norm 0 else clamp01 (rgbOf (rMatrix r) ch (norm 0) (norm 1) (norm 2))

/-- FP32 operations of R232 step 4: product and sum each rounded (DEDUCED, log 41). -/
def scaleBias (x scale bias : Nat) : Nat := add32 (mul32 x scale) bias

/-- An output element of the shaper (R232). -/
def shapedElem (r : StreamRec) (p : Picture) (row col ch : Nat) : Nat :=
  cvtFrom32 (rOutFmt r)
    (scaleBias (normalised r p ch row col) (fieldNat r (583 + 32 * ch) (552 + 32 * ch)) (fieldNat r (679 + 32 * ch) (648 + 32 * ch)))

/-- The bytes of tile t (R233). -/
def tileBytes (r : StreamRec) (p : Picture) (t : Nat) : List Byte :=
  let cols := rOutW r / rTileW r
  let n := elemBits (rOutFmt r) / 8
  let elems := (List.range (rTileH r)).flatMap fun y => (List.range (rTileW r)).flatMap fun x => (List.range (rChannels r)).flatMap fun ch =>
    leBytes n (shapedElem r p (t / cols * rTileH r + y) (t % cols * rTileW r + x) ch)
  elems ++ List.replicate (rTileBytes r - elems.length) 0

end Sys2Proof.Machine
end

