-- ==== Sys2Proof/Machine/Timetable.lean ====
section
/-! DEFINITION. Timetables and Headgate (R152 to R175): loading, the admission test, the phase search, arming, releasing, starts and
ends, overruns and step records. -/

namespace Sys2Proof.Machine

/-! ### The object (R154 to R156) -/

/-- Record i of an object. -/
def ttRec (o : List Byte) (i : Nat) : BitVec 256 := BitVec.ofNat 256 (leNat ((o.drop (128 + 32 * i)).take 32))

/-- The field checks of a record by its type (R155, R156), as bits of the record (DEDUCED, log 122). -/
def ttRecBad (period : Nat) (r : BitVec 256) : List (Nat × Bool) :=
  let span := period * frameTicks
  match fieldNat r 3 0 with
  | 1 => [(11, bitAt r 11), (32, span < fieldNat r 63 32 + fieldNat r 95 64), (64, fieldNat r 95 64 = 0), (112, fieldNat r 255 112 ≠ 0)]
  | 2 => [(9, fieldNat r 31 9 ≠ 0), (32, span < fieldNat r 63 32 + fieldNat r 95 64),
      (192, fieldNat r 223 192 < 4 || fieldNat r 223 192 % 4 ≠ 0), (240, fieldNat r 255 240 ≠ 0)]
  | 3 => [(4, 6 ≤ fieldNat r 6 4), (7, fieldNat r 15 7 ≠ 0), (16, period ≤ fieldNat r 31 16),
      (32, 4096 < fieldNat r 43 32 + fieldNat r 56 44), (44, fieldNat r 56 44 = 0), (57, fieldNat r 63 57 ≠ 0),
      (76, fieldNat r 95 76 ≠ 0), (128, fieldNat r 255 128 ≠ 0)]
  | 4 => [(4, fieldNat r 31 4 ≠ 0), (96, fieldNat r 255 96 ≠ 0)]
  | 5 => [(4, fieldNat r 15 4 ≠ 0), (41, fieldNat r 255 41 ≠ 0)]
  | _ => [(0, true)]

/-- The records of one type with their places. -/
def ttOf (rs : List (Nat × BitVec 256)) (t : Nat) : List (Nat × BitVec 256) := rs.filter fun e => fieldNat e.2 3 0 = t

/-- A cell entry record. -/
def ttEntry (r : BitVec 256) : CellEntry :=
  { cell := fieldNat r 10 4, bundle := fieldNat r 23 12, args := fieldNat r 31 24, start := fieldNat r 63 32, dur := fieldNat r 95 64,
    rate := fieldNat r 111 96 }

/-- A mover transfer record. -/
def ttTransfer (r : BitVec 256) : Transfer :=
  { mover := fieldNat r 8 4, start := fieldNat r 63 32, dur := fieldNat r 95 64, src := fieldNat r 143 96, dst := fieldNat r 191 144,
    len := fieldNat r 223 192, rate := fieldNat r 239 224 }

/-- A link run record. -/
def ttRun (r : BitVec 256) : LinkRun :=
  { port := fieldNat r 6 4, frame := fieldNat r 31 16, slot := fieldNat r 43 32, count := fieldNat r 56 44, flow := fieldNat r 75 64,
    bytes := fieldNat r 127 96 }

/-- A parsed object. -/
def ttParse (ctx : BitVec 6) (handle addr : Nat) (o : List Byte) : TtObject :=
  let f := bytesField (o.take 128)
  let rs := (List.range (f 175 160)).map fun i => (i, ttRec o i)
  { ctx := ctx, handle := handle, setId := f 95 64, member := f 111 96, memberCount := f 127 112, period := f 143 128,
    lead := f 159 144, tickets := f 195 176, digest := sha384Nat (o.drop 128), addr := addr, len := o.length,
    entries := (ttOf rs 1).map fun e => (e.1, ttEntry e.2),
    transfers := (ttOf rs 2).map fun e => (e.1, ttTransfer e.2),
    runs := (ttOf rs 3).map fun e => (e.1, ttRun e.2),
    barriers := (ttOf rs 4).map fun e => (e.1, fieldNat e.2 63 32, fieldNat e.2 95 64),
    members := (ttOf rs 5).map fun e => (fieldNat e.2 31 16, fieldNat e.2 34 32, fieldNat e.2 37 35, fieldNat e.2 40 38) }

/-- Two spans overlap. -/
def meets (a n b m : Nat) : Bool := decide (a < b + m) && decide (b < a + n)

/-- The highest place among records that clash with an earlier one, as the first bit of that record (R255). -/
def clashBit {α : Type} (clash : α → α → Bool) (xs : List (Nat × α)) : List Nat :=
  match (xs.filter fun e => xs.any fun d => d.1 < e.1 && clash d.2 e.2).map (·.1) with
  | [] => []
  | is => [1024 + 256 * maxOf is]

/-- The lowest bit of the object at fault (R156, R255); none for a good one. -/
def ttBad (o : List Byte) : Option Nat :=
  let f := bytesField (o.take 128)
  let rs := (List.range (f 175 160)).map fun i => (i, ttRec o i)
  let mem := (ttOf rs 5).map fun e => (e.1, fieldNat e.2 31 16)
  let idx := (mem.map (·.2)).eraseDups
  let mc := f 127 112
  let obj := ttParse 0 0 0 o
  let hdr : List (Nat × Bool) := [(0, f 31 0 ≠ 0x4254544B), (32, f 47 32 ≠ 0x8130), (48, f 63 48 ≠ 1),
    (112, mc = 0 || 512 < mc || idx.length ≠ mc || idx.any (fun i => mc ≤ i) || !idx.contains (f 111 96) || !idx.contains (f 159 144)),
    (128, f 143 128 = 0), (160, f 175 160 = 0), (196, f 255 196 ≠ 0), (256, f 511 256 ≠ 0),
    (512, f 895 512 ≠ obj.digest.toNat), (896, f 1023 896 ≠ 0)]
  let recs := rs.flatMap fun e => ((ttRecBad (f 143 128) e.2).filter (·.2)).map fun b => 1024 + 256 * e.1 + b.1
  let clashes := clashBit (fun a b => decide (a = b)) mem
    ++ clashBit (fun (a b : CellEntry) => a.cell = b.cell && meets a.start a.dur b.start b.dur) obj.entries
    ++ clashBit (fun (a b : LinkRun) => a.port = b.port && a.frame = b.frame && meets a.slot a.count b.slot b.count) obj.runs
  lowestBad (hdr ++ (recs ++ clashes).map fun b => (b, true))

/-- The object under a handle of a context (R158). -/
def State.ttObj (s : State) (c : BitVec 6) (h : Nat) : Option TtObject := s.tt.objects.find? fun o => o.ctx = c && o.handle = h

/-- TIMETABLE_LOAD (R156 to R158, R590). -/
def State.ttLoad (s : State) (sq slot : Nat) (d : Line) : State :=
  let c := (s.sq sq).ctx
  let addr := fieldNat d 175 128
  let len := fieldNat d 223 192
  let h := fieldNat d 231 224
  let owned (s : State) : Bool := decide (regionOf addr = .lpddr) && decide (addr + len ≤ s.capacity)
    && (pagesOf addr len).all fun p => ((s.page p).state = .owned || (s.page p).state = .shared) && (s.page p).ctx = c
  match lowestBad [(128, addr % 64 ≠ 0 || !owned s), (176, fieldNat d 191 176 ≠ 0),
      (192, len < 160 || len % 32 ≠ 0 || 128 + 32 * 65535 < len), (232, fieldNat d 511 232 ≠ 0)] with
  | some b => s.complete sq slot d (badBit b)
  | none =>
    match s.moduleRead c addr len with
    | (s1, .error r) => s1.endDesc sq slot d r
    | (s1, .ok o) =>
      if len ≠ 128 + 32 * bytesField (o.take 128) 175 160 then s1.complete sq slot d (badBit 192)
      else
        match ttBad o with
        | some b => s1.complete sq slot d (badObj b)
        | none =>
          if s1.tt.instances.any fun i => i.ctx = c && i.object.handle = h && i.state ≠ .reserved then
            s1.complete sq slot d { status := stBusy }
          else
            let rest := s1.tt.objects.filter fun x => !(x.ctx = c && x.handle = h)
            ({ s1 with tt := { s1.tt with objects := rest ++ [ttParse c h addr o] } }).complete sq slot d { status := stOk }

/-- TIMETABLE_LOAD; one that reads an object in channels in reset waits (R133). -/
def execTimetableLoad (sq : Fin 256) : State → Host.Outcome State Fault Refusal :=
  act fun s => s.startRow sq 0x07 (fun d => !s.memWaits (fieldNat d 175 128) (fieldNat d 223 192)) fun s slot d => s.ttLoad sq slot d

/-! ### The admission test (R162 to R166) -/

/-- Reason codes (R164). -/
def rsCell : Nat := 0x01
def rsMover : Nat := 0x02
def rsSlots : Nat := 0x03
def rsWidth : Nat := 0x04
def rsAbsent : Nat := 0x05
def rsMemory : Nat := 0x06
def rsTickets : Nat := 0x07
def rsDecode : Nat := 0x08
def rsHyper : Nat := 0x09
def rsTables : Nat := 0x0A
def rsMember : Nat := 0x0B
def rsUnavailable : Nat := 0x0C

/-- Headgate is open (R165, R175): service has been reached and nothing holds it closed. -/
def State.headgateOpen (s : State) : Bool := s.tt.hgOpen && !s.tt.hgRef && !s.tt.hgPause && !s.tt.hgPower

/-- Spans of length l1 and l2 that recur every p1 and p2 meet somewhere: compared modulo the greatest common divisor, as comparing
modulo the hyperperiod amounts to. -/
def recurMeet (p1 a1 l1 p2 a2 l2 : Nat) : Bool :=
  let g := Nat.gcd p1 p2
  if g = 0 then false
  else
    let d := (a2 + g - a1 % g) % g
    decide (d < l1) || decide ((g - d) % g < l2)

/-- The link capacity of one slot in packet bytes at a trained width (R162). -/
def slotCap (lanes : Nat) : Nat := 992 * lanes

/-- The role of a port in the active bank (R340): 0 slice link, 1 boundary, 2 absent. -/
def State.portRole (s : State) (p : Nat) : Nat := fieldNat (sget (2 : BitVec 32) (s.bank s.epoch).port p) 1 0

/-- An instance holds resources: every one on the module. -/
def State.holders (s : State) : List Instance := s.tt.instances

/-- Every table has room for the object (R166). -/
def State.tablesRoom (s : State) (o : TtObject) : Bool :=
  decide (s.tt.instances.length < 1024)
    && (List.range 128).all (fun c =>
      let n := fun (x : TtObject) => (x.entries.filter fun e => e.2.cell = c).length
      decide (n o + sumOf (s.holders.map fun i => n i.object) ≤ 256))
    && (List.range 32).all (fun m =>
      let n := fun (x : TtObject) => (x.transfers.filter fun e => e.2.mover = m).length
      decide (n o + sumOf (s.holders.map fun i => n i.object) ≤ 1024))
    && (List.range 6).all fun p =>
      let n := fun (x : TtObject) => (x.runs.filter fun e => e.2.port = p).length
      decide (n o + sumOf (s.holders.map fun i => n i.object) ≤ 4096)

/-- The hyperperiod in frames (R162). -/
def State.hyper (s : State) (o : TtObject) : Nat := (s.holders.map fun i => i.object.period).foldl Nat.lcm o.period

/-- A cell entry of an occurrence that begins at a tick: the cell failed, it has no such program, or its time is taken (R162). -/
def State.entryClash (s : State) (c : BitVec 6) (hyper base : Nat) (e : CellEntry) : Bool :=
  (s.cell e.cell).failed || ((s.cell e.cell).entryImage .fg c e.bundle).isNone
    || s.holders.any fun i => i.object.entries.any fun x =>
      x.2.cell = e.cell && recurMeet (hyper * frameTicks) (base + e.start) (e.dur + 4)
        (i.object.period * frameTicks) (i.phase * frameTicks + x.2.start) (x.2.dur + 4)

/-- A transfer of an occurrence that begins at a tick: the mover's time is taken (R162). -/
def State.transferClash (s : State) (hyper base : Nat) (m : Transfer) : Bool :=
  s.holders.any fun i => i.object.transfers.any fun x =>
    x.2.mover = m.mover && recurMeet (hyper * frameTicks) (base + m.start) m.dur
      (i.object.period * frameTicks) (i.phase * frameTicks + x.2.start) x.2.dur

/-- a - b modulo p, whichever is larger. -/
def subMod (p a b : Nat) : Nat := (a % p + p - b % p) % p

/-- Slots of a port that an object at a phase owns in frame f. -/
def ownedIn (o : TtObject) (phase port f : Nat) : Nat :=
  sumOf ((o.runs.filter fun r => r.2.port = port && o.period ≠ 0 && decide (subMod o.period f (phase + r.2.frame) = 0)).map fun r => r.2.count)

/-- The reason for which a run of the object does not fit in frame f of the hyperperiod, or 0 (R162). -/
def State.runReason (s : State) (hyper f : Nat) (r : LinkRun) : Nat :=
  let w := (s.port r.port).lanes
  if w = 0 ∨ s.portRole r.port ≠ 0 then rsAbsent
  else if r.count * slotCap w < r.bytes then rsWidth
  else if s.holders.any fun i => i.object.runs.any fun x => x.2.port = r.port && meets x.2.slot x.2.count r.slot r.count
      && recurMeet hyper f 1 i.object.period (i.phase + x.2.frame) 1 then rsSlots
  else if min 4096 (s.fld 0x400010 0 13) < r.count + sumOf (s.holders.map fun i => ownedIn i.object i.phase r.port f) then
    rsSlots
  else 0

/-- The reason for which occurrence k of the object does not fit, or 0: its cell entries, then its transfers, then its runs (R162). -/
def State.occurrence (s : State) (c : BitVec 6) (o : TtObject) (a hyper k : Nat) : Nat :=
  let base := (a + k * o.period) * frameTicks
  if o.entries.any fun e => s.entryClash c hyper base e.2 then rsCell
  else if o.transfers.any fun e => s.transferClash hyper base e.2 then rsMover
  else ((o.runs.map fun r => s.runReason hyper (a + k * o.period + r.2.frame) r.2).find? (· ≠ 0)).getD 0

/-- The memory rate, in 1/16 GB/s, of an object at a phase at tick t. -/
def rateAt (o : TtObject) (phase t : Nat) : Nat :=
  let p := o.period * frameTicks
  let on (start dur : Nat) : Bool := decide (p ≠ 0) && decide (subMod p t (phase * frameTicks + start) < dur)
  sumOf ((o.entries.filter fun e => on e.2.start e.2.dur).map (·.2.rate))
    + sumOf ((o.transfers.filter fun e => on e.2.start e.2.dur).map (·.2.rate))

/-- The starts of an object's entries and transfers within the hyperperiod. -/
def startsOf (o : TtObject) (phase hyper : Nat) : List Nat :=
  (List.range (if o.period = 0 then 0 else hyper / o.period)).flatMap fun k =>
    ((o.entries.map (·.2.start)) ++ o.transfers.map (·.2.start)).map fun st => (phase + k * o.period) * frameTicks + st

/-- The peak of the memory rates over the hyperperiod stays within mem_pct of the live channels' rate (R162). -/
def State.memoryTest (s : State) (o : TtObject) (a hyper : Nat) : Bool :=
  let pct := clamp 1 100 (s.fld 0x400010 13 7)
  let total (t : Nat) : Nat := rateAt o a t + sumOf (s.holders.map fun i => rateAt i.object i.phase t)
  (startsOf o a hyper ++ s.holders.flatMap fun i => startsOf i.object i.phase hyper).all fun t =>
    decide (total t * 100 ≤ s.maps.live.length * 500 * pct)

/-- The timetabled tickets free for admission (R205). -/
def State.ttTicketsFree (s : State) : Nat :=
  4096 * (256 - s.fld 0x500010 8 8 - s.fld 0x500010 16 8) - sumOf (s.holders.map fun i => i.object.tickets)

/-- The member test at phase a: 0 for FIT, else the reason (R162, R164); Headgate refuses a tenant that is being removed (R512). -/
def State.memberTest (s : State) (c : BitVec 6) (o : TtObject) (a : Nat) (rec_ : Option StreamRec) : Nat :=
  let h := s.hyper o
  if !s.headgateOpen ∨ (s.ctx c.toNat).removing then rsUnavailable
  else if 1048576 < h then rsHyper
  else if !s.tablesRoom o then rsTables
  else
    match ((List.range (h / o.period)).map fun k => s.occurrence c o a h k).find? (· ≠ 0) with
    | some r => r
    | none =>
      if !s.memoryTest o a h then rsMemory
      else if s.ttTicketsFree < o.tickets then rsTickets
      else match rec_ with
        | none => 0
        | some r => if (s.intakeFits r).isNone then rsDecode else 0

/-! ### STREAM_ADMIT (R157, R159, R163, R222) -/

/-- The stream record that itk_ref names (R221) (DEDUCED, log 115). -/
def State.streamRec (s : State) (c : BitVec 6) (ref : Nat) : State × Except Done StreamRec :=
  let r := s.moduleRead c ((s.ctx c.toNat).itkBase + 128 * (ref - 1)) 128
  (r.1, r.2.map fun bs => BitVec.ofNat 1024 (leNat bs))

/-- The outcome of asking every member at one phase. -/
inductive Asked where
  | fit
  | refused (reason member : Nat)
  | waits
  deriving DecidableEq, Repr

/-- The answers at the phase: the lead's own test and those of the others (R163). -/
def Search.asks (q : Search) : Asked :=
  let one (m : Nat) : Option Nat := (q.answers.find? fun x => x.member.val = m && x.phase.toNat = q.phase).map fun x => x.reason.toNat
  if q.object.others.any fun m => (one m).isNone then .waits
  else
    match (sortBy (·.1) ((q.object.member, q.own) :: q.object.others.map fun m => (m, (one m).getD 0))).find? fun e => e.2 ≠ 0 with
    | none => .fit
    | some e => .refused e.2 e.1

/-- The lead asks every member to reserve at the phase of the search, itself too (R163). -/
def State.beginPhase (s : State) (q : Search) : State × Search :=
  let c := (s.sq q.sq).ctx
  let own := s.memberTest c q.object q.phase q.record
  let i : Instance := { id := q.inst, ctx := c, leader := s.selfIdx, isLead := true, object := q.object, phase := q.phase, itk := q.itk }
  let s1 : State := if own = 0 then { s with tt := { s.tt with instances := s.tt.instances ++ [i] } } else s
  (s1.tellMembers q.inst q.object (.reserve c q.object.setId q.phase), { q with own := own, asked := s.now })

/-- The lead's own reservation is dropped. -/
def State.dropReserved (s : State) (id : Nat) : State :=
  { s with tt := { s.tt with instances := s.tt.instances.filter fun i => !(i.id = id && i.state = .reserved) } }

/-- Every member commits: the instance is admitted, with its stream (R163, R228, R229), whose multicast group is joined (R288). -/
def State.enrol (s : State) (q : Search) : State :=
  let c := (s.sq q.sq).ctx
  let s1 := (s.updInst q.inst fun i => { i with state := .admitted }).tellMembers q.inst q.object .commit
  match q.record with
  | none => s1.ticketSignal
  | some r =>
    let s2 : State := { s1.ticketSignal with
      streams := s1.streams ++ [{ inst := q.inst, ctx := c, record := r, engine := (s.intakeFits r).getD 0 }] }
    s2.tellGroups s1

/-- The search goes on from its phase to its last one with the answers at hand; where a member's is missing it waits (R163). -/
def State.searchFrom : Nat → State → Search → Line → State
  | 0, s, _, _ => s
  | n + 1, s, q, d =>
    match q.asks with
    | .waits => { s with tt := { s.tt with search := some q } }
    | .fit =>
      (({ s with tt := { s.tt with search := none } } : State).enrol q).endDesc q.sq q.slot d { status := stOk, r0 := q.phase }
    | .refused reason member =>
      let s1 := (s.dropReserved q.inst).tellMembers q.inst q.object .drop
      if q.phase < q.last then
        let b := s1.beginPhase { q with phase := q.phase + 1 }
        b.1.searchFrom n b.2 d
      else
        ({ s1 with tt := { s1.tt with search := none } }).endDesc q.sq q.slot d
          { status := 0x02, r0 := q.phase, detail := reason + member * 256 }

/-- The object and stream record of a search. -/
def State.searchParts (s : State) (c : BitVec 6) (d : Line) : State × Option (TtObject × Except Done (Option StreamRec)) :=
  match s.ttObj c (fieldNat d 135 128) with
  | none => (s, none)
  | some o =>
    let ref := fieldNat d 247 232
    if ref = 0 then (s, some (o, .ok none))
    else
      let r := s.streamRec c ref
      (r.1, some (o, r.2.map some))

/-- STREAM_ADMIT starts: its fields (R157, R159, R222), then the search. -/
def State.admitStart (s : State) (sq slot : Nat) (d : Line) (answers : List MemberAnswer) : State :=
  let c := (s.sq sq).ctx
  let id := fieldNat d 145 136
  let ref := fieldNat d 247 232
  let obj := s.ttObj c (fieldNat d 135 128)
  let lead := match obj with
    | some o => decide (o.member = o.lead)
    | none => false
  match lowestBad [(128, !lead), (136, s.tt.instances.any fun i => i.id = id), (146, fieldNat d 159 146 ≠ 0),
      (208, fieldNat d 223 208 ≠ 0), (230, fieldNat d 231 230 ≠ 0), (232, (s.ctx c.toNat).itkCount < ref),
      (248, fieldNat d 511 248 ≠ 0)] with
  | some b => s.complete sq slot d (badBit b)
  | none =>
    match s.searchParts c d with
    | (s1, none) => s1.complete sq slot d (badBit 128)
    | (s1, some (_, .error r)) => s1.endDesc sq slot d r
    | (s1, some (o, .ok rec_)) =>
      match rec_.bind fun r => s1.recBad c o.period r with
      | some b => s1.complete sq slot d (badObj b)
      | none =>
        let e := max (fieldNat d 207 160) (s1.frame + 4)
        let b := (s1.startJob sq slot d .search).beginPhase
          { sq := sq, slot := slot, inst := id, phase := e, last := e + fieldNat d 229 224, answers := answers, object := o, itk := ref,
            record := rec_ }
        b.1.searchFrom 65 b.2 d

/-- The stream record that a STREAM_ADMIT names lies in channels in reset (R133). -/
def State.recordWaits (s : State) (sq : Nat) (d : Line) : Bool :=
  fieldNat d 247 232 ≠ 0 && s.memWaits ((s.ctx (s.sq sq).ctx.toNat).itkBase + 128 * (fieldNat d 247 232 - 1)) 128

/-- STREAM_ADMIT (R163); one search runs at a time, and a second waits for it (DESIGN CHOICE, log 30). -/
def execStreamAdmit (sq : Fin 256) (answers : List MemberAnswer) : State → Host.Outcome State Fault Refusal :=
  act fun s =>
    if s.tt.search.isSome then s
    else s.startRow sq 0x09 (fun d => !s.recordWaits sq d) fun s slot d => s.admitStart sq slot d answers

/-- MEMBER_ANSWER_TIMEOUT (R163): no answer within 10 ms counts as refusing with MEMBER. -/
def execMemberAnswerTimeout (inst : BitVec 10) (member : Fin 512) : State → Host.Outcome State Fault Refusal :=
  act fun s =>
    match s.tt.search with
    | none => s
    | some q =>
      if q.inst ≠ inst.toNat ∨ s.now < q.asked + msTicks 10 ∨ (q.answers.any fun a => a.member = member && a.phase = q.phase)
          ∨ !q.object.others.contains member.val then s
      else if (s.job q.sq q.slot).isNone then
        ({ s with tt := { s.tt with search := none } } : State).dropReserved q.inst
      else
        s.searchFrom 65 { q with answers := q.answers ++ [{ member := member, phase := BitVec.ofNat 48 q.phase, reason := 0x0B }] }
          (s.jobDesc q.sq q.slot)

/-! ### Members (R159, R163, R174) -/

/-- The number of an instance that another module leads: its id with the lead's module above it. -/
def memberId (inst : BitVec 10) (lead : Fin 512) : Nat := inst.toNat + 1024 * (lead.val + 1)

/-- Every instance of an id on the module, led here or elsewhere. -/
def State.instsOf (s : State) (inst : BitVec 10) : List Instance := s.tt.instances.filter fun i => i.id % 1024 = inst.toNat

/-- MEMBER_RESERVE (R158, R162, R163): the object of the set is tested at the phase; where it fits the reservation is held. The
answer goes to the lead. R164 has no reason for a module that holds no object of the set, nor for one that already holds an instance of that id
from that lead: MEMBER and TABLES are the model's answers (DESIGN CHOICE, log 29). -/
def execMemberReserve (ctx : BitVec 6) (setId : BitVec 32) (inst : BitVec 10) (phase : BitVec 48) (lead : Fin 512) :
    State → Host.Outcome State Fault Refusal :=
  act fun s =>
    if !s.compute then s
    else
      let id := memberId inst lead
      match s.tt.objects.find? fun o => o.ctx = ctx && o.setId = setId.toNat with
      | none => s.relay (.answer rsMember) id 0 lead.val
      | some o =>
        let r := s.memberTest ctx o phase.toNat none
        if r = 0 ∧ (s.inst id).isNone then
          let i : Instance := { id := id, ctx := ctx, leader := lead.val, object := o, state := .reserved, phase := phase.toNat }
          ({ s with tt := { s.tt with instances := s.tt.instances ++ [i] } }).relay (.answer 0) id o.member lead.val
        else s.relay (.answer (if r = 0 then rsTables else r)) id o.member lead.val

/-- MEMBER_COMMIT (R163). -/
def execMemberCommit (inst : BitVec 10) (lead : Fin 512) : State → Host.Outcome State Fault Refusal :=
  act fun s => (s.updInst (memberId inst lead) fun i => { i with state := if i.state = .reserved then .admitted else i.state }).ticketSignal

/-- MEMBER_DROP (R163). -/
def execMemberDrop (inst : BitVec 10) (lead : Fin 512) : State → Host.Outcome State Fault Refusal :=
  act fun s => s.dropReserved (memberId inst lead)

/-! ### Arming and releasing (R158 to R161) -/

/-- The digest of a loaded object read again (R158, R590). -/
def State.digestOk (s : State) (o : TtObject) : State × Except Done Bool :=
  let r := s.moduleRead o.ctx o.addr o.len
  (r.1, r.2.map fun bs => sha384Nat (bs.drop 128) = o.digest)

/-- The number of the first period that begins at least 4 frames after a tick (R160). -/
def Instance.firstFrom (i : Instance) (tick : Nat) : Nat :=
  let frame := ceilDiv tick frameTicks + 4
  if frame ≤ i.phase ∨ i.object.period = 0 then 0 else ceilDiv (frame - i.phase) i.object.period

/-- What another member's answer makes of TIMETABLE_ARM (R158, R255, R590, R591) (DEDUCED, log 156). -/
def ArmAnswer.done : ArmAnswer → Option Done
  | .ok => none
  | .digest => some (badBit 128)
  | .args => some (badBit 144)
  | .stale a => some { status := stGenStale, r0 := a.toNat }
  | .memErr a => some { status := stFaultCtx, r0 := a.toNat, detail := 0x80 }

/-- What ends TIMETABLE_ARM for another member: the answer of the lowest of those that fail. -/
def othersFail (o : TtObject) (answers : List (Fin 512 × ArmAnswer)) : Option Done :=
  o.others.findSome? fun m => ((answers.find? fun a => a.1.val = m).map (·.2)).bind ArmAnswer.done

/-- TIMETABLE_ARM starts: its fields, the lead's own digest check, the answers of the other members, to which it is relayed (R158 to R160,
R590, R591) (DEDUCED, log 156). -/
def State.armStart (s : State) (sq slot : Nat) (d : Line) (answers : List (Fin 512 × ArmAnswer)) : State :=
  let c := (s.sq sq).ctx
  let args := fieldNat d 191 144
  let i? := s.tt.instances.find? fun i => i.id = fieldNat d 137 128 && i.ctx = c && i.isLead && i.state = .admitted && !i.arming
  match lowestBad [(128, i?.isNone), (138, fieldNat d 143 138 ≠ 0), (144, !s.argOk c args 16384 64), (193, fieldNat d 511 193 ≠ 0)], i? with
  | some b, _ => s.complete sq slot d (badBit b)
  | none, none => s.complete sq slot d (badBit 128)
  | none, some i =>
    match s.digestOk i.object with
    | (s1, .error r) => s1.endDesc sq slot d r
    | (s1, .ok false) => s1.complete sq slot d (badObj 512)
    | (s1, .ok true) =>
      let j := i.firstFrom s.time.tick
      let s2 := s1.tellMembers i.id i.object (.arm (i.phase + j * i.object.period) args (bitAt d 192))
      match othersFail i.object answers with
      | some r => s2.endDesc sq slot d r
      | none =>
        let s3 : State := { s2 with tt := { s2.tt with skipped := sset 0 s2.tt.skipped i.id 0 } }
        (s3.startJob sq slot d (.arm i.id)).updInst i.id fun i =>
          { i with arming := true, firstPeriod := j, recorded := j, args := args, quiet := bitAt d 192, sq := sq, slot := slot }

/-- The object of the instance that an ARM names lies in channels in reset (R133). -/
def State.objectWaits (s : State) (d : Line) : Bool :=
  s.tt.instances.any fun i => i.id = fieldNat d 137 128 && i.isLead && s.memWaits i.object.addr i.object.len

/-- TIMETABLE_ARM (R160): the answers are those of the other members, of which one that is not listed arms. -/
def execTimetableArm (sq : Fin 256) (answers : List (Fin 512 × ArmAnswer)) : State → Host.Outcome State Fault Refusal :=
  act fun s => s.startRow sq 0x08 (fun d => !s.objectWaits d) fun s slot d => s.armStart sq slot d answers

/-- INSTANCE_ARMED (R160, R167, R169, R224): at the phase frame of its first period, and the 2 ticks before it that an entry may own,
the instance is armed, and its stream's steering entry installed. -/
def execInstanceArmed (inst : BitVec 10) : State → Host.Outcome State Fault Refusal :=
  act fun s => forEach (s.instsOf inst) (fun s i =>
    if i.arming ∧ s.compute ∧ (i.phase + i.firstPeriod * i.object.period) * frameTicks ≤ s.time.tick + 2 then
      let s1 := s.updInst i.id fun i => { i with arming := false, state := .armed }
      { s1 with streams := s1.streams.map fun x =>
          if x.inst = i.id then { x with steering := true, armed := true, lastPacket := s.now, period := i.firstPeriod } else x }
    else s) s

/-- ARM_RELAY (R158 to R160, R174, R591): a member arms at the lead's frame, its digest and arguments checked, or releases. -/
def execArmRelay (relay : Relay) (inst : BitVec 10) : State → Host.Outcome State Fault Refusal :=
  act fun s => forEach ((s.instsOf inst).filter fun i => !i.isLead) (fun s i =>
    if !s.compute then s
    else
      match relay with
      | .release now => (s.updInst i.id fun i => { i with silent := 0 }).release i.id now { status := stOk }
      | .arm phase argAddr quiet =>
        if i.state ≠ .admitted ∨ i.arming ∨ s.memWaits i.object.addr i.object.len then s
        else
          let tell (s : State) (a : ArmAnswer) : State := s.relay (.armAnswer a) i.id i.object.member i.leader
          match s.digestOk i.object with
          | (s1, .ok true) =>
            if s1.argOk i.ctx argAddr.toNat 16384 64 then
              let j := if i.object.period = 0 then 0 else (phase.toNat - i.phase) / i.object.period
              tell (s1.updInst i.id fun i => { i with arming := true, firstPeriod := j, recorded := j, args := argAddr.toNat, quiet := quiet,
                                                      silent := 0 }) .ok
            else tell s1 .args
          | (s1, .ok false) => tell s1 .digest
          | (s1, .error r) =>
            if r.status = stGenStale then tell s1 (.stale (BitVec.ofNat 48 r.r0))
            else (tell s1 (.memErr (BitVec.ofNat 48 r.r0))).faultCtx i.ctx) s

/-- STREAM_RELEASE (R161). -/
def State.releaseStart (s : State) (sq slot : Nat) (d : Line) : State :=
  let c := (s.sq sq).ctx
  let now := bitAt d 138
  let i? := s.tt.instances.find? fun i => i.id = fieldNat d 137 128 && i.ctx = c && i.isLead
  match lowestBad [(128, i?.isNone), (139, fieldNat d 511 139 ≠ 0)], i? with
  | some b, _ => s.complete sq slot d (badBit b)
  | none, none => s.complete sq slot d (badBit 128)
  | none, some i =>
    if i.state = .armed ∨ i.state = .releasing then
      (s.startJob sq slot d (.release i.id)).release i.id now { status := stOk }
    else (s.release i.id now { status := stOk }).complete sq slot d { status := stOk }

/-- STREAM_RELEASE. -/
def execStreamRelease (sq : Fin 256) : State → Host.Outcome State Fault Refusal :=
  act fun s => s.startRow sq 0x0A (fun _ => true) fun s slot d => s.releaseStart sq slot d

/-! ### Periods, their status and step records (R171 to R174, R258) -/

/-- The first tick of period j. -/
def Instance.tick0 (i : Instance) (j : Nat) : Nat := (i.phase + j * i.object.period) * frameTicks

/-- The records that start and end: entries and transfers. -/
def Instance.recs (i : Instance) : List Nat := (i.object.entries.map (·.1)) ++ i.object.transfers.map (·.1)

/-- Start and duration of a record. -/
def Instance.span (i : Instance) (r : Nat) : Option (Nat × Nat) :=
  match lfind i.object.entries r with
  | some e => some (e.start, e.dur)
  | none => (lfind i.object.transfers r).map fun m => (m.start, m.dur)

/-- The deadline tick of a record in a period (DEDUCED, log 124). -/
def Instance.deadline (i : Instance) (r j : Nat) : Nat :=
  match i.span r with
  | some sp => i.tick0 j + sp.1 + sp.2
  | none => i.tick0 j

/-- The last deadline of a period; its last tick where it has no records. -/
def Instance.lastDeadline (i : Instance) (j : Nat) : Nat :=
  match i.recs with
  | [] => i.tick0 (j + 1) - 1
  | rs => maxOf (rs.map fun r => i.deadline r j)

/-- Every record of the period has ended on this module, or the period is over where it has none, or is cut by a release with now (R161). -/
def Instance.periodOver (i : Instance) (j tick : Nat) : Bool :=
  if i.releaseNow then true
  else if i.recs.isEmpty then decide (i.lastDeadline j ≤ tick) else i.recs.all fun r => i.ended.contains (r, j)

/-- A report of kinds, and what a member reports of a period. -/
def Kinds.report (k : Kinds) (m : Fin 512) (j : Nat) : MemberReport :=
  { member := m, period := j, lateStart := k.lateStart, lateStep := k.lateStep, lateEnd := k.lateEnd, failed := k.failed, aborted := k.aborted }

/-- The most severe kind among reports: failed, aborted, late end, late step, late start (R171). -/
def worstKind (rs : List MemberReport) : Nat :=
  if rs.any (·.failed) then 4 else if rs.any (·.aborted) then 5 else if rs.any (·.lateEnd) then 3
  else if rs.any (·.lateStep) then 2 else if rs.any (·.lateStart) then 1 else 0

/-- TTB_LIMITS.fail_limit as it acts (R184). -/
def State.failLimit (s : State) : Nat := max 1 (s.fld 0x400010 20 4)

/-- The counts of members by kind in a step record (R258). -/
def kindCounts (rs : List MemberReport) : Nat :=
  let n (f : MemberReport → Bool) : Nat := (rs.filter f).length
  n (·.lateStart) + n (·.lateStep) * 2 ^ 12 + n (·.lateEnd) * 2 ^ 24 + n (·.failed) * 2 ^ 36 + n (·.aborted) * 2 ^ 48
    + worstKind rs * 2 ^ 60

/-- A step record goes to the completion ring of the instance's TIMETABLE_ARM, waits, or is skipped (R173, R258). -/
def State.stepRecord (s : State) (i : Instance) (j : Nat) (rs : List MemberReport) : State :=
  let w := worstKind rs
  if i.quiet ∧ w = 0 then s
  else
    let d := s.jobDesc i.sq i.slot
    let cq := (s.sq i.sq).cq
    let r := mkRecord (fieldNat d 31 16) (fieldNat d 7 0) (fieldNat d 13 8) 1 0 (if w = 0 then stOk else stOverrun) i.sq i.slot j
      (kindCounts rs) 0 0
    if 4096 ≤ s.tt.stepQueue.length then { s with tt := { s.tt with skipped := supd 0 s.tt.skipped i.id (· + 1) } }
    else ({ s with tt := { s.tt with stepQueue := s.tt.stepQueue ++ [(cq, r, i.id)] } }).flushSteps (s.tt.stepQueue.length + 1)

/-- A period counted by its most severe kind (R186); on a member, by the kinds of its own status (DEDUCED, log 10). -/
def State.countPeriod (s : State) (w : Nat) : State :=
  if w = 0 then s
  else if w = 4 ∨ w = 5 then { s with cnt := { s.cnt with ovrFailed := satAdd 16 s.cnt.ovrFailed 1 } }
  else { s with cnt := { s.cnt with ovrLate := satAdd 16 s.cnt.ovrLate 1 } }

/-- A period is settled on the lead: its record, and the fail limit (R173, R174). -/
def State.settlePeriod (s : State) (i : Instance) (j : Nat) (rs : List MemberReport) : State :=
  let bad := rs.any fun r => r.failed || r.aborted
  let streak := if bad then i.failStreak + 1 else 0
  let s1 := ((s.countPeriod (worstKind rs)).stepRecord i j rs).updInst i.id fun i =>
    { i with recorded := j + 1, failStreak := streak, reports := i.reports.filter fun r => decide (j < r.period),
             ended := i.ended.filter fun e => decide (j < e.2), kinds := sclear i.kinds 0 (j + 1) }
  if i.state = .armed ∧ s.failLimit ≤ streak then s1.release i.id false { status := stOverrun } else s1

/-- This module's own report of a period, with the fault that ended its part (R173, R174). -/
def Instance.ownReport (i : Instance) (j : Nat) : MemberReport :=
  { (sget {} i.kinds j).report (Fin.ofNat 512 i.object.member) j with
    fault := if i.state = .releasing ∧ i.endStatus.toNat = stFaultCtx then
        some { r0 := BitVec.ofNat 64 i.endR0, r1 := BitVec.ofNat 64 i.endR1, detail := BitVec.ofNat 32 i.endDetail }
      else none }

/-- Periods that are over on this module: the lead settles those of which every member has reported; a member sends its status. Both wait for
the end of an activate pause (R532) (DEDUCED, log 196). -/
def State.settleInst : Nat → State → Nat → State
  | 0, s, _ => s
  | n + 1, s, id =>
    match s.inst id with
    | none => s
    | some i =>
      let j := i.recorded
      if s.hst.paused ∨ i.state ≠ .armed ∧ i.state ≠ .releasing ∨ !i.periodOver j s.time.tick ∨ (i.state = .releasing ∧ i.lastPeriod ≤ j) then s
      else if i.isLead then
        let rs := i.reports.filter fun r => r.period = j
        if i.object.others.all fun m => rs.any fun r => r.member = m then
          (s.settlePeriod i j (i.ownReport j :: rs)).settleInst n id
        else s
      else
        let k := i.ownReport j
        (((s.countPeriod (worstKind [k])).updInst id fun i =>
            { i with recorded := j + 1, silent := i.silent + 1, ended := i.ended.filter fun e => decide (j < e.2),
                     kinds := sclear i.kinds 0 (j + 1) }).relay (.status k) id i.object.member i.leader).settleInst n id

/-- Every instance's periods settled: no more of them are over than frames have passed. -/
def State.settleAll (s : State) : State := forEach (s.tt.instances.map (·.id)) (fun s id => s.settleInst (s.time.tick / 16384 + 2) id) s

/-- A fault that a member reports ends the instance, TIMETABLE_ARM completing with FAULT_CONTEXT (R160, R174). -/
def State.memberFault (s : State) (id : Nat) (f : Option MemberFault) : State :=
  match f with
  | none => s
  | some f => s.release id true { status := stFaultCtx, r0 := f.r0.toNat, r1 := f.r1.toNat, detail := f.detail.toNat }

/-- MEMBER_STATUS (R173): the lead takes a member's status of a period that it has not recorded. -/
def execMemberStatus (inst : BitVec 10) (status : MemberReport) : State → Host.Outcome State Fault Refusal :=
  act fun s =>
    match s.inst inst.toNat with
    | none => s
    | some i =>
      if s.compute ∧ i.isLead ∧ i.recorded ≤ status.period ∧ i.object.others.contains status.member.val
          ∧ !(i.reports.any fun r => r.member = status.member && r.period = status.period) then
        ((s.updInst inst.toNat fun i => { i with reports := i.reports ++ [status] }).memberFault inst.toNat status.fault).settleInst 64 inst.toNat
      else s

/-- STEP_RECORD_DEADLINE (R173): 49,152 ticks after the period's last deadline the lead records it; a member without status counts as
failed, but for a status that an activate pause delays (R532). -/
def execStepRecordDeadline (inst : BitVec 10) (period : Nat) : State → Host.Outcome State Fault Refusal :=
  act fun s =>
    match s.inst inst.toNat with
    | none => s
    | some i =>
      if i.isLead ∧ (i.state = .armed ∨ (i.state = .releasing ∧ period < i.lastPeriod)) ∧ period = i.recorded
          ∧ i.lastDeadline period + 49152 ≤ s.time.tick ∧ s.compute ∧ !s.hst.paused then
        let rs := i.reports.filter fun r => r.period = period
        let missing := (i.object.others.filter fun m => rs.all fun r => r.member.val ≠ m).map fun m =>
          ({ failed := true } : Kinds).report (Fin.ofNat 512 m) period
        let own := if i.periodOver period s.time.tick then i.ownReport period else { i.ownReport period with failed := true }
        (s.settlePeriod i period (own :: rs ++ missing)).settleInst 64 i.id
      else s

/-! ### Starts and ends (R167, R168, R171, R172) -/

/-- A record of a period is to be run, and has neither started nor ended. -/
def Instance.toRun (i : Instance) (r j : Nat) : Bool :=
  decide (i.firstPeriod ≤ j) && decide (i.recorded ≤ j)
    && (i.state = .armed || (i.state = .releasing && !i.releaseNow && decide (j < i.lastPeriod)))
    && !i.active.contains (r, j) && !i.ended.contains (r, j)

/-- The periods not recorded yet for which a tick of period 0, moved on by whole periods, has come. -/
def Instance.periodsPast (i : Instance) (t0 tick : Nat) : List Nat :=
  let p := i.object.period * frameTicks
  if tick < t0 ∨ p = 0 then [] else (List.range ((tick - t0) / p + 1 - i.recorded)).map (· + i.recorded)

/-- The earliest period in which a record should have started by now and can still start: its start tick has come, and the 32,768
ticks after its deadline are not over (R167, R168, R171). -/
def Instance.due (i : Instance) (r tick : Nat) : Option Nat :=
  match i.span r with
  | none => none
  | some sp =>
    (i.periodsPast (i.tick0 0 + sp.1) tick).find? fun j => i.toRun r j && decide (tick < i.deadline r j + 32768)

/-- The periods in which a record has not ended 32,768 ticks after its deadline: it still runs, or it never started (R171, R172). -/
def Instance.overdue (i : Instance) (r tick : Nat) : List Nat :=
  ((i.active.filter fun p => p.1 = r && decide (i.deadline r p.2 + 32768 ≤ tick)).map (·.2))
    ++ (i.periodsPast (i.deadline r 0 + 32768) tick).filter fun j => (i.span r).isSome && i.toRun r j

/-- A record ends in a period without having run: failed (R172, R452). -/
def State.neverRan (s : State) (id r j : Nat) : State :=
  (s.noteKind id j fun k => { k with failed := true }).updInst id fun i => { i with ended := (r, j) :: i.ended }

/-- A fault of an entry or transfer, or a transfer turned away: it ends, and its instance is released; a fault faults the context too (R174,
R591). -/
def State.recordFault (s : State) (i : Instance) (r j : Nat) (d : Done) : State :=
  let s1 := ((s.noteKind i.id j fun k => { k with failed := true }).updInst i.id fun i =>
    { i with active := i.active.filter fun p => p ≠ (r, j), ended := (r, j) :: i.ended }).release i.id true d
  if d.status = stFaultCtx then s1.faultCtx i.ctx else s1

/-- The argument set of an entry for a period: as held, else read now (R591). -/
def State.entryArgs (s : State) (i : Instance) (r : Nat) (e : CellEntry) (j : Nat) : State × Except (Bool × Nat) (List (BitVec 64)) :=
  match lfind i.argsHeld (r, j) with
  | some ws => (s, .ok ws)
  | none =>
    let a := s.readArgs i.ctx (i.args + 64 * e.args)
    match a.fail with
    | some f => (a.st, .error f)
    | none => (a.st, .ok (words64 a.bytes))

/-- The fault of an entry's argument read (R591). -/
def argFault (e : CellEntry) (f : Bool × Nat) : Done :=
  { status := stFaultCtx, r0 := f.2, r1 := faultWhere e.cell .fg e.bundle, detail := if f.1 then 0x01 else 0x80 }

/-- The argument set of an entry is read at its start tick, whether or not its cell is idle by then (R591); one in channels in reset waits
(R133). -/
def State.holdArgs (s : State) (i : Instance) (r : Nat) (e : CellEntry) : State :=
  match i.due r s.time.tick with
  | none => s
  | some j =>
    if i.tick0 j + e.start ≠ s.time.tick ∨ (lfind i.argsHeld (r, j)).isSome ∨ s.memWaits (i.args + 64 * e.args) 64 then s
    else
      match s.entryArgs i r e j with
      | (s1, .ok ws) => s1.updInst i.id fun i => { i with argsHeld := i.argsHeld ++ [((r, j), ws)] }
      | (s1, .error f) => s1.recordFault i r j (argFault e f)

/-- The argument sets of the entries whose start tick has come. -/
def State.holdAllArgs (s : State) : State :=
  forEach s.tt.instances (fun s i => forEach i.object.entries (fun s e => s.holdArgs i e.1 e.2) s) s

/-- A cell entry starts (R114, R167, R452, R591). -/
def State.entryStart (s : State) (i : Instance) (r : Nat) (e : CellEntry) (j : Nat) : State :=
  let t0 := i.tick0 j + e.start
  let x := s.cell e.cell
  if x.failed ∨ x.inReset then s.neverRan i.id r j
  else
    let s0 := match x.fg.work with
      | some (.launch sq slot) => (s.haltThread e.cell .fg).launchEnd sq slot e.cell .timeout
      | _ => s
    if (s0.th e.cell .fg).work.isSome then s
    else
      match x.entryImage .fg i.ctx e.bundle with
      | none => s.neverRan i.id r j
      | some img =>
        match s0.entryArgs i r e j with
        | (s1, .error f) => s1.recordFault i r j (argFault e f)
        | (s1, .ok ws) =>
          let s2 := (s1.placeThread e.cell .fg (.entry i.id r j) i.ctx img e.bundle ws t0).updInst i.id fun i =>
            { i with active := i.active ++ [(r, j)], argsHeld := i.argsHeld.filter fun a => a.1 ≠ (r, j) }
          (if t0 < s.time.tick then s2.noteKind i.id j fun k => { k with lateStart := true } else s2).ready e.cell .fg

/-- CELL_ENTRY_START (R167): at its start tick, or as soon as an earlier entry of the cell has ended, or its argument words can be read (R133). -/
def execCellEntryStart (inst : BitVec 10) (r : Nat) : State → Host.Outcome State Fault Refusal :=
  act fun s => if !s.compute then s else forEach (s.instsOf inst) (fun s i =>
    match i.due r s.time.tick, lfind i.object.entries r with
    | some j, some e => if (lfind i.argsHeld (r, j)).isNone && s.memWaits (i.args + 64 * e.args) 64 then s else s.entryStart i r e j
    | _, _ => s) s

/-- What turns a timetabled transfer away: BAD_DESCRIPTOR with the field of its record for a range that movers may not name (R11, R12, R121,
R255), the fault of a page check else (R129) (DEDUCED, log 158). -/
def State.transferBad (s : State) (i : Instance) (r : Nat) (m : Transfer) : Option Done :=
  if !moverRange m.src m.len ∨ s.beyond m.src m.len then some (badObj (1024 + 256 * r + 96))
  else if !moverRange m.dst m.len ∨ s.beyond m.dst m.len then some (badObj (1024 + 256 * r + 144))
  else ((s.rangePage i.ctx false m.src m.len).orElse fun _ => s.rangePage i.ctx true m.dst m.len).map pageFault

/-- TRANSFER_START (R139, R168): at its start tick, where the mover has no earlier transfer running. -/
def execTransferStart (inst : BitVec 10) (r : Nat) : State → Host.Outcome State Fault Refusal :=
  act fun s => if !s.compute then s else forEach (s.instsOf inst) (fun s i =>
    match i.due r s.time.tick, lfind i.object.transfers r with
    | some j, some m =>
      let v := s.mover m.mover
      if v.inReset then s.neverRan i.id r j
      else if v.xfer.isSome then s.cutTransfer m.mover
      else
        match s.transferBad i r m with
        | some e => s.recordFault i r j e
        | none =>
          let c : MoverCmd := { kind := .transfer, ctx := i.ctx, src := m.src, dst := m.dst, len := m.len, inst := i.id, recIdx := r, period := j }
          (s.updMover m.mover fun v => { v with xfer := some c, progress := s.now }).updInst i.id fun i =>
            { i with active := i.active ++ [(r, j)] }
    | _, _ => s) s

/-- A record that ran has ended: late where its deadline has passed, failed where 32,768 ticks more have (R171). -/
def State.recordEnds (s : State) (id r j : Nat) : State :=
  match s.inst id with
  | none => s
  | some i =>
    let s1 := if i.deadline r j + 32768 < s.time.tick then s.noteKind id j fun k => { k with failed := true }
      else if i.deadline r j < s.time.tick then s.noteKind id j fun k => { k with lateEnd := true } else s
    (s1.updInst id fun i => { i with active := i.active.filter fun p => p ≠ (r, j), ended := (r, j) :: i.ended }).settleInst 64 id

/-- TRANSFER_END (R168): its bytes have moved and its last write is accepted. -/
def execTransferEnd (inst : BitVec 10) (r : Nat) : State → Host.Outcome State Fault Refusal :=
  act fun s => if !s.compute then s else forEach (s.instsOf inst) (fun s i =>
    match lfind i.object.transfers r with
    | none => s
    | some m =>
      match (s.mover m.mover).xfer with
      | none => s
      | some c =>
        if c.inst = i.id ∧ c.recIdx = r ∧ !c.stopping ∧ !s.memWaits c.src c.len ∧ !s.memWaits c.dst c.len then
          let w := s.copyLocal c
          let s1 := (w.1.updMover m.mover fun v => { v with xfer := none, progress := s.now }).moversGoOn
          if w.2.1 = stOk then s1.recordEnds i.id r c.period
          else s1.recordFault i r c.period (if w.2.1 = stGenStale then { status := stFaultCtx, r0 := s.staleLine c, detail := 0x01 }
            else { status := stFaultCtx, r0 := w.2.2.1, detail := w.2.2.2 })
        else s) s

/-- ENTRY_FAILED (R171, R172): 32,768 ticks after its deadline an entry or transfer that still runs is failed and stopped, and one
that never started is failed. -/
def execEntryFailed (inst : BitVec 10) (r : Nat) : State → Host.Outcome State Fault Refusal :=
  act fun s => if !s.compute then s else forEach (s.instsOf inst) (fun s i =>
    forEach (i.overdue r s.time.tick) (fun s j => (s.failRecord i.id r j).settleInst 64 i.id) s) s

/-- THREAD_WORK_END (R115): after HALT, with every matrix instruction, DMA command and SEND of the thread finished, the work ends
and what started it completes with OK; a timetabled entry's period notes a late end (R171). -/
def execThreadWorkEnd (c : Fin 128) (t : Thread) : State → Host.Outcome State Fault Refusal :=
  act fun s =>
    let x := s.cell c
    let th := x.th t
    match th.work with
    | none => s
    | some w =>
      if s.compute && th.halted && th.issue.isNone && x.settled t 31 then
        let s1 := s.updTh c t fun th => { th with work := none }
        (match w with
          | .entry inst r j => s1.recordEnds inst r j
          | w => s1.workEnd c w .ok).startLaunch c
      else s

/-- A releasing instance has nothing left to run, and its periods are settled (R161, R173). -/
def Instance.quietNow (i : Instance) : Bool := i.state = .releasing && i.active.isEmpty && decide (i.lastPeriod ≤ i.recorded)

/-- INSTANCE_FREE (R160, R161, R224): the resources return to Headgate, TIMETABLE_ARM and STREAM_RELEASE complete, and the steering
entry goes. On the lead the event says that the other members have returned theirs (DESIGN CHOICE, log 31). -/
def execInstanceFree (inst : BitVec 10) : State → Host.Outcome State Fault Refusal :=
  act fun s => if !s.compute then s else forEach (s.instsOf inst) (fun s i0 =>
    let s0 := s.settleInst 64 i0.id
    match s0.inst i0.id with
    | none => s0
    | some i =>
      if i.quietNow then
        let rel := s0.jobs.filter fun j => match j.kind with
          | .release id => id = i.id
          | _ => false
        let s1 := s0.dropInst i { status := i.endStatus.toNat, r0 := i.endR0, r1 := i.endR1, detail := i.endDetail }
        (forEach rel (fun s j => s.finish j.sq j.slot { status := stOk }) s1).ticketSignal
      else s0) s

/-- LEAD_SILENCE_RELEASE (R174): a member without a command of the lead for fail_limit consecutive periods releases its part. -/
def execLeadSilenceRelease (inst : BitVec 10) : State → Host.Outcome State Fault Refusal :=
  act fun s => forEach (s.instsOf inst) (fun s i =>
    if !i.isLead ∧ i.state = .armed ∧ s.failLimit ≤ i.silent ∧ s.compute then s.release i.id false { status := stOverrun } else s) s

end Sys2Proof.Machine
end

