-- ==== Sys2Proof/Machine/Intake.lean ====
section
/-! DEFINITION. Ethernet queues and frame intake (R223 to R239, R287 to R291): the paths of a received frame, transmit, RTP order and access
units, decoded frames, the shaper, headers and stalls. -/

namespace Sys2Proof.Machine

/-! ### Network headers -/

/-- The one's complement sum of 16-bit words. -/
def sum16 (bs : List Byte) : Nat :=
  let n := sumOf ((chunks 2 bs).map fun w => match w with
    | [a, b] => 256 * a.toNat + b.toNat
    | [a] => 256 * a.toNat
    | _ => 0)
  let f := n % 65536 + n / 65536
  f % 65536 + f / 65536

/-- What the receive paths look at in a frame: addresses, tag, protocol, ports and where headers begin. -/
structure Net where
  mac : Nat := 0
  vlan : Nat := 0
  ety : Nat := 0
  l3 : Nat := 14
  v6 : Bool := false
  proto : Nat := 0
  dst : Nat := 0
  l4 : Nat := 0
  port : Nat := 0

/-- The headers of a frame (IEEE 802.3, 802.1Q, IPv4, IPv6, UDP, TCP; PRESUMED, log 38). -/
def netOf (f : List Byte) : Net :=
  let tagged := decide (beAt f 12 2 = 0x8100)
  let l3 := if tagged then 18 else 14
  let ety := beAt f (l3 - 2) 2
  let n : Net := { mac := beAt f 0 6, vlan := if tagged then beAt f 14 2 % 4096 else 0, ety := ety, l3 := l3 }
  if ety = 0x0800 then
    let frag := decide (beAt f (l3 + 6) 2 % 16384 ≠ 0)
    let l4 := l3 + 4 * (beAt f l3 1 % 16)
    { n with proto := if frag then 255 else beAt f (l3 + 9) 1, dst := beAt f (l3 + 16) 4, l4 := l4, port := beAt f (l4 + 2) 2 }
  else if ety = 0x86DD then
    { n with v6 := true, proto := beAt f (l3 + 6) 1, dst := beAt f (l3 + 24) 16, l4 := l3 + 40, port := beAt f (l3 + 42) 2 }
  else n

/-- The bytes that a UDP checksum covers: the pseudo header and the datagram. -/
def udpCovered (n : Net) (f : List Byte) : List Byte :=
  let len := beAt f (n.l4 + 4) 2
  let addrs := if n.v6 then (f.drop (n.l3 + 8)).take 32 else (f.drop (n.l3 + 12)).take 8
  addrs ++ [0, 17, BitVec.ofNat 8 (len / 256), BitVec.ofNat 8 len] ++ (f.drop n.l4).take len

/-- The checksums that the MAC checks are good (R287). -/
def checksumsOk (n : Net) (f : List Byte) : Bool :=
  let ip := n.ety ≠ 0x0800 || sum16 ((f.drop n.l3).take (n.l4 - n.l3)) = 65535
  let udp := (n.ety ≠ 0x0800 && n.ety ≠ 0x86DD) || n.proto ≠ 17 || (!n.v6 && beAt f (n.l4 + 6) 2 = 0) || sum16 (udpCovered n f) = 65535
  ip && udp

/-- Two bytes of a frame replaced, most significant first. -/
def put16 (f : List Byte) (i v : Nat) : List Byte :=
  f.take i ++ [BitVec.ofNat 8 (v / 256), BitVec.ofNat 8 v] ++ f.drop (i + 2)

/-- The checksums filled in on transmit (R287). -/
def fillChecksums (f : List Byte) : List Byte :=
  let n := netOf f
  let f1 := if n.ety = 0x0800 ∧ n.l4 ≤ f.length then
      let z := put16 f (n.l3 + 10) 0
      put16 z (n.l3 + 10) (65535 - sum16 ((z.drop n.l3).take (n.l4 - n.l3)))
    else f
  if (n.ety = 0x0800 ∨ n.ety = 0x86DD) ∧ n.proto = 17 ∧ n.l4 + 8 ≤ f.length then
    let z := put16 f1 (n.l4 + 6) 0
    let c := 65535 - sum16 (udpCovered n z)
    put16 z (n.l4 + 6) (if c = 0 then 65535 else c)
  else f1

/-! ### Queues (R289 to R291, R304) -/

/-- ETH_Q_n across its words. -/
def State.ethQ (s : State) (n : Nat) : BitVec 256 :=
  BitVec.ofNat 256 (leNat ((sgetRun 0 s.ethq (8 * n) 8).flatMap fun w => leBytes 4 w.toNat))

def qOn (q : BitVec 256) : Bool := bitAt q 0
def qPort (q : BitVec 256) : Nat := fieldNat q 1 1
def qCtx (q : BitVec 256) : BitVec 6 := slice q 2 6
def qSize (q : BitVec 256) : Nat := 2 ^ (min 12 (fieldNat q 11 8) + 4)
def qVlan (q : BitVec 256) : Nat := fieldNat q 23 12
def qUdp (q : BitVec 256) : Nat := fieldNat q 47 32

/-- The ring positions of a queue. -/
def State.ethRing (s : State) (n : Nat) : EthRing := sget {} s.eth n

/-- The state with the ring positions of a queue changed. -/
def State.updEth (s : State) (n : Nat) (f : EthRing → EthRing) : State := { s with eth := supd {} s.eth n f }

/-- A frame dropped, and a frame not sent, at a port (DESIGN CHOICE, log 103). -/
def State.rxDrop (s : State) (p : Nat) : State := { s with cnt := { s.cnt with ethRxDrop := bump 16 s.cnt.ethRxDrop p } }
def State.txErr (s : State) (p : Nat) : State := { s with cnt := { s.cnt with ethTxErr := bump 8 s.cnt.ethTxErr p } }

/-- A buffer of a queue may be used by its context (R129). -/
def State.bufOk (s : State) (c : BitVec 6) (write : Bool) (a n : Nat) : Bool :=
  decide (a + n ≤ s.capacity) && (s.pageFail c write false a n).isNone

/-- A ring entry written back. -/
def State.putEntry (s : State) (c : BitVec 6) (a : Nat) (e : Nat) : State := (s.writeBytes c 0 false false a (leBytes 8 e)).1

/-- An entry with length, done and error set. -/
def entryWith (addr len : Nat) (err : Bool) : Nat := addr + len * 2 ^ 48 + 2 ^ 62 + err.toNat * 2 ^ 63

/-- A frame goes into the next receive entry of a queue (R289); an entry whose buffer cannot take it is passed with done and error set
and without a sync add (DESIGN CHOICE, log 39). -/
def State.queueRx (s : State) (n : Nat) (q : BitVec 256) (f : List Byte) : State :=
  let c := qCtx q
  let a := fieldNat q 175 128 + 16 * ((s.ethRing n).rxNext % qSize q)
  let r := s.readBytes c 0 false a 8
  let e := leNat r.bytes
  let buf := e % 2 ^ 48
  if r.fail.isSome ∨ !r.st.bufOk c true a 16 ∨ e.testBit 62 then r.st.rxDrop (qPort q)
  else
    let next (s : State) : State := s.updEth n fun p => { p with rxNext := p.rxNext + 1 }
    let bad (s : State) : State := next ((s.putEntry c a (entryWith buf (e / 2 ^ 48 % 2 ^ 14) true)).rxDrop (qPort q))
    if e / 2 ^ 48 % 2 ^ 14 < f.length ∨ !r.st.bufOk c true buf f.length then bad r.st
    else
      match r.st.writeBytes c 0 false false buf f with
      | (s1, some _) => bad s1
      | (s1, none) => next ((s1.putEntry c a (entryWith buf f.length false)).syncAddIf (fieldNat q 220 208) c 1)

/-- ETH_TRANSMIT (R289, R291): the next entry of a transmit ring while the count of sent ones is below tx_sync. It waits while a channel of the
entry or of its buffer is in reset (R133). -/
def execEthTransmit (q : Fin 32) : State → Host.Outcome State Fault Refusal :=
  act fun s =>
    let w := s.ethQ q
    let c := qCtx w
    let p := qPort w
    let sent := (s.ethRing q).txSent
    if !qOn w ∨ !s.compute ∨ !(sget false s.ethUp p) ∨ !s.objOk (fieldNat w 204 192) c ∨ (s.obj (fieldNat w 204 192)).count ≤ (sent : Int) then s
    else
      let a := fieldNat w 111 64 + 16 * (sent % qSize w)
      let r := s.readBytes c 0 false a 8
      let e := leNat r.bytes
      let buf := e % 2 ^ 48
      let len := e / 2 ^ 48 % 2 ^ 14
      let next (s : State) : State := s.updEth q fun x => { x with txSent := sent + 1 }
      if s.memWaits a 16 ∨ r.st.memWaits buf len then s
      else if r.fail.isSome ∨ !r.st.bufOk c false a 16 then next (r.st.txErr p)
      else if len < 60 ∨ 9212 < len ∨ !r.st.bufOk c false buf len then next ((r.st.putEntry c a (entryWith buf len true)).rxDrop p)
      else
        let d := r.st.readBytes c 0 false buf len
        if d.fail.isSome then next ((d.st.putEntry c a (entryWith buf len true)).txErr p)
        else
          let s1 : State := { d.st with ethOut := d.st.ethOut ++ [(p, fillChecksums d.bytes)] }
          next (s1.putEntry c a (entryWith buf len false))

/-! ### Streams: order and access units (R223 to R226, R231, R237) -/

/-- The stream of an instance. -/
def State.stream (s : State) (i : Nat) : Option Stream := s.streams.find? fun x => x.inst = i

/-- The state with the stream of an instance changed. -/
def State.updStream (s : State) (i : Nat) (f : Stream → Stream) : State :=
  { s with streams := s.streams.map fun x => if x.inst = i then f x else x }

/-- An access unit or picture that is not delivered: the decoder starts anew at the next random access point (R237). -/
def State.badFrame (s : State) (i : Nat) : State :=
  ({ s with cnt := { s.cnt with itkBad := satAdd 16 s.cnt.itkBad 1 } }).updStream i fun x =>
    { x with bad := satAdd 16 x.bad 1, waitKey := x.waitKey || rCodec x.record ≠ 3, dpb := [], engState := [] }

/-- A packet dropped as malformed (R242). -/
def State.malformed (s : State) : State := { s with cnt := { s.cnt with itkMalformed := satAdd 16 s.cnt.itkMalformed 1 } }

/-- Access units at the front that are incomplete are counted, once every unit before them is decoded (R226, R237). -/
def State.settleUnits : Nat → State → Nat → State
  | 0, s, _ => s
  | n + 1, s, i =>
    match (s.stream i).map (·.decoding) with
    | some (u :: rest) => if u.broken then ((s.updStream i fun x => { x with decoding := rest }).badFrame i).settleUnits n i else s
    | _ => s

/-- The open access unit ends and goes to the engine behind the earlier ones (R226). -/
def State.endUnit (s : State) (i : Nat) : State :=
  match s.stream i with
  | none => s
  | some x =>
    match x.unit with
    | none => s
    | some u =>
      (s.updStream i fun x => { x with unit := none, decoding := x.decoding ++ [u],
                                       progress := if x.decoding.isEmpty then s.now else x.progress }).settleUnits (x.decoding.length + 1) i

/-- A packet passed on in sequence order; gap says that lost ones stood before it. A loss makes the open unit and, where the packet begins
one, its own unit incomplete (DEDUCED, log 40); so does a packet that was dropped, of its own unit. -/
def State.pass (s : State) (i : Nat) (p : RtpPkt) (at_ : Nat) (gap : Bool) : State :=
  let s1 := s.updStream i fun x => { x with unit := x.unit.map fun u => { u with broken := u.broken || gap } }
  let s2 := match (s1.stream i).bind (·.unit) with
    | some u => if u.ts ≠ p.ts then s1.endUnit i else s1
    | none => s1
  let s3 := s2.updStream i fun x =>
    let u := x.unit.getD { ts := p.ts }
    { x with unit := some { u with pkts := u.pkts ++ [p], broken := u.broken || gap || !p.kept, arrival := at_ } }
  if p.marker then s3.endUnit i else s3

/-- Held packets that are next in order are passed on. -/
def State.flushHeld : Nat → State → Nat → Bool → State
  | 0, s, _, _ => s
  | n + 1, s, i, gap =>
    match s.stream i with
    | none => s
    | some x =>
      match x.held with
      | [] => s
      | (e, p, at_) :: rest =>
        if e = x.next then
          ((s.updStream i fun x => { x with held := rest, next := x.next + 1 }).pass i p at_ gap).flushHeld n i false
        else s

/-! ### The work area (R125, R230, R231, R238): picture slots, then the packet share (DESIGN CHOICE, log 177) -/

/-- The packet share of the work area in bytes (R231). -/
def packetShare (r : StreamRec) : Nat := rRate r * 25 * (rReorder r + 1000) / 2

/-- Bytes of a picture at the declared size, and the slots for pictures; a JPEG stream keeps one picture, of either sampling. -/
def rPicBytes (r : StreamRec) : Nat :=
  let w := rWidth r
  let h := rHeight r
  if rCodec r = 3 then 3 * w * h else (w * h + 2 * (ceilDiv w 2 * ceilDiv h 2)) * (if rTenBit r then 2 else 1)
def rPics (r : StreamRec) : Nat := if rCodec r = 1 then 7 else if rCodec r = 2 then 9 else 1

/-- Where the packets begin in the work area, and the bytes of it that they may take. -/
def rPktBase (r : StreamRec) : Nat := rPics r * rPicBytes r
def rPktRoom (r : StreamRec) : Nat := min (packetShare r) (fieldNat r 383 352 - rPktBase r)

/-- A read and a write in a stream's work area under its context's key slot. -/
def State.workRead (s : State) (x : Stream) (off n : Nat) : ReadRes :=
  s.readBytes x.ctx (s.ctxSlot x.ctx.toNat) false (fieldNat x.record 335 288 + off) n
def State.workWrite (s : State) (x : Stream) (off : Nat) (bs : List Byte) : State :=
  (s.writeBytes x.ctx (s.ctxSlot x.ctx.toNat) false true (fieldNat x.record 335 288 + off) bs).1

/-- The runs of packet bytes that a stream holds. -/
def Stream.runs (x : Stream) : List (Nat × Nat) :=
  ((x.held.map (·.2.1)) ++ (x.unit.toList ++ x.decoding).flatMap (·.pkts)).flatMap (·.runs)

/-- Packet bytes that a stream holds. -/
def Stream.bytes (x : Stream) : Nat := sumOf (x.runs.map (·.2))

/-- The runs from lo to hi that the given ones, in rising order, leave free. -/
def gapsBetween (lo hi : Nat) : List (Nat × Nat) → List (Nat × Nat)
  | [] => if lo < hi then [(lo, hi - lo)] else []
  | (a, n) :: rest => (if lo < a then [(lo, a - lo)] else []) ++ gapsBetween (max lo (a + n)) hi rest

/-- The first n bytes of a list of runs. -/
def firstBytes : Nat → List (Nat × Nat) → List (Nat × Nat)
  | _, [] => []
  | n, (a, k) :: rest => if n = 0 then [] else if n ≤ k then [(a, n)] else (a, k) :: firstBytes (n - k) rest

/-- A packet's bytes written into its runs. -/
def State.storePkt (s : State) (x : Stream) (p : List Byte) : List (Nat × Nat) → State
  | [] => s
  | (a, n) :: rest => (s.workWrite x (rPktBase x.record + a) (p.take n)).storePkt x (p.drop n) rest

/-- The packets of a unit read back, or the failure that ends the reading: true for a poisoned line (R238). -/
def State.readPkts (s : State) (x : Stream) (pkts : List RtpPkt) : State × List (List Byte) × Option Bool :=
  pkts.foldl (fun acc p =>
    if acc.2.2.isSome then acc
    else
      let r := p.runs.foldl (fun (a : State × List Byte × Option Bool) run =>
        if a.2.2.isSome then a
        else
          let d := a.1.workRead x (rPktBase x.record + run.1) run.2
          (d.st, a.2.1 ++ d.bytes, d.fail.map fun e => !e.1 && (d.st.tag e.2).poison)) (acc.1, [], none)
      (r.1, acc.2.1 ++ [r.2.1], r.2.2)) (s, [], none)

/-- The stored pictures of slots read back; none where a read fails (R238). -/
def State.readPics (s : State) (x : Stream) (slots : List Nat) : State × Option (List (Nat × List Byte)) :=
  slots.foldl (fun acc k =>
    match acc.2 with
    | none => acc
    | some got =>
      let d := acc.1.workRead x (k * rPicBytes x.record) (rPicBytes x.record)
      (d.st, if d.fail.isSome then none else some (got ++ [(k, d.bytes)]))) (s, some [])

/-- Bytes of a sample in the work area (R231). -/
def rSampleBytes (r : StreamRec) : Nat := if rTenBit r then 2 else 1

/-- A decoded picture stored in a slot. -/
def State.storePic (s : State) (x : Stream) (slot : Nat) (p : Picture) : State :=
  s.workWrite x (slot * rPicBytes x.record) (p.samples.flatMap fun v => leBytes (rSampleBytes x.record) v.toNat)

/-- The samples of a stored picture. -/
def samplesOf (r : StreamRec) (bs : List Byte) : List (BitVec 16) := (chunks (rSampleBytes r) bs).map fun b => BitVec.ofNat 16 (leNat b)

/-- The 32-bit extension of a sequence number nearest the highest so far (R225). -/
def extendSeq (highest : Option Nat) (q : Nat) : Nat :=
  match highest with
  | none => 65536 + q
  | some h =>
    let base := h / 65536 * 65536 + q
    let near (c : Nat) : Nat := (c - h) + (h - c)
    [base + 65536, base - 65536].foldl (fun b c => if near c < near b then c else b) base

/-- A packet that is neither old nor a duplicate is held: stored, or dropped as malformed (R226) or as beyond the packet share and then counted as
lost (R231); what is in order goes on. -/
def State.hold (s : State) (i : Nat) (x : Stream) (e : Nat) (p : List Byte) : State :=
  let good := formatOk (rCodec x.record) (rtpPayload p)
  let room := decide (x.bytes + p.length ≤ rPktRoom x.record)
  let runs := if good && room then firstBytes p.length (gapsBetween 0 (rPktRoom x.record) (sortBy (·.1) x.runs)) else []
  let pkt : RtpPkt := { ts := BitVec.ofNat 32 (beAt p 4 4), marker := 128 ≤ beAt p 1 1, kept := good && room, runs := runs }
  let s1 := (if good then s else s.malformed).storePkt x p runs
  (s1.updStream i fun x =>
    { x with next := if x.highest.isNone then e else x.next, highest := some (max e (x.highest.getD e)),
             lost := if good && !room then satAdd 16 x.lost 1 else x.lost,
             held := insBy (·.1) (e, pkt, s.time.tick) x.held }).flushHeld (x.held.length + 1) i false

/-- An RTP packet of a stream (R223, R225). -/
def State.rtp (s : State) (i : Nat) (x : Stream) (p : List Byte) : State :=
  if beAt p 0 1 / 64 ≠ 2 ∨ beAt p 1 1 % 128 ≠ rPt x.record ∨ p.length < 12 then s.malformed
  else
    let s0 := s.updStream i fun x => { x with lastPacket := s.now, stalled := false }
    let e := extendSeq x.highest (beAt p 2 2)
    if e + 32768 < x.highest.getD e then s0.malformed
    else if (x.highest.isSome ∧ e < x.next) ∨ x.held.any (fun h => h.1 = e) then s0
    else s0.hold i x e p

/-- REORDER_GAP_TIMEOUT (R225): the packet after a gap has waited its window; the gap is declared lost and order goes on behind it. -/
def execReorderGapTimeout (stream : Nat) : State → Host.Outcome State Fault Refusal :=
  act fun s =>
    match s.stream stream with
    | none => s
    | some x =>
      match x.held with
      | [] => s
      | (e, _, at_) :: _ =>
        if x.next < e ∧ at_ + 10000 * rReorder x.record ≤ s.time.tick ∧ s.compute ∧ !s.itkReset then
          (s.updStream stream fun x => { x with lost := satAdd 16 x.lost (e - x.next), next := e }).flushHeld x.held.length stream true
        else s

/-! ### Received frames (R288) -/

/-- A UDP frame matches a stream's steering entry (R223, R224). -/
def steers (x : Stream) (p : Nat) (n : Net) (f : List Byte) : Bool :=
  let r := x.record
  x.steering && n.proto = 17 && rPort r = p && rIpv6 r = n.v6 && rIp r = n.dst && rUdp r = n.port
    && (!rSsrcMatch r || beAt f (n.l4 + 16) 4 = rSsrc r)

/-- A frame for the management complex (R288 path 2). -/
def State.mgmtFrame (s : State) (p : Nat) (n : Net) (f : List Byte) : Bool :=
  let mine := n.mac = (sget (0 : BitVec 48) s.flash.mac p).toNat || n.mac = 2 ^ 48 - 1
  let t := beAt f n.l4 1
  let kind := n.ety = 0x0806 || (n.v6 && n.proto = 58 && (decide (133 ≤ t) && decide (t ≤ 137) || t = 128))
    || (n.ety = 0x0800 && n.proto = 1 && t = 8) || (n.proto = 17 && (n.port = 67 || n.port = 68 || n.port = 546))
  (mine && kind) || (n.proto = 17 && n.port = s.fld 0xD00010 0 16) || (n.proto = 6 && n.port = s.fld 0xD00010 16 16)

/-- The first enabled queue that a frame matches (R288 path 3). -/
def State.rxQueue (s : State) (p : Nat) (n : Net) : Option Nat :=
  firstFrom (fun i =>
    let q := s.ethQ i
    qOn q && qPort q = p && qVlan q = n.vlan && n.proto = 17 && qUdp q = n.port) 32 0

/-- ETH_FRAME_RECEIVE (R287, R288): the first matching path; a bad FCS or checksum, or no path, is a counted drop. -/
def execEthFrameReceive (port : Fin 2) (fcsOk : Bool) (frame : List (BitVec 8)) : State → Host.Outcome State Fault Refusal :=
  act fun s =>
    let n := netOf frame
    if !(sget false s.ethUp port) ∨ !s.compute then s
    else if !fcsOk ∨ 9212 < frame.length ∨ !checksumsOk n frame then s.rxDrop port
    else
      match s.streams.find? fun x => steers x port n frame with
      | some x => if s.itkReset then s else s.rtp x.inst x ((frame.drop (n.l4 + 8)).take (beAt frame (n.l4 + 4) 2 - 8))
      | none =>
        if s.mgmtFrame port n frame then { s with mgmtRx := s.mgmtRx ++ [frame] }
        else
          match s.rxQueue port n with
          | some q => s.queueRx q (s.ethQ q) frame
          | none => s.rxDrop port

/-- ETHERNET_LINK_CHANGE (R303); a link that comes up joins the groups of its streams again (R288). -/
def execEthernetLinkChange (port : Fin 2) (up : Bool) : State → Host.Outcome State Fault Refusal :=
  act fun s =>
    if !s.compute then s
    else
      let s1 : State := { s with ethUp := sset false s.ethUp port up }
      forEach (s.groups port) (fun s g => s.tellGroup true port g) s1

/-! ### Decoded frames and the shaper (R227, R232 to R237) -/

/-- The instance that a stream feeds. -/
def State.streamInst (s : State) (x : Stream) : Option Instance := s.inst x.inst

/-- The ready tick of period j (R234). -/
def Instance.ready (i : Instance) (r : StreamRec) (j : Nat) : Nat := i.tick0 j + rReady r

/-- T_s (R234). -/
def shapeTicks (r : StreamRec) : Nat := ceilDiv (rOutW r * rOutH r) 160

/-- The shaper takes a frame up: it reads the picture from the work area, and a read that fails makes it a corrupt one (R230, R238). -/
def State.shapeStart (s : State) (i : Nat) (x : Stream) (f : Frame) : State :=
  let d := s.workRead x (f.slot * rPicBytes x.record) (rPicBytes x.record)
  if d.fail.isSome then d.st.badFrame i
  else d.st.updStream i fun x =>
    { x with shaping := some { f with period := x.period, pic := { f.pic with samples := samplesOf x.record d.bytes } } }

/-- A frame starts shaping for the period whose ready tick comes next, while there is time for it; else it waits, and a frame that waited
before it is passed over (R234 rules 1 and 2). -/
def State.shapeNext (s : State) (i : Nat) (f : Frame) : State :=
  match s.stream i, s.inst i with
  | some x, some t =>
    if x.shaping.isNone ∧ s.time.tick + 2 * shapeTicks x.record ≤ t.ready x.record x.period then s.shapeStart i x f
    else
      s.updStream i fun x => { x with waiting := some f, superseded := if x.waiting.isSome then satAdd 8 x.superseded 1 else x.superseded }
  | _, _ => s

/-- The waiting frame, where there is one, is taken up again. -/
def State.shapeWaiting (s : State) (i : Nat) : State :=
  match (s.stream i).bind (·.waiting) with
  | none => s
  | some f => (s.updStream i fun x => { x with waiting := none }).shapeNext i f

/-- A decoded picture: stored in the first slot that holds no reference, then shaped or made to wait (R230, R234). -/
def State.deliver (s : State) (i : Nat) (x : Stream) (u : AccessUnit) (d : Decoded) : State :=
  let slot := (firstFrom (fun k => !x.dpb.contains k) (rPics x.record) 0).getD 0
  ((s.storePic x slot d.pic).updStream i fun x =>
    { x with waitKey := false, engState := d.state,
             dpb := (x.dpb.filter d.keeps.contains) ++ (if d.keepNew then [slot] else []) }).shapeNext i
    { ts := u.ts, arrival := u.arrival, slot := slot, pic := { d.pic with samples := [] } }

/-- The engine's work on an access unit (R227, R230, R237, R238): its packets and its reference pictures read back from the work area, the picture
that the standards give it, and why it is not delivered where it is not. -/
def State.decodeUnit (s : State) (i : Nat) (x : Stream) (u : AccessUnit) : State :=
  let c := rCodec x.record
  let ten := rTenBit x.record
  match s.readPkts x u.pkts with
  | (s1, _, some poisoned) => (if poisoned then s1.updStream i fun x => { x with lost := satAdd 16 x.lost 1 } else s1).badFrame i
  | (s1, unit, none) =>
    match s1.readPics x ((Config.decodeRefs c ten x.engState unit).filter x.dpb.contains) with
    | (s2, none) => s2.badFrame i
    | (s2, some refs) =>
      match Config.decode c ten x.engState refs unit with
      | none => s2.badFrame i
      | some d =>
        if rWidth x.record < d.pic.width ∨ rHeight x.record < d.pic.height ∨ (x.waitKey ∧ !d.pic.randomAccess) then s2.badFrame i
        else s2.deliver i x u d

/-- DECODE_COMPLETE (R227, R234, R236 to R238): the engine of the stream ends its oldest access unit. Its accesses wait while a channel of the work area is
in reset (R133). -/
def execDecodeComplete (stream : Nat) (engine : Fin 16) : State → Host.Outcome State Fault Refusal :=
  act fun s =>
    match s.stream stream with
    | none => s
    | some x =>
      match x.decoding with
      | [] => s
      | u :: rest =>
        if x.engine ≠ engine.val ∨ s.itkReset ∨ !s.compute ∨ s.memWaits (fieldNat x.record 335 288) (fieldNat x.record 383 352) then s
        else ((s.updStream stream fun x => { x with decoding := rest, progress := s.now }).decodeUnit stream x u).settleUnits rest.length stream

/-- The buffer of period j in a cell. -/
def bufAddr (r : StreamRec) (j : Nat) : Nat := rBuf r + j % rNbuf r * rBufBytes r

/-- A frame's tiles written into the buffer of its period in every cell (R233). -/
def State.writeTiles (s : State) (r : StreamRec) (f : Frame) : State :=
  forEach (List.range (rTiles r)) (fun s t =>
    s.cellPut (rCellFirst r + t % rCells r) (bufAddr r f.period + 64 + t / rCells r * rTileBytes r) (tileBytes r f.pic t)) s

/-- SHAPING_COMPLETE (R234): the last tile write is accepted; a shaping that ran past its ready tick is discarded as late. The newest
waiting frame follows. A frame written over in its buffer by a later one of the same period counts as superseded (R236; DEDUCED, log 179). -/
def execShapingComplete (stream : Nat) : State → Host.Outcome State Fault Refusal :=
  act fun s =>
    match s.stream stream with
    | none => s
    | some x =>
      match x.shaping with
      | none => s
      | some f =>
        if s.itkReset ∨ !s.compute then s
        else
          let s0 := s.updStream stream fun x => { x with shaping := none }
          (if f.period < x.period then s0.updStream stream fun x => { x with late := satAdd 8 x.late 1 }
            else (s0.writeTiles x.record f).updStream stream fun x =>
              { x with shaped := some (f.ts, f.arrival, s.time.tick),
                       superseded := if x.shaped.isSome then satAdd 8 x.superseded 1 else x.superseded }).shapeWaiting stream

/-- The tiles of a buffer without a new frame are undefined (R236): free values (DESIGN CHOICE, log 105). -/
def State.undefineTiles (s : State) (r : StreamRec) (j : Nat) : State :=
  forEach (List.range (rCells r)) (fun s c =>
    let w := s.freeBytes (rBufBytes r - 64)
    w.1.cellPut (rCellFirst r + c) (bufAddr r j + 64) w.2) s

/-- The frame header of a stream's period (R235, R236). -/
def Stream.header (x : Stream) : List Byte :=
  let status := if x.shaped.isSome then 1 else if x.stalled then 4 else if x.waitKey then 3 else 2
  let f := x.shaped.getD (0, 0, 0)
  leBytes 64 (status + cap 8 x.superseded * 2 ^ 8 + cap 16 x.lost * 2 ^ 16 + cap 16 x.bad * 2 ^ 32 + cap 8 x.late * 2 ^ 48
    + x.period % 2 ^ 32 * 2 ^ 64 + f.1.toNat * 2 ^ 96 + f.2.1 % 2 ^ 64 * 2 ^ 128 + f.2.2 % 2 ^ 64 * 2 ^ 192)

/-- READY_TICK (R234 rule 3, R235): the header goes to the period's buffer in every cell of the stream, then the sync add; the next period
begins for the stream. -/
def execReadyTick (stream : Nat) : State → Host.Outcome State Fault Refusal :=
  act fun s =>
    match s.stream stream, s.inst stream with
    | some x, some i =>
      let runs := i.state = .armed || (i.state = .releasing && !i.releaseNow && decide (x.period < i.lastPeriod))
      if !x.armed ∨ !runs ∨ s.itkReset ∨ !s.compute ∨ s.time.tick < i.ready x.record x.period then s
      else
        let r := x.record
        let s0 := if x.shaped.isSome then s else s.undefineTiles r x.period
        let s1 := forEach (List.range (rCells r)) (fun s c => s.cellPut (rCellFirst r + c) (bufAddr r x.period) x.header) s0
        let s2 := s1.syncAddIf (rSync r) x.ctx 1
        (s2.updStream stream fun x =>
          { x with superseded := 0, lost := 0, bad := 0, late := 0, shaped := none, period := x.period + 1 }).shapeWaiting stream
    | _, _ => s

/-- STALL_TIMEOUT (R236, R240): no packet for stall_ms; the stream then waits for a random access point. -/
def execStallTimeout (stream : Nat) : State → Host.Outcome State Fault Refusal :=
  act fun s =>
    match s.stream stream with
    | none => s
    | some x =>
      if x.armed ∧ !x.stalled ∧ x.lastPacket + msTicks (max 10 (s.fld 0x600010 0 16)) ≤ s.now ∧ s.compute ∧ !s.itkReset then
        s.updStream stream fun x => { x with stalled := true, waitKey := x.waitKey || rCodec x.record ≠ 3 }
      else s

end Sys2Proof.Machine
end

