-- ==== Sys2Proof/Machine/Contexts.lean ====
section
/-! DEFINITION. FENCE (R466, R467), CONTEXT_CREATE and CONTEXT_DESTROY (R261 to R263), QUERY (R268), and what the memory controllers
and the scrub engine do by themselves (R132, R146). -/

namespace Sys2Proof.Machine

/-! ### FENCE (R466, R467) -/

/-- The rings of a context but one. -/
def State.otherRings (s : State) (c : BitVec 6) (sq : Nat) : List Nat := (s.ringsOf c).filter fun n => n ≠ sq

/-- FENCE starts: its set is what its scope has started; cancel completes what the context's other rings have not started. -/
def State.fenceStart (s : State) (sq slot : Nat) (d : Line) : State :=
  let c := (s.sq sq).ctx
  let all := decide (fieldNat d 129 128 = 1)
  match lowestBad [(128, 2 ≤ fieldNat d 129 128), (132, fieldNat d 511 132 ≠ 0)] with
  | some b => s.complete sq slot d (badBit b)
  | none =>
    let rings := s.otherRings c sq
    let inScope (j : Job) : Bool := j.sq = sq || (all && rings.contains j.sq)
    let waits := (s.jobs.filter inScope).map fun j => (j.sq, j.slot)
    let cut := if all && bitAt d 130 then rings else []
    let n := sumOf (cut.map fun r => (s.sq r).ready.length)
    let s1 := (forEach cut (fun s r => s.fenceReady r) s).startJob sq slot d (.fence waits n (bitAt d 131))
    (s1.settleFences s1.jobs.length).settleCloses

/-- FENCE (R467). -/
def execFence (sq : Fin 256) : State → Host.Outcome State Fault Refusal :=
  act fun s => s.startRow sq 0x18 (fun _ => true) fun s slot d => s.fenceStart sq slot d

/-! ### CONTEXT_CREATE (R261, R262) -/

/-- A page range of a CONTEXT_CREATE: the bit it begins at, its first page, its count and whether its pages become shared. -/
structure PageRange where
  bit : Nat := 0
  first : Nat := 0
  count : Nat := 0
  shared : Bool := false

/-- The ranges that a CONTEXT_CREATE uses. -/
def pageRanges (d : Line) : List PageRange :=
  ((List.range 3).map fun k =>
    let b := 192 + 64 * k
    ({ bit := b, first := fieldNat d (b + 18) b, count := fieldNat d (b + 37) (b + 19), shared := bitAt d (b + 38) } : PageRange)).filter
    fun r => r.count ≠ 0

/-- A page lies in a range. -/
def PageRange.has (r : PageRange) (p : Nat) : Bool := decide (r.first ≤ p) && decide (p < r.first + r.count)

/-- Two ranges have a page in common. -/
def PageRange.meets (a b : PageRange) : Bool := decide (a.first < b.first + b.count) && decide (b.first < a.first + a.count)

/-- The pages of the ranges. -/
def rangePages (rs : List PageRange) : List Nat := rs.flatMap fun r => (List.range r.count).map fun i => r.first + i

/-- The slice assigned to this module; 0 where it has none (R379). -/
def State.ownSlice (s : State) : Nat := fieldNat s.agent.sliceRec 71 64

/-- The bits of the first case of R262, the host window table apart (DEDUCED, log 82). -/
def State.createBad (s : State) (d : Line) : List (Nat × Bool) :=
  let rs := pageRanges d
  let cap := s.capacity / pageSize
  let itk := fieldNat d 431 384
  let n := fieldNat d 442 432
  let area := pagesOf itk (128 * n)
  [(128, fieldNat d 133 128 = 0 || (s.ctx (fieldNat d 133 128)).live), (134, fieldNat d 135 134 ≠ 0), (147, fieldNat d 159 147 ≠ 0),
    (160, fieldNat d 167 160 ≠ 0 && fieldNat d 167 160 ≠ s.ownSlice), (168, 16 < fieldNat d 172 168), (173, fieldNat d 191 173 ≠ 0),
    (231, fieldNat d 255 231 ≠ 0), (295, fieldNat d 319 295 ≠ 0), (359, fieldNat d 383 359 ≠ 0),
    (384, n ≠ 0 && (itk % 64 ≠ 0 || !(area.all fun p => rs.any fun r => r.has p))), (432, 1024 < n),
    (443, fieldNat d 447 443 ≠ 0), (448, fieldNat d 511 448 % 16 ≠ 0)]
  ++ rs.map fun r => (r.bit, decide (cap < r.first + r.count) || rs.any fun q => decide (r.bit < q.bit) && r.meets q)

/-- The windows of a host window table. -/
def hostWindows (bs : List Byte) : List Window :=
  (chunks 16 bs).map fun e => { base := leNat (e.take 8), len := leNat (e.drop 8) }

/-- The lowest bit at fault in a host window table (R262, R255). -/
def windowBad (ws : List Window) : Option Nat :=
  firstBad (ws.zipIdx.flatMap fun wi => [(128 * wi.2, wi.1.base % 4096 ≠ 0),
    (128 * wi.2 + 64, wi.1.len % 4096 ≠ 0 || 0x1000000000 < wi.1.len)])

/-- A page assigned to a context (R128). -/
def assigned (c : BitVec 6) (k : BitVec 4) (shared : Bool) : Page :=
  { state := if shared then .shared else .owned, ctx := c, keySlot := k }

/-- The outcome of a CONTEXT_CREATE, its window table at hand: the cases of R262 in order. One for a confidential context first ends a
debug session and locks the debug port (R510). -/
def State.createDone (s : State) (sq slot : Nat) (d : Line) (ws : List Window) : State :=
  let c := fieldNat d 133 128
  let k := fieldNat d 139 136
  let rs := pageRanges d
  let pages := rangePages rs
  let retain := bitAt d 146
  let key := s.key k
  match lowestBad (s.createBad d) with
  | some b => s.endDesc sq slot d (badBit b)
  | none =>
    match windowBad ws with
    | some b => s.endDesc sq slot d (badObj b)
    | none =>
      if k ≠ 0 ∧ (!key.keyed ∨ key.gen.toNat ≠ fieldNat d 145 140) then s.endDesc sq slot d { status := stSecDenied }
      else if k ≠ 0 ∧ ((rs.any fun r => r.shared) ∨ retain ∨ fieldNat d 172 168 ≠ 0) then s.endDesc sq slot d { status := stSecDenied }
      else if pages.any fun p => (s.page p).state = .owned || (s.page p).state = .shared then
        s.endDesc sq slot d { status := stRejected }
      else if pages.any fun p => (s.page p).state = .scrubbing then s.endDesc sq slot d { status := stBusy }
      else if retain ∧ pages.any fun p => !(s.page p).retained then s.endDesc sq slot d (badBit 146)
      else
        let zero := if retain then [] else pages.filter fun p => (s.page p).retained
        let ctx : Context := { live := true, keySlot := BitVec.ofNat 4 k, slice := BitVec.ofNat 8 (fieldNat d 167 160), windows := ws,
                               itkBase := fieldNat d 431 384, itkCount := fieldNat d 442 432 }
        let shared (p : Nat) : Bool := rs.any fun r => r.shared && r.has p
        let own (m : Sparse Page) (p : Nat) : Sparse Page :=
          sset {} m p (if zero.contains p then { state := .scrubbing } else assigned (BitVec.ofNat 6 c) (BitVec.ofNat 4 k) (shared p))
        let s1 := { s with ctxs := sset {} s.ctxs c ctx, pages := pages.foldl own s.pages,
                           debugLocked := s.debugLocked || decide (k ≠ 0), debugOpen := s.debugOpen && decide (k = 0) }
        if zero.isEmpty then s1.endDesc sq slot d { status := stOk }
        else if (s1.job sq slot).isSome then s1.updJob sq slot fun _ => .createZero zero
        else s1.startJob sq slot d (.createZero zero)

/-- CONTEXT_CREATE starts: its host window table is read before it decides, where it has one (R262). -/
def State.createStart (s : State) (sq slot : Nat) (d : Line) : State :=
  let n := fieldNat d 172 168
  if n = 0 then s.createDone sq slot d []
  else s.startGather sq slot d (fieldNat d 511 448) (16 * n)

/-- CONTEXT_CREATE (R262). -/
def execContextCreate (sq : Fin 256) : State → Host.Outcome State Fault Refusal :=
  act fun s => s.startRow sq 0x16 (fun _ => true) fun s slot d => s.createStart sq slot d

/-! ### CONTEXT_DESTROY (R263) -/

/-- The pages that a context owns or shares. -/
def State.pagesHeld (s : State) (c : BitVec 6) : List Nat :=
  (s.pages.filter fun e => (e.2.state = .owned || e.2.state = .shared) && e.2.ctx = c).map (·.1)

/-- Every page of a context enters scrubbing (R146); the slot it was owned under is kept for R506. -/
def State.scrubPages (s : State) (c : BitVec 6) : State :=
  { s with pages := (s.pagesHeld c).foldl (fun m p => sset {} m p { state := .scrubbing, lastSlot := (s.page p).keySlot }) s.pages }

/-- What the module holds for a context is released or discarded (R263 steps 4 and 5, R290): sync objects, timetable objects, program
images with their digests, weight records, windows, barrier windows, Ethernet queues, pages, and the context id. -/
def State.forgetCtx (s : State) (c : BitVec 6) : State :=
  let off (m : Sparse (BitVec 32)) (q : Nat) : Sparse (BitVec 32) :=
    let w := sget 0 m (8 * q)
    if bitAt w 0 ∧ fieldNat w 7 2 = c.toNat then sset 0 m (8 * q) (w &&& 0xFFFFFFFE) else m
  let s1 := s.scrubPages c
  { s1 with
    sync := s.sync.filter fun e => e.2.ctx ≠ c,
    tt := { s.tt with objects := s.tt.objects.filter (fun o => o.ctx ≠ c), barriers := s.tt.barriers.filter fun b => b.ctx ≠ c },
    cells := s.cells.map fun e => (e.1, { e.2 with images := e.2.images.filter fun i => i.ctx ≠ c }),
    ethq := (List.range 32).foldl off s.ethq,
    ctxs := sset {} s.ctxs c.toNat {},
    debugLocked := s.debugLocked && ({ s1 with ctxs := sset {} s.ctxs c.toNat {} } : State).confMode }

/-- Every instance of a context released as by STREAM_RELEASE with now = 1 (R161). -/
def State.releaseAll (s : State) (c : BitVec 6) : State :=
  forEach (s.tt.instances.filter fun i => i.ctx = c) (fun s i => s.release i.id true { status := stOk }) s

/-- CONTEXT_DESTROY (R263). A running trickle entry of the context, which only the Ferry can have started once no ring is open, stops
with its queued ones (DEDUCED, log 84). -/
def State.destroyStart (s : State) (sq slot : Nat) (d : Line) : State :=
  let n := fieldNat d 133 128
  let c : BitVec 6 := BitVec.ofNat 6 n
  match lowestBad [(128, n = 0 || !(s.ctx n).live), (134, fieldNat d 511 134 ≠ 0)] with
  | some b => s.complete sq slot d (badBit b)
  | none =>
    if !(s.ringsOf c).isEmpty then s.complete sq slot d { status := stBusy }
    else if s.conf n then s.complete sq slot d { status := stSecDenied }
    else
      let s1 := (((s.releaseAll c).stopLaunches c .fenced).stopTrickle c .fenced).fenceTrickle c
      ((s1.closeSession c).1.forgetCtx c).complete sq slot d { status := stOk }

/-- CONTEXT_DESTROY (R263). -/
def execContextDestroy (sq : Fin 256) : State → Host.Outcome State Fault Refusal :=
  act fun s => s.startRow sq 0x17 (fun _ => true) fun s slot d => s.destroyStart sq slot d

/-! ### QUERY (R268) -/

/-- The selector of a QUERY. -/
def querySel (d : Line) : Nat := fieldNat d 135 128

/-- The escape counter of a cell as reported: 0 while the cell serves a confidential context (R73, R25). The cell's own
program has no operation that reads it (DESIGN CHOICE, log 169). -/
def State.escapeOf (s : State) (c : Nat) : Nat := if s.cellConf c then 0 else (s.cell c).escape

/-- The six words of a context summary (R268). -/
def State.summary (s : State) (c : Nat) : List Nat :=
  let b : BitVec 6 := BitVec.ofNat 6 c
  [(s.pagesHeld b).length, (s.sync.filter fun e => e.2.valid && e.2.ctx = b).length, s.usedTickets fun t => t.ctx = b,
    (s.tt.instances.filter fun i => i.ctx = b && (i.state = .admitted || i.state = .armed)).length,
    (s.tt.queue.filter fun e => e.ctx = b).length, (s.ctx c).weights.length]

/-- The report of a QUERY, before it is cut to length. -/
def State.report (s : State) (d : Line) : List Byte :=
  let arg := fieldNat d 191 160
  match querySel d with
  | 1 => (List.range (fieldNat d 271 256 / 4)).flatMap fun i => leBytes 4 (s.readReg (arg + 4 * i)).toNat
  | 2 => (List.range 128).flatMap fun c => leBytes 4 (s.escapeOf c)
  | _ => (s.summary arg).flatMap fun w => leBytes 4 w

/-- QUERY (R268): a use that a confidential context may not make is denied before the fields are looked at (DEDUCED, log 85). -/
def State.queryStart (s : State) (sq slot : Nat) (d : Line) : State :=
  let c := (s.sq sq).ctx
  let sel := querySel d
  let arg := fieldNat d 191 160
  let len := fieldNat d 271 256
  let argBad := (sel = 1 && arg % 4 ≠ 0) || (sel = 2 && arg ≠ 0) || (sel = 3 && !(decide (arg < 64) && (s.ctx arg).live))
  if s.conf c.toNat ∧ !(sel = 3 ∧ arg = c.toNat) then s.complete sq slot d { status := stSecDenied }
  else
    match lowestBad [(128, sel = 0 || 3 < sel), (136, fieldNat d 159 136 ≠ 0), (160, argBad), (192, fieldNat d 255 192 % 64 ≠ 0),
        (256, len < 64 || 4096 < len), (272, fieldNat d 511 272 ≠ 0)] with
    | some b => s.complete sq slot d (badBit b)
    | none =>
      let bs := (s.report d).take len
      s.reportOut sq slot d (fieldNat d 255 192) bs bs.length 0

/-- QUERY_REGISTERS (R268); a reserved selector is answered here too. -/
def execQueryRegisters (sq : Fin 256) : State → Host.Outcome State Fault Refusal :=
  act fun s => s.startRow sq 0x19 (fun d => querySel d ≠ 2 && querySel d ≠ 3) fun s slot d => s.queryStart sq slot d

/-- QUERY_ESCAPE_COUNTERS (R268). -/
def execQueryEscapeCounters (sq : Fin 256) : State → Host.Outcome State Fault Refusal :=
  act fun s => s.startRow sq 0x19 (fun d => querySel d = 2) fun s slot d => s.queryStart sq slot d

/-- QUERY_CONTEXT_SUMMARY (R268). -/
def execQueryContextSummary (sq : Fin 256) : State → Host.Outcome State Fault Refusal :=
  act fun s => s.startRow sq 0x19 (fun d => querySel d = 3) fun s slot d => s.queryStart sq slot d

/-! ### The scrub engine and the controllers (R132, R146) -/

/-- The descriptor that waits for a page to be zeroed before it is assigned (R262). -/
def State.zeroJob (s : State) (p : Nat) : Option Job := s.jobs.find? fun j => match j.kind with
  | .createZero ps => ps.contains p
  | _ => false

/-- A page that the scrub engine has zeroed: free, or the page of the CONTEXT_CREATE that waits for it. -/
def State.pageZeroed (s : State) (p : Nat) : State :=
  let s1 := s.zeroRange (p * pageSize) ((p + 1) * pageSize)
  match s.zeroJob p with
  | none => { s1 with pages := sset {} s1.pages p {} }
  | some j =>
    let c := fieldNat j.desc 133 128
    let shared := (pageRanges j.desc).any fun r => r.shared && r.has p
    let page : Page := if (s.ctx c).live then assigned (BitVec.ofNat 6 c) (BitVec.ofNat 4 (fieldNat j.desc 139 136)) shared else {}
    let left := match j.kind with
      | .createZero ps => ps.filter fun q => q ≠ p
      | _ => []
    let s2 := { s1 with pages := sset {} s1.pages p page }
    if left.isEmpty then s2.finish j.sq j.slot { status := stOk } else s2.updJob j.sq j.slot fun _ => .createZero left

/-- PAGE_ZEROED (R146): each line has zero data and the tag key_slot 0, key_gen 0, poison 0. -/
def execPageZeroed (page : Fin 393216) : State → Host.Outcome State Fault Refusal :=
  act fun s => if s.compute ∧ (s.page page).state = .scrubbing then s.pageZeroed page else s

/-- Errors that have come up in a line's symbols, laid over those it has. -/
def LineTag.hit (t : LineTag) (found : SymbolErrors) : LineTag :=
  { t with err := found.foldl (fun m e => supd 0 m e.1.val fun b => b ^^^ e.2) t.err }

/-- The line at a rewritten as its read gave it, under the tag read (R146). -/
def State.rewriteLine (s : State) (a : Nat) (bs : List Byte) (w : BitVec 24) : State :=
  { s with mem := memPut s.mem a bs,
           tags := sset {} s.tags (a / 64) { keySlot := slice w 0 4, keyGen := slice w 4 6, poison := bitAt w 10 } }

/-- SCRUB_PATROL (R146): the line, with the errors that have come up in it, is read through R124; with a correctable error, which is counted, it
is rewritten corrected, and a memory error, which is recorded, poisons it under its old tag. patrol_hours 0 is patrol off (R150). -/
def execScrubPatrol (line : BitVec 42) (found : SymbolErrors) : State → Host.Outcome State Fault Refusal :=
  act fun s =>
    let a := 64 * line.toNat
    if !s.compute ∨ s.fld 0x200040 0 8 = 0 ∨ s.capacity ≤ a ∨ s.groupInReset (s.controllerOf a) then s
    else
      let s0 : State := { s with scrubLine := line.toNat, tags := supd {} s.tags (a / 64) fun t => t.hit found }
      match s0.checkLine (s.page (a / pageSize)).ctx a with
      | (s1, none) => s1.poisonLine a
      | (s1, some (bs, w)) => if (s0.tag a).err.isEmpty then s1 else s1.rewriteLine a bs w

/-- REFRESH (R132): a bank is refreshed; its content stays. -/
def execRefresh (_ctl : Fin 32) (_bank : BitVec 8) : State → Host.Outcome State Fault Refusal := act fun s => s

/-- READ_RETRACK (R132): the controller tracks its read timing again, without blocking requests. -/
def execReadRetrack (_ctl : Fin 32) : State → Host.Outcome State Fault Refusal := act fun s => s

end Sys2Proof.Machine
end

