-- ==== Sys2Proof/Machine/Towpath.lean ====
section
/-! DEFINITION. How the module speaks: Towpath frames (R292, R293), alerts, stage reports (R474 to R476), the state code (R22, R284),
Watermaster envelopes by torus packet or in WM frames (R399, R405), and the agent's reports. -/

namespace Sys2Proof.Machine

/-! ### Ends -/

/-- An end whose rack and slot nobody knows, and a clock board (R292, R371). -/
def noEnd : End := 0xFFFF

/-- An end as Towpath frames carry it: rack [10:8], slot [5:0] (R292). -/
def towEnd (e : End) : Nat := if e = noEnd then 0xFFFF else fieldNat e 8 6 * 256 + fieldNat e 5 0

/-- The end that a Towpath frame names. -/
def ofTow (v : Nat) : End := if v = 0xFFFF then noEnd else BitVec.ofNat 16 (v / 256 % 8 * 64 + v % 64)

/-- An end and a port as findings and operator commands carry them: rack [2:0], slot [8:3], port [11:9] (R371). -/
def findEnd (e : End) (port : Nat) : End :=
  if e = noEnd then noEnd else BitVec.ofNat 16 (fieldNat e 8 6 + fieldNat e 5 0 * 8 + port % 8 * 512)

/-- The end that a finding or operator command names. -/
def ofFind (v : Nat) : End := if v % 65536 = 0xFFFF then noEnd else BitVec.ofNat 16 (v % 8 * 64 + v / 8 % 64)

/-! ### Towpath frames -/

/-- A Towpath frame with its CRC (R292). -/
def towFrame (type src dst seq payload : Nat) : BitVec 128 :=
  let v := type % 256 + src % 65536 * 2 ^ 8 + dst % 65536 * 2 ^ 24 + seq % 256 * 2 ^ 40 + payload % 2 ^ 64 * 2 ^ 48
  BitVec.ofNat 128 (v + (crc16 (leBytes 14 v)).toNat * 2 ^ 112)

def fType (f : BitVec 128) : Nat := fieldNat f 7 0
def fSrc (f : BitVec 128) : End := ofTow (fieldNat f 23 8)
def fDst (f : BitVec 128) : End := ofTow (fieldNat f 39 24)
def fSeq (f : BitVec 128) : Nat := fieldNat f 47 40
def fPay (f : BitVec 128) : Nat := fieldNat f 111 48

/-- The CRC of a Towpath frame is good. -/
def towOk (f : BitVec 128) : Bool := fieldNat f 127 112 = (crc16 (leBytes 14 (f.toNat % 2 ^ 112))).toNat

/-- The agent domain runs: from the end of stage 0 on, while powered, out of cold reset and not frozen (R21, R479). -/
def State.agentUp (s : State) : Bool := s.tow.agentOn && !s.frz.frozen && !s.rst.cold

/-- A frame sent on the chain while the relays are open (R295) (DESIGN CHOICE, log 87). -/
def State.towSend (s : State) (type dst payload : Nat) : State :=
  if s.agentUp ∧ s.tow.culvertOpen then
    { s with tow := { s.tow with out := s.tow.out ++ [towFrame type (towEnd s.ownEnd) dst s.tow.seq payload], seq := (s.tow.seq + 1) % 256 } }
  else s

/-- ALERT frames go to all (R293). -/
def towAll : Nat := 0xFFFF

/-- A condition of ALERT begins: its first frame, and it repeats. -/
def State.alertOn (s : State) (code : BitVec 8) : State :=
  if s.tow.alerts.contains code then s
  else
    ({ s with tow := { s.tow with alerts := s.tow.alerts ++ [code], alertAt := sset 0 s.tow.alertAt code.toNat s.now } }).towSend
      0x03 towAll code.toNat

/-- A condition of ALERT ends: one more frame with bit 8 set. -/
def State.alertOff (s : State) (code : BitVec 8) : State :=
  if s.tow.alerts.contains code then
    ({ s with tow := { s.tow with alerts := s.tow.alerts.erase code, alertAt := sset 0 s.tow.alertAt code.toNat 0 } }).towSend
      0x03 towAll (code.toNat + 256)
  else s

/-! ### The state of the module (R22, R284) -/

/-- Below floor: too few channels or cells, a bad mesh link, or a bad Ferry (R135, R85, R486). -/
def State.belowFloor (s : State) : Bool := s.memBelow || s.cellsBelow || s.boot.meshBad || s.boot.ferryBad

/-- The state code of R284; from the restart of bring-up a module that resets warm counts as in bring-up (DEDUCED, log 88). -/
def State.stateCode (s : State) : Nat :=
  if s.rst.warm then 0x04
  else if !s.boot.ended then 0x06
  else if s.hst.paused then 0x05
  else if s.flash.oosLatched then 0x03
  else if s.belowFloor then 0x02
  else if s.boot.heldQuar then 0x06
  else 0x01

/-- An input of the management cycle in progress (R392): the active applies it as it comes and lists it for its COPY; a standby keeps it
for a cycle in which it coasts. -/
def State.wmNote (s : State) (i : WmInput) (f : WmShared → WmShared) : State :=
  match s.wm.role with
  | .active => { s with wm := { s.wm with inputs := s.wm.inputs ++ [i], sh := f s.wm.sh } }
  | .none => s
  | .detached => s
  | _ => { s with wm := { s.wm with inputs := s.wm.inputs ++ [i] } }

/-- A position that a PRESENT frame names (R369, R375). -/
def WmShared.notePresent (w : WmShared) (e : End) (code : BitVec 8) (stage : BitVec 32) : WmShared :=
  { w with positions := supd {} w.positions e.toNat fun p => { p with code := code, stage := stage, lastSeen := w.cycle } }

/-- A PRESENT frame as a Watermaster member takes it. -/
def State.wmPresent (s : State) (e : End) (code : BitVec 8) (stage : BitVec 32) : State :=
  s.wmNote (.present e code stage) fun w => w.notePresent e code stage

/-- PRESENT: the state code and the last stage report (R293); a member takes its own module's as well. -/
def State.sendPresent (s : State) : State :=
  (({ s with tow := { s.tow with presentAt := s.now } }).towSend 0x02 towAll (s.stateCode + s.boot.report.toNat * 2 ^ 32)).wmPresent
    s.ownEnd (BitVec.ofNat 8 s.stateCode) s.boot.report

/-- Lines of the service UART. -/
def State.say (s : State) (line : String) : State := { s with uart := s.uart ++ [line] }

/-- One hex digit. -/
def hexDigit (n : Nat) : Char := if n < 10 then Char.ofNat (48 + n) else Char.ofNat (55 + n)

/-- The n lowest hex digits of v, most significant first. -/
def hex : Nat → Nat → String
  | 0, _ => ""
  | n + 1, v => (hex n (v / 16)).push (hexDigit (v % 16))

/-- A 32-bit word as the console writes it (R476). -/
def hexWord (v : Nat) : String := hex 4 (v / 65536) ++ "_" ++ hex 4 (v % 65536)

/-- A result code in words (R474). -/
def resultName (r : Nat) : String :=
  ["start", "pass", "reduced", "below floor", "unit bad", "waiting", "failed", "held"].getD r "?"

/-- The names of the sources whose bits a mask holds. -/
def sourceWords (names : List String) (mask : Nat) : String :=
  String.intercalate ", " ((names.zipIdx.filter fun x => mask.testBit x.2).map (·.1))

/-- A stage report in plain words (R476). -/
def stageWords (stage result detail : Nat) : String :=
  if result ≠ 4 then "stage " ++ toString stage ++ " " ++ resultName result ++ " detail " ++ hex 4 detail
  else if stage = 3 then
    "channel " ++ toString (detail % 256) ++ " bad: "
      ++ sourceWords ["fuse", "mode register", "training", "patterns", "fault record"] (detail / 256)
  else if stage = 4 ∧ detail < 0x1000 then
    "cell p" ++ toString (detail % 256) ++ " bad: " ++ sourceWords ["fuse", "fused maximum", "fault record", "self-test"] (detail / 256)
  else if stage = 4 ∧ detail = 0x2000 then "Ferry bad"
  else if stage = 4 then "decode engine " ++ toString (detail % 0x1000) ++ " bad"
  else if stage = 5 then "mesh link " ++ toString detail ++ " bad"
  else "port " ++ toString (detail / 8) ++ " lane " ++ toString (detail % 8) ++ " bad: fuse"

/-- The line of a stage report (R476). -/
def stageLine (w : Nat) : String := "STG " ++ hexWord w ++ " " ++ stageWords (w % 256) (w / 256 % 256) (w / 65536)

/-- The newest stage report goes to the host in a STATE message, from the moment the link is up (R272, R474). -/
def State.stateMsg (s : State) : State := if s.hst.trainedOnce then s.fwPost 0x83 [s.boot.report] else s

/-- A stage report (R474): the log, the UART, the chain and the host. STAGE frames stop with stage 9 (R491). -/
def State.stageReport (s : State) (stage result detail : Nat) : State :=
  let w := BitVec.ofNat 32 (stage % 256 + result % 256 * 256 + detail % 65536 * 65536)
  let s1 := { s with boot := { s.boot with report := w, log := sset 0 s.boot.log s.boot.logNext w, logNext := (s.boot.logNext + 1) % 64 },
                     tow := { s.tow with stageAt := s.now } }
  (((s1.say (stageLine w.toNat)).towSend 0x04 towAll w.toNat).stateMsg)

/-- What a change of the state code says: PRESENT and a STATE message (R272, R368). -/
def State.announce (s before : State) : State := if s.stateCode = before.stateCode then s else s.sendPresent.stateMsg

/-! ### Envelopes (R399, R405) -/

/-- A Watermaster envelope as its 32 bytes (R399). -/
def envelope (type result : Nat) (answer : Bool) (role epoch seq : Nat) (body : List Byte) : BitVec 256 :=
  BitVec.ofNat 256 (type % 256 + result % 256 * 2 ^ 8 + answer.toNat * 2 ^ 16 + role % 2 * 2 ^ 17 + epoch % 2 ^ 32 * 2 ^ 32
    + seq % 2 ^ 32 * 2 ^ 64 + body.length % 65536 * 2 ^ 96 + (crc32c body).toNat * 2 ^ 128)

def eType (e : BitVec 256) : Nat := fieldNat e 7 0
def eResult (e : BitVec 256) : Nat := fieldNat e 15 8
def eAnswer (e : BitVec 256) : Bool := bitAt e 16
def eRole (e : BitVec 256) : Bool := bitAt e 17
def eEpoch (e : BitVec 256) : BitVec 32 := slice e 32 32
def eSeq (e : BitVec 256) : Nat := fieldNat e 95 64
def eCrc (e : BitVec 256) : BitVec 32 := slice e 128 32

/-- The module index of a planned end. -/
def State.moduleOf (s : State) (e : End) : Option Nat :=
  match s.flash.plan with
  | none => none
  | some p => (planFind p e).map fun i => modIdx (planXYZ p i)

/-- The frames of an out-of-band message (R405): the segment count and the message id, then 8 bytes a frame. -/
def wmFrames (src dst msgId seq : Nat) (bytes : List Byte) : List (BitVec 128) :=
  let segs := chunks 8 bytes
  towFrame 0x07 src dst seq (segs.length % 65536 + msgId % 65536 * 65536) ::
    segs.zipIdx.map fun gi => towFrame 0x07 src dst (seq + 1 + gi.2) (leNat gi.1)

/-- An out-of-band message begins: its frames, kept until its last frame is acknowledged (R405). -/
def State.towMessage (s : State) (dst : End) (bytes : List Byte) : State :=
  if s.agentUp ∧ s.tow.culvertOpen then
    let fs := wmFrames (towEnd s.ownEnd) (towEnd dst) s.tow.nextMsg s.tow.seq bytes
    { s with tow := { s.tow with
      out := s.tow.out ++ fs, seq := (s.tow.seq + fs.length) % 256, nextMsg := (s.tow.nextMsg + 1) % 65536,
      tx := s.tow.tx ++ [{ msgId := s.tow.nextMsg, dst := dst, frames := fs, seq := (s.tow.seq + fs.length + 255) % 256, at_ := s.now,
                           tries := 1 }] } }
  else s

/-- Payloads are multiples of 4 bytes (R306). -/
def pad4 (bs : List Byte) : List Byte := bs ++ List.replicate ((4 - bs.length % 4) % 4) 0

/-- An envelope with its body sent to an end: over the management class where the active bank has a valid entry for its module, else
in WM frames (R368, R399). The module's own agent or member is reached over the mesh. -/
def State.sendEnv (s : State) (dst : End) (env : BitVec 256) (body : List Byte) : State :=
  let bytes := leBytes 32 env.toNat ++ body
  match s.moduleOf dst with
  | some m =>
    if m = s.selfIdx ∨ bitAt (sget (0 : BitVec 32) (s.bank s.epoch).dest m) 0 then
      s.send { cls := clsMgmt, dstEp := 255, dst := m, ordered := true, srcEp := 255, payload := pad4 bytes } false none
    else s.towMessage dst bytes
  | none => s.towMessage dst bytes

/-- The ends of the two Watermaster candidates of a plan (R363, R390). -/
def planWm (p : List Byte) : List End :=
  [recEnd (planRec p (planHdr p 149 140)), recEnd (planRec p (planHdr p 159 150))]

/-- The candidates of the plan held. -/
def State.candidates (s : State) : List End := (s.flash.plan.map planWm).getD []

/-- The ends that hold or may hold the role: the candidates, and a holder that the plan held does not name (R390). -/
def State.members (s : State) : List End :=
  s.candidates ++ (if s.leaseLive ∧ !s.candidates.contains s.agent.holder then [s.agent.holder] else [])

/-- A report of the agent to both members (R392, R399) (DESIGN CHOICE, log 86). -/
def State.agentReport (s : State) (type : Nat) (body : List Byte) : State :=
  let env := envelope type 0 false 0 s.agent.epoch.toNat 0 body
  forEach s.members (fun s e => s.sendEnv e env body)
    { s with agent := { s.agent with reports := s.agent.reports ++ [(BitVec.ofNat 8 type, body)] } }

/-- A PATH report: the unreachable module or 0xFFFF, then the port and its lanes (R399). -/
def State.pathReport (s : State) (m : Option Nat) (port lanes : Nat) : State :=
  s.agentReport 0x45 (leBytes 2 (m.getD 0xFFFF) ++ leBytes 1 port ++ leBytes 1 lanes)

end Sys2Proof.Machine
end

