-- ==== Sys2Proof/Machine/Fabric.lean ====
section
/-! DEFINITION. The router of the module (11, 12): link slots and who may send in them (R169, R170, R353), flow control (R316 to R318),
the routing decision (R312 to R315, R342), multicast (R326, R327, R357) and end-to-end delivery (R311, R320, R322, R325). -/

namespace Sys2Proof.Machine

/-! ### Link slots (R169, R170, R278, R353) -/

/-- The link slot of the tick count, counted from frame 0 (R152). -/
def State.slotNow (s : State) : Nat := s.time.tick / 4

/-- The flow that owns a slot of a port, and the end of its run: the runs of armed and releasing instances. -/
def State.runOwner (s : State) (q k : Nat) : Option (Nat × Nat) :=
  let f := k / 4096
  let x := k % 4096
  ((s.tt.instances.filter fun i => i.state = .armed || i.state = .releasing).flatMap fun i =>
    (i.object.runs.filter fun r => r.2.port = q && decide (i.phase + r.2.frame ≤ f)
        && decide ((f - i.phase - r.2.frame) % i.object.period = 0) && decide (r.2.slot ≤ x) && decide (x < r.2.slot + r.2.count)).map
      fun r => (r.2.flow, f * 4096 + r.2.slot + r.2.count)).head?

/-- A slot is a guard slot: not owned, next to an owned one (R169). -/
def State.isGuard (s : State) (q k : Nat) : Bool :=
  (s.runOwner q k).isNone && ((s.runOwner q (k + 1)).isSome || (decide (0 < k) && (s.runOwner q (k - 1)).isSome))

/-- A free slot of a port. -/
def State.isFree (s : State) (q k : Nat) : Bool := (s.runOwner q k).isNone && !s.isGuard q k

/-- FAB_EPOCH_CFG.bnd_slots as it acts (R360). -/
def State.bndSlots (s : State) : Nat := clamp 1 32 (s.fld 0x700044 8 6)

/-- Trained lanes of a port that may carry packets: none with a foreign partner, while it trains, or before the partner exchange has
confirmed the lane set (R281, R284). -/
def State.lanes (s : State) (q : Nat) : Nat :=
  let p := s.port q
  if p.foreign ∨ p.training ∨ !p.present then 0 else p.lanes

/-- The role of a port in the bank of an epoch (R340). -/
def State.role (s : State) (e : Bool) (q : Nat) : Nat := fieldNat (sget (2 : BitVec 32) (s.bank e).port q) 1 0

/-- Where a packet of some bytes would end that starts now on a port whose slots carry cap bytes, if every slot it touches is allowed:
the slot and the bytes taken of it. A packet that another still occupies does not start (DESIGN CHOICE, log 89). -/
def State.placeTx (s : State) (q cap size : Nat) (ok : Nat → Bool) : Option (Nat × Nat) :=
  let p := s.port q
  let k := s.slotNow
  let gone := s.time.tick % 4 * cap / 4
  let o := if p.txSlot = k then max p.txUsed gone else gone
  if k < p.txSlot ∨ cap ≤ o then none
  else
    let rest := size - (cap - o)
    let n := ceilDiv rest cap
    if (List.range (n + 1)).all fun j => ok (k + j) then
      some (if n = 0 then (k, o + size) else (k + n, rest - (n - 1) * cap))
    else none

/-- Room for an open or management packet on a port now: free slots of a slice link, each with its flow-state LCB, or the reserved
slots of a boundary link, for the management class alone (R309, R353). -/
def State.roomFree (s : State) (e mgmt : Bool) (q size : Nat) : Option (Nat × Nat) :=
  let w := s.lanes q
  if w = 0 then none
  else
    match s.role e q with
    | 0 => s.placeTx q (slotCap w - 64) size (s.isFree q)
    | 1 => if mgmt then s.placeTx q (slotCap w - 64) size fun k => decide (k % 64 < s.bndSlots) else none
    | _ => none

/-- Room for a timetabled packet of a flow on a port now: within one run of the flow (R170). -/
def State.fitsOwned (s : State) (q flow size : Nat) : Option (Nat × Nat) :=
  let w := s.lanes q
  match s.runOwner q s.slotNow with
  | none => none
  | some (f, last) =>
    if w = 0 ∨ f ≠ flow then none else s.placeTx q (slotCap w) size fun k => decide (k < last)

/-! ### Flow control (R316 to R318) -/

/-- FAB_FC and FAB_FC2 thresholds in bytes, as they act (R330). -/
def State.openOn (s : State) : Nat := 1024 * min 128 (s.fld 0x702000 0 8)
def State.openOff (s : State) : Nat := 1024 * max 51 (s.fld 0x702000 8 8)
def State.openEsc (s : State) : Nat := 1024 * max 51 (s.fld 0x702000 16 8)
def State.mgmtOn (s : State) : Nat := 1024 * min 96 (s.fld 0x702004 0 8)
def State.mgmtOff (s : State) : Nat := 1024 * max 51 (s.fld 0x702004 8 8)

/-- The lifetime of an LCB in ticks (R318). -/
def State.lcbTicks (s : State) : Nat := 4 * clamp 1 2 (s.fld 0x702000 24 4)

/-- The flow state of an input VC from its free space, with hysteresis (R317). -/
def State.nextFlow (s : State) (vc free : Nat) (cur : FlowSt) : FlowSt :=
  if vc < 4 then
    if s.openOn ≤ free then .on
    else if free < s.openEsc then .off
    else if cur = .on ∧ free < s.openOff then .escape
    else if cur = .off ∧ s.openEsc + 8192 ≤ free then .escape
    else cur
  else if s.mgmtOn ≤ free then .on
  else if free < s.mgmtOff then .off
  else cur

/-- The flow state of an input VC derived again. -/
def State.refreshFlow (s : State) (port vc : Nat) : State :=
  if vc < 2 ∨ 6 ≤ vc then s
  else
    let m := supd FlowSt.on s.fab.states (6 * port + vc) fun c => s.nextFlow vc (s.vcFree port vc) c
    { s with fab := { s.fab with states := m } }

/-- A flow state as an LCB carries it (R308). -/
def FlowSt.code : FlowSt → Nat
  | .off => 0
  | .escape => 1
  | .on => 2

/-- The flow state that a code of an LCB stands for; a reserved code permits nothing (DESIGN CHOICE, log 92). -/
def flowOf (mgmt : Bool) (v : Nat) : FlowSt := if v = 2 then .on else if v = 1 ∧ !mgmt then .escape else .off

/-- A link control block with its lcrc (R308). -/
def lcb (v : Nat) : BitVec 512 :=
  let x := v % 2 ^ 496
  BitVec.ofNat 512 (x + (crc16 (leBytes 62 x)).toNat * 2 ^ 496)

/-- The lcrc of an LCB is good, and its unit and kind are an LCB's. -/
def lcbOk (b : BitVec 512) (kind : Nat) : Bool :=
  decide (fieldNat b 511 496 = (crc16 (leBytes 62 (b.toNat % 2 ^ 496))).toNat) && decide (fieldNat b 1 0 = 2)
    && decide (fieldNat b 3 2 = kind)

/-- The flow-state LCB that a port sends as the first unit of a free slot (R309). -/
def State.flowLcb (s : State) (q : Nat) : BitVec 512 :=
  let st (vc : Nat) : Nat := (sget FlowSt.on s.fab.states (6 * q + vc)).code
  lcb (2 + st 2 * 2 ^ 4 + st 3 * 2 ^ 6 + st 4 * 2 ^ 8 + st 5 * 2 ^ 10)

/-! ### What a port sends around its packets (R278, R308, R309) -/

/-- A port is in service: trained, and not being trained again (R282). -/
def State.portOn (s : State) (q : Nat) : Bool := decide ((s.port q).lanes ≠ 0) && !(s.port q).training

/-- The marker that begins the slot under way on a lane: slot number, frame number modulo 65,536, lane number, CRC-8 (R278). -/
def State.slotMarker (s : State) (lane : Nat) : BitVec 64 :=
  let v := BitVec.ofNat 56 (s.slotNow % 4096 + s.slotNow / 4096 % 65536 * 2 ^ 12 + lane % 8 * 2 ^ 28)
  Config.markerCrc v ++ v

/-- The marker of every trained lane of a port. -/
def State.markers (s : State) (q : Nat) : List (Nat × BitVec 64) :=
  ((List.range 8).filter fun l => bitAt (s.port q).mask l).map fun l => (q, s.slotMarker l)

/-- A port is a boundary link, which owns no slots and has no guard slots (R340, R353). -/
def State.boundary (s : State) (q : Nat) : Bool := s.role s.epoch q = 1

/-- A slot that begins with a flow-state LCB: a free one, and every one of a boundary link, once the tick count is set (R309, R353). -/
def State.lcbSlot (s : State) (q : Nat) : Bool :=
  s.agentUp && s.time.tickSet && s.portOn q && (s.boundary q || s.isFree q s.slotNow)

/-- A slot that other link control blocks may fill: a free one, or a reserved one of a boundary link, which carries nothing else outside them (R353). -/
def State.lcbRoom (s : State) (q k : Nat) : Bool := if s.boundary q then decide (k % 64 < s.bndSlots) else s.isFree q k

/-- The flow-state LCB goes out, as the first unit of the free slot under way (R309). -/
def State.beginSlot (s : State) (q : Nat) : State :=
  if (s.port q).begun = s.slotNow + 1 then s
  else
    { s with fab := { s.fab with
        lcbOut := s.fab.lcbOut ++ [(q, s.flowLcb q)], ports := supd {} s.fab.ports q fun x => { x with begun := s.slotNow + 1 } } }

/-- The link control blocks that wait at a port go out behind the flow-state LCB of a free slot with room for them (R309). -/
def State.flushLcbs (s : State) (q : Nat) : State :=
  let p := s.port q
  if p.lcbWait.isEmpty ∨ !s.lcbSlot q then s
  else
    match s.placeTx q (slotCap p.lanes - 64) (64 * p.lcbWait.length) (s.lcbRoom q) with
    | none => s
    | some at_ =>
      let s1 := s.beginSlot q
      { s1 with fab := { s1.fab with
          lcbOut := s1.fab.lcbOut ++ p.lcbWait.map fun b => (q, b),
          ports := supd {} s1.fab.ports q fun x => { x with lcbWait := [], txSlot := at_.1, txUsed := at_.2 } } }

/-- Link control blocks for a torus port: they go out in the slot under way, or wait for a free one. -/
def State.sendLcbs (s : State) (q : Nat) (bs : List (BitVec 512)) : State :=
  ({ s with fab := { s.fab with ports := supd {} s.fab.ports q fun x => { x with lcbWait := x.lcbWait ++ bs } } }).flushLcbs q

/-- What the neighbour last said of a VC of its input port, while its LCB is fresh (R318). -/
def State.permit (s : State) (q vc : Nat) : FlowSt :=
  let l := sget (FlowSt.off, 0) s.fab.learned (6 * q + vc)
  if s.lanes q = 0 ∨ l.2 + s.lcbTicks < s.now then .off else l.1

/-- FLOW_STATE_LCB (R317, R318): the permissions of the VCs the port sends to. -/
def execFlowStateLcb (port : Fin 6) (b : BitVec 512) : State → Host.Outcome State Fault Refusal :=
  act fun s =>
    if !s.agentUp ∨ !s.portOn port ∨ (s.port port).foreign ∨ !lcbOk b 0 then s
    else
      let put (m : Sparse (FlowSt × Nat)) (vc : Nat) : Sparse (FlowSt × Nat) :=
        sset (FlowSt.off, 0) m (6 * port.val + vc) (flowOf (decide (4 ≤ vc)) (fieldNat b (2 * vc + 1) (2 * vc)), s.now)
      { s with fab := { s.fab with learned := [2, 3, 4, 5].foldl put s.fab.learned } }

/-! ### Counts of a port (R334) -/

def State.ttlDrop (s : State) (q : Nat) : State := s.tel q fun t => { t with ttlDrop := t.ttlDrop + 1 }
def State.hdrErr (s : State) (q : Nat) : State := s.tel q fun t => { t with hdrErr := t.hdrErr + 1 }

/-- A packet counted as sent on a port. -/
def State.telSent (s : State) (q : Nat) (p : Packet) : State :=
  s.tel q fun t =>
    { t with tt := t.tt + (if hCls p.hdr = clsTt then 1 else 0), op := t.op + (if hCls p.hdr = clsOpen then 1 else 0),
             mg := t.mg + (if hCls p.hdr = clsMgmt then 1 else 0), txBytes := t.txBytes + pktBytes p }

/-- A packet dropped for its route (R338, R342). -/
def State.routeDrop (s : State) : State := { s with cnt := { s.cnt with routeDrop := satAdd 16 s.cnt.routeDrop 1 } }

/-- A packet dropped for a fence (R355). -/
def State.fenceDrop (s : State) : State := { s with cnt := { s.cnt with fenceDrop := satAdd 16 s.cnt.fenceDrop 1 } }

/-! ### One hop (R307, R312) -/

/-- The dl bits after the hop over a port. -/
def State.dlAfter (s : State) (h : Line) (q : Nat) : Nat :=
  fieldNat h 34 32 ||| (if (neighbour s.selfIdx q).2 then 2 ^ (q / 2) else 0)

/-- The VC of a packet on the hop over a port: the odd one of its pair once the dateline of the dimension is crossed (R312). -/
def State.vcFor (s : State) (h : Line) (q : Nat) : Nat := 2 * hCls h + ((s.dlAfter h q).testBit (q / 2)).toNat

/-- The header as it leaves over a port. -/
def State.hopHdr (s : State) (h : Line) (q : Nat) (esc ce : Bool) : Line :=
  withHop (putField (putField (putField (putField h 4 3 (s.vcFor h q)) 30 1 esc.toNat) 31 1 ce.toNat) 32 3 (s.dlAfter h q))

/-- Open-class bytes in the output queue of a port that have not left yet (DESIGN CHOICE, log 90). -/
def State.depth (s : State) (q : Nat) : Nat :=
  let b := sget (0, 0) s.fab.outBytes q
  b.1 - (s.now - b.2) * (slotCap (s.lanes q) / 4)

/-- A packet starts on a port and takes its place there. -/
def State.emit (s : State) (q : Nat) (p : Packet) (at_ : Nat × Nat) : State :=
  let d := s.depth q
  let s1 := s.telSent q p
  { s1 with fab := { s1.fab with
      out := s1.fab.out ++ [(q, p)], ports := supd {} s1.fab.ports q fun x => { x with txSlot := at_.1, txUsed := at_.2 },
      outBytes := if hCls p.hdr = clsOpen then sset (0, 0) s1.fab.outBytes q (d + pktBytes p, s.now) else s1.fab.outBytes } }

/-- FAB_SLUICE.ce_kib as it acts, in bytes (R332). -/
def State.ceBytes (s : State) : Nat :=
  let v := s.fld 0x702020 0 8
  1024 * (if 16 ≤ v ∧ v ≤ 128 then v else 96)

/-- The packet leaves over a port; ce is set on an open packet from an input VC that holds too much, held bytes at hand (R329). -/
def State.forward (s : State) (inp held q : Nat) (p : Packet) (esc : Bool) (at_ : Nat × Nat) : State :=
  let mark := decide (hCls p.hdr = clsOpen) && decide (s.ceBytes < held)
  let s1 := if mark then s.tel inp fun t => { t with ce := t.ce + 1 } else s
  s1.emit q { p with hdr := s.hopHdr p.hdr q esc (hCe p.hdr || mark) } at_

/-! ### The receiving side (R311, R320, R322, R325) -/

/-- The destination side of a source module, or of a tree and its root. -/
def State.dstOf (s : State) (tree : Bool) (k : Nat) : E2eDst := sget {} (if tree then s.fab.treeDst else s.fab.dst) k

/-- The destination side replaced. -/
def State.setDst (s : State) (tree : Bool) (k : Nat) (d : E2eDst) : State :=
  if tree then { s with fab := { s.fab with treeDst := sset {} s.fab.treeDst k d } }
  else { s with fab := { s.fab with dst := sset {} s.fab.dst k d } }

/-- How far a seq lies from the lowest one not yet delivered (DEDUCED, log 96). -/
def E2eDst.off (d : E2eDst) (q : Nat) : Nat := (q + 2 ^ 32 - d.low) % 2 ^ 32

/-- The lowest seq not yet delivered goes past those that are. -/
def E2eDst.advance : Nat → E2eDst → E2eDst
  | 0, d => d
  | n + 1, d => if d.above.contains d.low then ({ d with low := (d.low + 1) % 2 ^ 32, above := d.above.erase d.low }).advance n else d

/-- A seq recorded as delivered. -/
def E2eDst.mark (d : E2eDst) (q : Nat) : E2eDst := ({ d with above := d.above ++ [q] }).advance (d.above.length + 1)

/-- A packet awaits acknowledgement (R322). -/
def E2eDst.note (d : E2eDst) (h : Line) (now : Nat) : E2eDst :=
  { d with pending := d.pending + 1, firstAt := if d.pending = 0 then now else d.firstAt, ce := d.ce + (hCe h).toNat }

/-- The acknowledgement payload as a number (R322). -/
def ackPayload (tree : Option Nat) (d : E2eDst) : Nat :=
  (if tree.isSome then 1 else 0) + (tree.getD 0) * 4 + cap 16 d.ce * 2 ^ 16 + d.low * 2 ^ 32
    + ((List.range 64).foldl (fun n i => if d.above.contains ((d.low + i) % 2 ^ 32) then n + 2 ^ i else n) 0) * 2 ^ 64

/-- An acknowledgement sent to the source module; it takes no seq and is not kept (R322). It waits where the VC has no room. -/
def State.sendAck (s : State) (tree : Bool) (k : Nat) : State :=
  let d := s.dstOf tree k
  let m := if tree then k / 4096 else k
  let bytes := leBytes 16 (ackPayload (if tree then some (k % 4096) else none) d)
  let p : Packet := { hdr := s.header { cls := clsMgmt, dstEp := 255, dst := m, srcEp := 255, payload := bytes }, payload := bytes }
  if d.pending = 0 ∨ s.vcFree 6 4 < pktBytes p then s
  else (s.enterLocal (s.seal_ p 0) none).setDst tree k { d with pending := 0, ce := 0 }

/-- Packets that wait for earlier ones (R325). -/
def State.heldCount (s : State) : Nat := sumOf ((s.fab.dst ++ s.fab.treeDst).map fun e => e.2.held.length)

/-- A packet recorded, acknowledged and delivered after the checks (R311) (DEDUCED, log 91). -/
def State.takeIn (s : State) (tree : Bool) (k : Nat) (p : Packet) : State :=
  let d := s.dstOf tree k
  ((s.setDst tree k ((d.mark (hSeq p.hdr)).note p.hdr s.now)).deliverFabric p 1).1

/-- Held packets whose turn has come are delivered (R325). -/
def State.releaseHeld : Nat → State → Bool → Nat → State
  | 0, s, _, _ => s
  | n + 1, s, tree, k =>
    let d := s.dstOf tree k
    match d.held.find? fun e => d.off e.1 = 0 with
    | none => s
    | some e =>
      if s.deliverWaits e.2.hdr then s
      else (((s.setDst tree k { d with held := d.held.erase e }).takeIn tree k e.2)).releaseHeld n tree k

/-- Held packets whose memory is back are delivered (R133, R325). -/
def State.pumpHeld (s : State) : State :=
  let go (tree : Bool) (s : State) (e : Nat × E2eDst) : State := if e.2.held.isEmpty then s else s.releaseHeld 65 tree e.1
  forEach s.fab.treeDst (go true) (forEach s.fab.dst (go false) s)

/-- A packet with a seq arrives (R311 check 2, R320, R325). -/
def State.receive (s : State) (tree : Bool) (k : Nat) (p : Packet) : State :=
  let d := s.dstOf tree k
  let q := hSeq p.hdr
  let o := d.off q
  let s1 :=
    if 2 ^ 31 ≤ o ∨ d.above.contains q then
      ({ s with cnt := { s.cnt with dupDrop := satAdd 16 s.cnt.dupDrop 1 } }).setDst tree k (d.note p.hdr s.now)
    else if 1024 < o then s
    else if hOrdered p.hdr ∧ o ≠ 0 then
      if d.held.any (fun e => e.1 = q) ∨ 64 ≤ s.heldCount then s
      else s.setDst tree k { d with held := d.held ++ [(q, p)] }
    else (s.takeIn tree k p).releaseHeld 65 tree k
  if 32 ≤ (s1.dstOf tree k).pending then s1.sendAck tree k else s1

/-- A packet for the agent that takes no seq: an acknowledgement, as told from the abort of R464 by its payload (DESIGN CHOICE, log
42) (DESIGN CHOICE, log 42). -/
def isAck (p : Packet) : Bool :=
  decide (hCls p.hdr = clsMgmt) && decide (hDstEp p.hdr = 255) && !hOrdered p.hdr && decide (hLen p.hdr = 16)
    && decide (leNat p.payload % 4 < 2) && !(decide (leNat p.payload % 256 = 1) && decide (leNat p.payload / 2 ^ 24 % 2 ^ 40 = 0))

/-- The end-to-end crc is good (check 1). -/
def crcOk (p : Packet) : Bool := hCrc p.hdr = (pktCrc p.hdr p.payload).toNat

/-- A packet at its destination module (R311). -/
def State.deliverLocal (s : State) (p : Packet) : State :=
  let s0 := s.telSent 6 p
  if !crcOk p then { s0 with cnt := { s0.cnt with crcDrop := satAdd 16 s0.cnt.crcDrop 1 } }
  else if hMode p.hdr = 1 then s0.receive true (hFlow p.hdr + 4096 * hSrc p.hdr) p
  else if hCls p.hdr = clsTt ∨ isAck p then (s0.deliverFabric p 1).1
  else s0.receive false (hSrc p.hdr) p

/-! ### The routing decision (R313, R342) -/

/-- What became of the packet at the head of a VC: it stays, with the outputs a multicast copy still owes; it stays and is in escape mode from now on;
or it has left. -/
inductive Routed where
  | stays (s : State) (todo : Option Nat)
  | escapes (s : State)
  | gone (s : State)

/-- The destination entry of a module in the bank of an epoch (R339). -/
def State.destEntry (s : State) (e : Bool) (m : Nat) : BitVec 32 := sget (0 : BitVec 32) (s.bank e).dest m

/-- FAB_FC2.escape_10ns in ticks (R313). -/
def State.escapeWait (s : State) : Nat := max 1 (s.fld 0x702004 16 8)

/-- The ports of adapt_mask that are slice links (R342). -/
def State.adaptive (s : State) (e : Bool) (m : Nat) : List Nat :=
  let d := s.destEntry e m
  (List.range 6).filter fun q => bitAt d (2 + q) && s.role e q = 0

/-- A management packet at the head of some input VC could leave over a port now. -/
def State.mgmtReady (s : State) (q : Nat) : Bool :=
  (List.range 7).any fun inp => [4, 5].any fun vc =>
    match s.vcBuf inp vc with
    | [] => false
    | b :: _ =>
      let h := b.pkt.hdr
      let d := s.destEntry (hEpoch h) (hDst h)
      decide (some (hDst h) ≠ s.self) && bitAt d 0 && decide (fieldNat d 13 11 = q) && decide (s.permit q (s.vcFor h q) = .on)
        && (s.roomFree (hEpoch h) true q (pktBytes b.pkt)).isSome

/-- Room for an open or management packet on a port now, the management class first (R169). -/
def State.fitsFree (s : State) (e mgmt : Bool) (q size : Nat) : Option (Nat × Nat) :=
  if !mgmt ∧ s.mgmtReady q then none else s.roomFree e mgmt q size

/-- A timetabled packet for this module waits at the head of an input VC: open ones let it go first (R170). -/
def State.ttLocal (s : State) : Bool :=
  (List.range 7).any fun inp => [0, 1].any fun vc =>
    match s.vcBuf inp vc with
    | [] => false
    | b :: _ => decide (hMode b.pkt.hdr = 0) && decide (some (hDst b.pkt.hdr) = s.self)

/-- The local port does not take a packet yet: its memory is in reset (R133), or a timetabled one goes first (R170). -/
def State.localWaits (s : State) (h : Line) : Bool := s.deliverWaits h || (decide (hCls h = clsOpen) && s.ttLocal)

/-- The port of the fewest open-class bytes, the lowest of equals (R313). -/
def State.leastDepth (s : State) : List (Nat × (Nat × Nat)) → Option (Nat × (Nat × Nat))
  | [] => none
  | c :: cs =>
    match s.leastDepth cs with
    | none => some c
    | some b => if s.depth c.1 ≤ s.depth b.1 then some c else some b

/-- An escape or management packet over one port, where its VC permits it and it fits. -/
def State.sendVia (s : State) (inp held q : Nat) (p : Packet) (esc : Bool) (need : FlowSt → Bool) : Routed :=
  let mgmt := decide (hCls p.hdr = clsMgmt)
  if need (s.permit q (s.vcFor p.hdr q)) then
    match s.fitsFree (hEpoch p.hdr) mgmt q (pktBytes p) with
    | some at_ => .gone (s.forward inp held q p esc at_)
    | none => .stays s none
  else .stays s none

/-- A unicast packet, ttl already lowered: local, fenced, or out by its class. -/
def State.routeUnicast (s : State) (inp held arrived : Nat) (p : Packet) : Routed :=
  let h := p.hdr
  let e := hEpoch h
  let m := hDst h
  let d := s.destEntry e m
  if some m = s.self then (if s.localWaits h then .stays s none else .gone (s.deliverLocal p))
  else if s.fenced m (hSlice h) ∧ hCls h ≠ clsMgmt then .gone s.fenceDrop
  else if !bitAt d 0 ∨ (hCls h = clsOpen ∧ !bitAt d 1) then .gone s.routeDrop
  else if hCls h = clsTt then
    let f := sget (0 : BitVec 16) (s.bank e).flow (hFlow h)
    if !bitAt f 0 then .gone s.routeDrop
    else
      let q := fieldNat f 3 1
      match (if s.role e q = 0 then s.fitsOwned q (hFlow h) (pktBytes p) else none) with
      | some at_ => .gone (s.forward inp held q p (hEscape h) at_)
      | none => .stays s none
  else if hCls h = clsMgmt then s.sendVia inp held (fieldNat d 13 11) p (hEscape h) fun f => f = .on
  else
    let c := if hEscape h then [] else
      ((s.adaptive e m).filter fun q => s.permit q (s.vcFor h q) = .on).filterMap fun q =>
        (s.fitsFree e false q (pktBytes p)).map fun at_ => (q, at_)
    match s.leastDepth c with
    | some (q, at_) => .gone (s.forward inp held q p false at_)
    | none =>
      if hEscape h ∨ arrived + s.escapeWait ≤ s.now then
        match s.sendVia inp held (fieldNat d 10 8) p true fun f => f ≠ .off with
        | .stays s1 _ => .escapes s1
        | r => r
      else .stays s none

/-- A tree entry for a packet: valid, of the packet's slice and kind (R327). -/
def State.treeEntry (s : State) (h : Line) : Option (BitVec 32) :=
  let t := sget (0 : BitVec 32) (s.bank (hEpoch h)).tree (hFlow h)
  if bitAt t 0 ∧ fieldNat t 27 20 = hSlice h ∧ bitAt t 1 = decide (hMode h = 2) then some t else none

/-- The prune notice to the root: tree, seq and module (R357). -/
def State.sendPrune (s : State) (h : Line) : State :=
  s.sendAgent (hSrc h) (leBytes 2 (hFlow h) ++ leBytes 2 s.selfIdx ++ leBytes 4 (hSeq h))

/-- One output of a multicast copy: as an escape packet, or in an owned run where it is timetabled (DEDUCED, log 94). -/
def State.copyOut (s : State) (inp held q : Nat) (p : Packet) : Option State :=
  if hCls p.hdr = clsTt then
    (s.fitsOwned q (hFlow p.hdr) (pktBytes p)).map fun at_ => s.forward inp held q p true at_
  else
    match s.sendVia inp held q p true (fun f => f ≠ .off) with
    | .gone s1 => some s1
    | _ => none

/-- A multicast packet (R327, R357): its local copy, then a copy to every port that can take one; the others wait. -/
def State.routeMulticast (s : State) (inp held : Nat) (p : Packet) (todo : Option Nat) : Routed :=
  match s.treeEntry p.hdr with
  | none => .gone (s.ttlDrop inp)
  | some t =>
    let cut := s.fenced s.selfIdx (hSlice p.hdr)
    let mask := fieldNat t 8 2
    let s0 := if todo.isNone ∧ cut ∧ mask.testBit 6 then s.sendPrune p.hdr else s
    let m0 := todo.getD (if cut then mask % 64 else mask)
    let owed := m0.testBit 6 && s.localWaits p.hdr
    let s1 := if m0.testBit 6 && !owed then s0.deliverLocal p else s0
    let r := (List.range 6).foldl (fun (acc : State × Nat) q =>
      if (m0 % 64).testBit q then
        match acc.1.copyOut inp held q p with
        | some s2 => (s2, acc.2)
        | none => (acc.1, acc.2 + 2 ^ q)
      else acc) (s1, if owed then 2 ^ 6 else 0)
    if r.2 = 0 then .gone r.1 else .stays r.1 (some r.2)

/-- A header that no router forwards: a reserved class, mode, VC or unit (R307). -/
def hdrReserved (h : Line) : Bool := decide (fieldNat h 1 0 ≠ 1) || decide (hCls h = 3) || decide (hMode h = 3) || decide (6 ≤ hVc h)

/-- The packet at the head of an input VC (R313); a reduction packet waits to be stored (R328). A re-sent multicast copy routes as
unicast (R327). -/
def State.routeHead (s : State) (inp held : Nat) (b : Buffered) : Routed :=
  let h := b.pkt.hdr
  if !hopOk h then .gone (s.hdrErr inp)
  else if hTtl h = 0 ∨ hdrReserved h then .gone (s.ttlDrop inp)
  else
    let p : Packet := { b.pkt with hdr := putField h 40 8 (hTtl h - 1) }
    if hMode h = 1 ∧ !bitAt h 29 then s.routeMulticast inp held p b.todo
    else if hMode h = 2 then (if (s.treeEntry h).isSome then .stays s none else .gone (s.ttlDrop inp))
    else s.routeUnicast inp held b.at_ p

/-- When old_count first reaches 0 the census of this router is over (R347). -/
def State.settleDrained (s : State) : State :=
  if s.fab.counting ∧ !s.fab.drained ∧ s.oldHeld = 0 then
    ({ s with fab := { s.fab with drained := true, drainedAt := s.now } }).agentReport 0x42 (leBytes 2 s.fab.version.toNat)
  else s

/-- What follows a change of the buffers: flow states, the census, waiting injections and remote copies. -/
def State.afterRoute (s : State) (port vc : Nat) : State := (((s.refreshFlow port vc).settleDrained).pumpInject).settleCopies

/-- The head of a VC taken out, routed, and put back where it stays. -/
def State.routeOne (s : State) (port vc : Nat) : State :=
  match s.vcBuf port vc with
  | [] => s
  | b :: rest =>
    let held := heldBytes (b :: rest)
    match (s.setVc port vc rest).routeHead port held b with
    | .stays s1 todo => s1.setVc port vc ({ b with todo := todo } :: s1.vcBuf port vc)
    | .escapes s1 => s1.setVc port vc ({ b with pkt := { b.pkt with hdr := withHop (putField b.pkt.hdr 30 1 1) } } :: s1.vcBuf port vc)
    | .gone s1 => s1.ticketLeft b.tkt

/-- A packet comes in at a torus port on a VC: a timetabled one that finds no room is dropped and counted (R315); flow control keeps
the others from coming (R318). A port that trains, or whose partner is foreign, takes none (R282, R284). -/
def State.arrivePacket (s : State) (port vc : Nat) (p : Packet) : State :=
  if !s.portOn port ∨ (s.port port).foreign ∨ (hopOk p.hdr ∧ hVc p.hdr < 6 ∧ hVc p.hdr ≠ vc) then s
  else if s.vcFree port vc < pktBytes p then (if vc < 2 then s.ttDropped port else s)
  else s.pushVc port vc { pkt := p, at_ := s.now }

/-- A slot marker comes in at a torus port: one whose slot is not the slot under way less the latency of the link is counted (R279, R301)
(DESIGN CHOICE, log 150). -/
def State.takeMarker (s : State) (port : Nat) (m : BitVec 64) : State :=
  let lat := Config.linkLatency port (s.port port).cableCm
  if !s.portOn port ∨ !s.time.tickSet ∨ slice m 56 8 ≠ Config.markerCrc (slice m 0 56) ∨ (fieldNat m 11 0 + lat) % 4096 = s.slotNow % 4096 then s
  else { s with cnt := { s.cnt with skew := sset 0 s.cnt.skew port (satAdd 16 (sget 0 s.cnt.skew port) 1) } }

/-- What comes in at a port before its VC is routed: the marker of the slot and a packet; the local input takes neither from outside (R316). -/
def State.comeIn (s : State) (port vc : Nat) (a : Arrival) : State :=
  if 6 ≤ port then s
  else
    let s1 := match a.marker with
      | some m => s.takeMarker port m
      | none => s
    match a.pkt with
    | some p => s1.arrivePacket port vc p
    | none => s1

/-- PACKET_ROUTE (R279, R313): a slot marker and a packet may arrive, then the head of the VC is routed. Port 6 is the local input (R316). -/
def execPacketRoute (port : Fin 7) (vc : Fin 6) (arriving : Arrival) : State → Host.Outcome State Fault Refusal :=
  actIf (match arriving.pkt with
      | some p => payloadOk 4096 4 p.payload
      | none => true) fun s =>
    if !s.agentUp then s else ((s.comeIn port vc arriving).routeOne port vc).afterRoute port vc

end Sys2Proof.Machine
end

