-- ==== Sys2Proof/Machine/E2e.lean ====
section
/-! DEFINITION. Acknowledgement and re-send (R322 to R324, R327, R356, R358), the decay of Sluice (R329), and in-network reduction
(R328, R350). -/

namespace Sys2Proof.Machine

/-! ### Acknowledgements at the source (R322, R323) -/

/-- An acknowledgement says that a seq is delivered. -/
def ackCovers (ack : BitVec 128) (q : Nat) : Bool :=
  let base := fieldNat ack 63 32
  let o := (q + 2 ^ 32 - base) % 2 ^ 32
  decide (2 ^ 31 ≤ o) || (decide (o < 64) && bitAt ack (64 + o))

/-- Bytes of the re-send store that a copy holds, by its share (R321). -/
def State.freeCopies (s : State) (ps : List Packet) : State :=
  let bytes (mgmt : Bool) : Nat := sumOf ((ps.filter fun p => decide (hCls p.hdr = clsMgmt) = mgmt).map pktBytes)
  ({ s with fab := { s.fab with storeBytes := s.fab.storeBytes - bytes false, mgmtBytes := s.fab.mgmtBytes - bytes true } }).sluiceCauses

/-- The oldest copy's timer: its sending time and the interval in force (R323). -/
def E2eSrc.rearm (e : E2eSrc) (resend : Nat) : E2eSrc :=
  match e.unacked with
  | [] => { e with interval := 1, tries := 0 }
  | u :: _ => { e with timer := u.2.2 + e.interval * resend }

/-- Packets of remote copies acknowledged: they no longer count as outstanding (R142). -/
def State.untrack (s : State) (m : Nat) (p : Nat → Bool) : State :=
  let hit := s.fab.track.filter fun t => t.1 = m && p t.2.1
  forEach hit (fun s t =>
      let j := t.2.2
      let s1 := s.updJob j.sq j.slot fun k => match k with
        | .move l f st r0 de ac got => .move l f st r0 de (ac + 1) got
        | k => k
      if j.last then forEach (s.movers.map (·.1)) (fun s m => s.updPiece m j.sq j.slot j.piece fun c => { c with lastAcked := true }) s1
      else s1)
    { s with fab := { s.fab with track := s.fab.track.filter fun t => !(t.1 = m && p t.2.1) } }

/-- The level of Sluice raised by an acknowledgement with ce_count, at most once per microsecond (R329). -/
def State.sluiceRise (s : State) : State :=
  let may := match s.fab.ceRiseAt with
    | none => true
    | some t => decide (t + usTicks 1 ≤ s.now)
  if may then { s with fab := { s.fab with sluice := min 15 (s.fab.sluice + 1), sluiceAt := s.now, ceRiseAt := some s.now } } else s

/-- A unicast acknowledgement from a module: copies freed, interval reset, aborts taken off the map (R464). -/
def State.ackUnicast (s : State) (m : Nat) (ack : BitVec 128) : State :=
  let e := s.srcOf m
  let done := e.unacked.filter fun u => ackCovers ack u.1
  let e1 : E2eSrc := { e with unacked := e.unacked.filter fun u => !ackCovers ack u.1 }
  let e2 := if done.isEmpty then e1 else ({ e1 with interval := 1, tries := 0 }).rearm s.resendTicks
  let s1 : State := { s with fab := { s.fab with
    src := sset srcDefault s.fab.src m e2, abortMap := s.fab.abortMap.filter fun a => !(a.1 = m && ackCovers ack (hSeq a.2.hdr)) } }
  ((s1.freeCopies (done.map fun u => u.2.1)).untrack m (ackCovers ack)).settleCopies

/-- Copies of a tree that no module is awaited for are freed (R327). -/
def E2eSrc.settleTree (t : E2eSrc) : E2eSrc := { t with unacked := t.unacked.filter fun u => t.awaited.any fun a => a.1 = u.1 }

/-- The source side of a tree replaced; copies it no longer holds give their room in the re-send store back (R321). -/
def State.putTree (s : State) (k : Nat) (t : E2eSrc) : State :=
  let gone : List (Nat × Packet × Nat) := (s.treeOf k).unacked.filter fun u => t.unacked.all fun v => decide (v.1 ≠ u.1)
  let s1 : State := { s with fab := { s.fab with trees := sset srcDefault s.fab.trees k t } }
  s1.freeCopies (gone.map fun u => u.2.1)

/-- A multicast acknowledgement from a module. -/
def State.ackTree (s : State) (m : Nat) (ack : BitVec 128) : State :=
  let k := fieldNat ack 13 2
  let t := s.treeOf k
  let hit := t.awaited.any fun a => a.2 = m && ackCovers ack a.1
  let t1 := ({ t with awaited := t.awaited.filter fun a => !(a.2 = m && ackCovers ack a.1) }).settleTree
  let t2 := if hit then ({ t1 with interval := 1, tries := 0 }).rearm s.resendTicks else t1
  s.putTree k t2

/-- ACK_RECEIVED (R322, R323); an acknowledgement of a reserved kind changes nothing. -/
def execAckReceived (src : Fin 512) (ack : BitVec 128) : State → Host.Outcome State Fault Refusal :=
  act fun s =>
    if !s.agentUp then s
    else
      match fieldNat ack 1 0 with
      | 0 =>
        let s1 := s.ackUnicast src ack
        (if fieldNat ack 31 16 ≠ 0 then s1.sluiceRise else s1).pumpInject
      | 1 =>
        let s1 := s.ackTree src ack
        (if fieldNat ack 31 16 ≠ 0 then s1.sluiceRise else s1).pumpInject
      | _ => s

/-- FAB_E2E_CFG.ack_100ns in ticks (R331). -/
def State.ackTicks (s : State) : Nat := 10 * max 1 (s.fld 0x702010 12 8)

/-- A destination side owes an acknowledgement now. -/
def E2eDst.due (d : E2eDst) (now wait : Nat) : Bool := decide (32 ≤ d.pending) || (decide (0 < d.pending) && decide (d.firstAt + wait ≤ now))

/-- ACK_TIMER (R322): the acknowledgements due to a source module, of its packets and of the trees it is the root of. -/
def execAckTimer (src : Fin 512) : State → Host.Outcome State Fault Refusal :=
  act fun s =>
    if !s.agentUp then s
    else
      let s1 := if (s.dstOf false src).due s.now s.ackTicks then s.sendAck false src else s
      forEach ((s1.fab.treeDst.filter fun e => decide (e.1 / 4096 = src.val) && e.2.due s.now s.ackTicks).map (·.1))
        (fun s k => s.sendAck true k) s1

/-! ### Re-send (R323, R324, R356) -/

/-- A copy as it is sent again: resent, the present epoch, a fresh hcrc, routed from the start (R323). -/
def State.resent (s : State) (p : Packet) : Packet :=
  { p with hdr := withHop (putField (putField p.hdr 29 1 1) 7 1 s.epoch.toNat) }

/-- A copy sent again where the local VC has room (DEDUCED, log 93). -/
def State.sendAgain (s : State) (p : Packet) : State :=
  if s.vcFree 6 (hVc p.hdr) < pktBytes p then s
  else { s.enterLocal (s.resent p) none with cnt := { s.cnt with resends := satAdd 16 s.cnt.resends 1 } }

/-- A multicast copy for one module: tree and seq kept, the module as destination, routed as unicast (R327). -/
def towardModule (p : Packet) (m : Nat) : Packet :=
  let c := idxXYZ m
  let h := putField (putField (putField p.hdr 16 3 c.1) 19 3 c.2.1) 22 3 c.2.2
  { p with hdr := withCrc h p.payload }

/-- The remote copies that have packets to a module among some seqs end: FENCED or PARTIAL behind a fence (R356), TIMEOUT behind an
unreachable destination (R324). -/
def State.loseCopies (s : State) (m : Nat) (p : Nat → Bool) (fence : Bool) : State :=
  let js := (((s.fab.track.filter fun t => t.1 = m && p t.2.1).map fun t => (t.2.2.sq, t.2.2.slot))).eraseDups
  forEach js (fun s j => if fence then s.copyFenced j.1 j.2 else s.copyLost j.1 j.2 (stTimeout, 0, 0)) s

/-- Copies held for a module freed. -/
def State.dropCopies (s : State) (m : Nat) (p : Packet → Bool) (fence : Bool) : State :=
  let e := s.srcOf m
  let gone := e.unacked.filter fun u => p u.2.1
  let e1 := ({ e with unacked := e.unacked.filter fun u => !p u.2.1 }).rearm s.resendTicks
  let s1 : State := { s with fab := { s.fab with src := sset srcDefault s.fab.src m e1 } }
  (s1.freeCopies (gone.map fun u => u.2.1)).loseCopies m (fun q => gone.any fun u => u.1 = q) fence

/-- A packet to a module is behind a fence (R355). -/
def State.behindFence (s : State) (m : Nat) (p : Packet) : Bool := decide (hCls p.hdr ≠ clsMgmt) && s.fenced m (hSlice p.hdr)

/-- A destination declared unreachable: counted and reported (R324). -/
def State.unreachable (s : State) (m : Nat) : State :=
  ({ s with cnt := { s.cnt with unreachable := satAdd 16 s.cnt.unreachable 1 } }).pathReport (some m) 7 0

/-- The re-send timer of a module. -/
def State.resendModule (s : State) (m : Nat) : State :=
  let e := s.srcOf m
  if e.unacked.isEmpty ∨ s.now < e.timer then s
  else
    let cut := (e.unacked.filter fun u => s.behindFence m u.2.1).length
    let s0 := if cut = 0 then s
      else s.dropCopies m (fun p => s.behindFence m p) true
    let s1 : State := { s0 with cnt := { s0.cnt with fenceDrop := satAdd 16 s0.cnt.fenceDrop cut } }
    let e1 := s1.srcOf m
    if e1.unacked.isEmpty then s1
    else if s1.tries ≤ e1.tries + 1 then (s1.dropCopies m (fun _ => true) false).unreachable m
    else
      let iv := min 8 (2 * e1.interval)
      let e2 : E2eSrc := { e1 with unacked := e1.unacked.map (fun u => (u.1, u.2.1, s.now)), interval := iv, tries := e1.tries + 1,
                                   timer := s.now + iv * s.resendTicks }
      forEach e1.unacked (fun s u => s.sendAgain u.2.1) { s1 with fab := { s1.fab with src := sset srcDefault s1.fab.src m e2 } }

/-- The re-send timer of a tree: each missing copy goes to its module (R327). -/
def State.resendTree (s : State) (k : Nat) : State :=
  let t := s.treeOf k
  if t.unacked.isEmpty ∨ s.now < t.timer then s
  else if s.tries ≤ t.tries + 1 then
    forEach ((t.awaited.map (·.2)).eraseDups) (fun s m => s.unreachable m)
      (s.putTree k { t with unacked := [], awaited := [], interval := 1, tries := 0 })
  else
    let iv := min 8 (2 * t.interval)
    let t1 : E2eSrc := { t with unacked := t.unacked.map (fun u => (u.1, u.2.1, s.now)), interval := iv, tries := t.tries + 1,
                                timer := s.now + iv * s.resendTicks }
    forEach t.awaited (fun s a =>
        match t.unacked.find? fun u => u.1 = a.1 with
        | some u => s.sendAgain (towardModule u.2.1 a.2)
        | none => s)
      { s with fab := { s.fab with trees := sset srcDefault s.fab.trees k t1 } }

/-- RESEND_TIMER (R323, R324, R356). -/
def execResendTimer (dst : ResendKey) : State → Host.Outcome State Fault Refusal :=
  act fun s =>
    if !s.agentUp then s
    else
      match dst with
      | .dst m => (s.resendModule m).pumpInject
      | .tree k => (s.resendTree k.toNat).pumpInject

/-- PRUNE_NOTICE (R358): the module leaves the awaited set of the tree for that seq and later ones, and the prune count of the sending
context goes up. -/
def execPruneNotice (tree : BitVec 12) (seq : BitVec 32) (module : Fin 512) : State → Host.Outcome State Fault Refusal :=
  act fun s =>
    let t := s.treeOf tree.toNat
    if !s.agentUp ∨ t.pruned.contains module.val then s
    else
      let later (q : Nat) : Bool := decide ((q + 2 ^ 32 - seq.toNat) % 2 ^ 32 < 2 ^ 31)
      let t1 := ({ t with awaited := t.awaited.filter (fun a => !(a.2 = module.val && later a.1)), pruned := t.pruned ++ [module.val] }).settleTree
      let c := (t.unacked.find? fun u => u.1 = seq.toNat).map fun u => (hCtx u.2.1.hdr).toNat
      let s0 := s.putTree tree.toNat (t1.rearm s.resendTicks)
      let s1 : State := { s0 with cnt := { s0.cnt with pruned := satAdd 16 s0.cnt.pruned 1 } }
      (match c with
        | some c => if (s.ctx c).live then s1.updCtx c fun x => { x with pruned := x.pruned + 1 } else s1
        | none => s1).pumpInject

/-- SLUICE_DECAY (R329): decay_us without a rise lowers the level by 1, to no lower than its floors. -/
def execSluiceDecay : State → Host.Outcome State Fault Refusal :=
  act fun s =>
    if s.agentUp ∧ s.fab.sluiceAt + usTicks (max 1 (s.fld 0x702020 22 8)) ≤ s.now ∧ s.sluiceFloor < s.fab.sluice then
      { s with fab := { s.fab with sluice := s.fab.sluice - 1, sluiceAt := s.now } }
    else s

/-! ### Reduction (R328, R350) -/

/-- FAB_RED.timeout_frames in ticks (R331). -/
def State.redTicks (s : State) : Nat := frameTicks * max 1 (s.fld 0x702014 0 4)

/-- An entry still stands for its reduction: waiting, or sent on within the last timeout_frames. -/
def RedEntry.holds (r : RedEntry) (now wait : Nat) : Bool :=
  r.used && (match r.sentAt with
    | none => true
    | some t => decide (now < t + wait))

/-- The entry of a contribution, matched by tree, raddr, ctx and epoch (R328, R350). -/
def State.redFind (s : State) (h : Line) : Option (Nat × RedEntry) :=
  s.fab.red.find? fun e => e.2.holds s.now s.redTicks && e.2.tree = hFlow h && e.2.raddr = hRaddr h && e.2.ctx = hCtx h && e.2.epoch = hEpoch h

/-- A free place of the reduction table; a sent-on entry keeps its place for timeout_frames (DESIGN CHOICE, log 43). -/
def State.redFree (s : State) : Option Nat :=
  firstFrom (fun k => !(sget ({} : RedEntry) s.fab.red k).holds s.now s.redTicks) 64 0

/-- Two runs of EWA records added (R40). -/
def addRuns (a b : List (BitVec 128)) : List (BitVec 128) :=
  List.zipWith (fun x y => ((({} : Acc).addRecord x).addRecord y).record) a b

/-- The records of a payload. -/
def recordsOf (bs : List Byte) : List (BitVec 128) := (chunks 16 bs).map fun b => BitVec.ofNat 128 (leNat b)

/-- A record as a reduction point holds it: its o bit by its S and R, its reserved bits 0 (R38, R39). -/
def heldRecord (x : BitVec 128) : BitVec 128 := (({} : Acc).addRecord x).record

/-- The bytes of records. -/
def recordBytes (rs : List (BitVec 128)) : List Byte := rs.flatMap fun r => leBytes 16 r.toNat

/-- The packet of an entry: the first contribution's header with the sum, its contrib and the crc made again. -/
def RedEntry.packet (r : RedEntry) : Packet :=
  let bs := recordBytes r.records
  { hdr := withCrc (putField r.hdr 232 16 r.contrib) bs, payload := bs }

/-- A reduction packet at the root endpoint: added into the records at raddr, rsync incremented by contrib (R328). -/
def State.redDeliver (s : State) (p : Packet) : State :=
  let h := p.hdr
  match s.checks37 h with
  | (s1, false) => s1
  | (s1, true) =>
    let n := p.payload.length
    let ep := hDstEp h
    if ep < 128 then
      (s1.deliverWrite h (recordBytes (addRuns (recordsOf (memGet s1.mem (hRaddr h) n)) (recordsOf p.payload))) (hContrib h)).1
    else if ep < 160 then
      if (s1.pageFail (hCtx h) true true (hRaddr h) n).isSome then s1.cntBadDest
      else
        let r := s1.readBytes (hCtx h) (hKeySlot h) false (hRaddr h) n
        match r.fail with
        | some _ => r.st.cntBadDest
        | none => (r.st.deliverWrite h (recordBytes (addRuns (recordsOf r.bytes) (recordsOf p.payload))) (hContrib h)).1
    else (s1.deliverWrite h p.payload (hContrib h)).1

/-- A reduction packet sent on to the parent of its tree, where the output takes it (R328): owned slots when timetabled, as an escape
packet when open. -/
def State.redOut (s : State) (inp : Nat) (p : Packet) : Option State :=
  match s.treeEntry p.hdr with
  | none => some (s.ttlDrop inp)
  | some t =>
    let q := fieldNat t 18 16
    if q = 7 then (if s.localWaits p.hdr then none else some ((s.telSent 6 p).redDeliver p)) else if q = 6 then some (s.ttlDrop inp) else s.copyOut inp 0 q p

/-- An entry whose time has come is sent on, or waits for its output. -/
def State.redSend (s : State) (k : Nat) : State :=
  let r := sget ({} : RedEntry) s.fab.red k
  let put (s : State) (x : RedEntry) : State := { s with fab := { s.fab with red := sset {} s.fab.red k x } }
  match s.redOut 6 r.packet with
  | some s1 => put s1 { r with ready := false, sentAt := some s.now, records := [] }
  | none => put s { r with ready := true }

/-- Entries that wait for their output try again. -/
def State.pumpReds (s : State) : State := forEach ((s.fab.red.filter fun e => e.2.ready).map (·.1)) (fun s k => s.redSend k) s

/-- A contribution stored whole is merged (R328): the flag says that it leaves the VC. -/
def State.redMerge (s : State) (inp : Nat) (b : Buffered) : State × Bool :=
  let h := b.pkt.hdr
  match s.treeEntry h with
  | none => (s.ttlDrop inp, true)
  | some t =>
    let all := fieldNat t 15 9
    if !crcOk b.pkt then (s.hdrErr inp, true)
    else
      match s.redFind h with
      | some (k, r) =>
        if r.sentAt.isSome ∨ r.records.length * 16 ≠ b.pkt.payload.length then (s.ttlDrop inp, true)
        else
          let r1 : RedEntry := { r with records := addRuns r.records (recordsOf b.pkt.payload), contrib := r.contrib + hContrib h,
                                        inputs := r.inputs ||| BitVec.ofNat 7 (2 ^ inp) }
          let s1 : State := { s with fab := { s.fab with red := sset {} s.fab.red k r1 } }
          (if r1.inputs.toNat &&& all = all then s1.redSend k else s1, true)
      | none =>
        match s.redFree with
        | none => (s, false)
        | some k =>
          let r : RedEntry := { used := true, tree := hFlow h, raddr := hRaddr h, ctx := hCtx h, epoch := hEpoch h,
                                hdr := putField h 40 8 (hTtl h - 1), records := (recordsOf b.pkt.payload).map heldRecord, contrib := hContrib h,
                                inputs := BitVec.ofNat 7 (2 ^ inp), at_ := s.now }
          let s1 : State := { s with fab := { s.fab with red := sset {} s.fab.red k r } }
          (if 2 ^ inp &&& all = all then s1.redSend k else s1, true)

/-- The reduction packet at the head of a VC that may be stored, its header good. -/
def State.redHead (s : State) (port vc : Nat) : Option (Buffered × List Buffered) :=
  match s.vcBuf port vc with
  | b :: rest => if hMode b.pkt.hdr = 2 ∧ hopOk b.pkt.hdr ∧ hTtl b.pkt.hdr ≠ 0 ∧ !hdrReserved b.pkt.hdr then some (b, rest) else none
  | [] => none

/-- REDUCTION_CONTRIBUTION (R328): the stored packet at the head of a VC. -/
def execReductionContribution (port : Fin 7) (vc : Fin 6) : State → Host.Outcome State Fault Refusal :=
  act fun s =>
    match (if s.agentUp then s.redHead port vc else none) with
    | none => s
    | some (b, rest) =>
      match s.redMerge port b with
      | (s1, true) => ((s1.setVc port vc rest).ticketLeft b.tkt).afterRoute port vc
      | (s1, false) => s1

/-- REDUCTION_TIMEOUT (R328): the entry is sent on as it stands. -/
def execReductionTimeout (entry : Fin 64) : State → Host.Outcome State Fault Refusal :=
  act fun s =>
    let r := sget ({} : RedEntry) s.fab.red entry
    if s.agentUp ∧ r.used ∧ r.sentAt.isNone ∧ r.at_ + s.redTicks ≤ s.now then (s.redSend entry).settleDrained else s

/-- REDUCTION_NO_ENTRY_TIMEOUT (R328): after 1 µs without a free entry the contribution goes on to the parent unchanged. -/
def execReductionNoEntryTimeout (port : Fin 7) (vc : Fin 6) : State → Host.Outcome State Fault Refusal :=
  act fun s =>
    match (if s.agentUp then s.redHead port vc else none) with
    | none => s
    | some (b, rest) =>
      if (s.redFind b.pkt.hdr).isSome ∨ s.redFree.isSome ∨ s.now < b.at_ + usTicks 1 then s
      else
        match s.redOut port { b.pkt with hdr := putField b.pkt.hdr 40 8 (hTtl b.pkt.hdr - 1) } with
        | some s1 => ((s1.setVc port vc rest).ticketLeft b.tkt).afterRoute port vc
        | none => s

end Sys2Proof.Machine
end

