-- ==== Sys2Proof/Machine/Resets.lean ====
section
/-! DEFINITION. Reset domains and recovery (16): requests and how they fall together (R446), the handshake (R451), what each reset does
(R84, R133, R214, R239, R246, R459 to R461), lost work and blame (R452 to R458), fabric-abort (R464, R465), the out-of-service rule
(R462), and the watchdogs (R450). -/

namespace Sys2Proof.Machine

/-! ### Set-up values -/

/-- RST_CFG.hs_us (R468) in ticks. -/
def State.hsTicks (s : State) : Nat := usTicks (clamp 100 1000 (s.fld 0x900000 1 10))

/-- RST_CFG.replay. -/
def State.replayMode (s : State) : Bool := s.fld 0x900000 0 1 = 1

/-- RST_CFG.oos_count. -/
def State.oosCount (s : State) : Nat := max 2 (s.fld 0x900000 11 4)

/-- The watchdog limits of RST_WD (R469) in ticks. -/
def State.cellLimit (s : State) : Nat := usTicks (10 * max 1 (s.fld 0x900010 0 8))
def State.engLimit (s : State) : Nat := msTicks (max 1 (s.fld 0x900010 16 8))
def State.itkLimit (s : State) : Nat := msTicks (10 * max 1 (s.fld 0x900010 24 8))

/-! ### The record and the out-of-service rule -/

/-- The domain code and instance of RST_CMD and RST_LAST (R470, R473). -/
def domCode : Domain → Nat × Nat
  | .cell c => (1, c.val)
  | .group g => (2, g.val)
  | .memGroup m => (3, m.val)
  | .ferry => (4, 0)
  | .intake => (5, 0)
  | .hawser => (6, 0)
  | .port p => (7, p.val)
  | .compute => (8, 0)

/-- A torus port, which lies in the agent domain (R19). -/
def portDomain : Domain → Bool
  | .port _ => true
  | _ => false

/-- The generation tag of a domain instance; the agent domain's ports and the compute part as a whole have none. -/
def State.genOf (s : State) : Domain → BitVec 8
  | .cell c => (s.cell c).gen
  | .memGroup m => (s.mover m).gen
  | .ferry => s.fry.gen
  | .intake => s.rst.intakeGen
  | .hawser => s.rst.hawserGen
  | .group g => (s.cell (8 * g)).gen
  | .port _ => 0
  | .compute => 0

/-- RST_LAST written for the end of an engine event (R473). -/
def State.recordReset (s : State) (r : Resetting) (outcome : BitVec 2) (ctx : BitVec 6) : State :=
  { s with rst := { s.rst with last :=
    { dom := BitVec.ofNat 4 (domCode r.dom).1, inst := BitVec.ofNat 8 (domCode r.dom).2, replay := s.replayMode, outcome := outcome,
      ctx := ctx, gen := s.genOf r.dom, cause := r.cause, tick := BitVec.ofNat 64 r.at_ } } }

/-- One event of the out-of-service rule (R462): kept in flash, and the latch set when the window holds enough. -/
def State.oosEvent (s : State) : State :=
  let s1 : State := { s with flash := { s.flash with events := (s.flash.events ++ [s.time.live]).drop (s.flash.events.length - 15) } }
  if s.oosCount ≤ s1.windowEvents then { s1 with flash := { s1.flash with oosLatched := true } } else s1

/-! ### Fabric-abort (R464, R465) -/

/-- The modules of a slice record (R376). -/
def sliceBox (r : BitVec 256) : List Nat :=
  (List.range (fieldNat r 11 9 + 1)).flatMap fun dx => (List.range (fieldNat r 14 12 + 1)).flatMap fun dy =>
    (List.range (fieldNat r 17 15 + 1)).map fun dz =>
      modIdx ((fieldNat r 2 0 + dx) % 8, (fieldNat r 5 3 + dy) % 8, (fieldNat r 8 6 + dz) % 8)

/-- The abort payload. -/
def abortBytes (slice cause tick : Nat) : List Byte :=
  leBytes 16 (1 + slice % 256 * 2 ^ 8 + cause % 256 * 2 ^ 16 + tick % 2 ^ 64 * 2 ^ 64)

/-- One abort packet to a member: it takes a seq, and waits in the map for its acknowledgement. -/
def State.abortTo (s : State) (bytes : List Byte) (m : Nat) : State :=
  let e := s.srcOf m
  let p := s.seal_ { hdr := s.header { cls := clsMgmt, dstEp := 255, dst := m, srcEp := 255, payload := bytes }, payload := bytes } e.next
  let s1 : State := { s with fab := { s.fab with
    src := sset srcDefault s.fab.src m { e with next := (e.next + 1) % 2 ^ 32 }, abortMap := s.fab.abortMap ++ [(m, p)] } }
  if s1.vcFree 6 4 < pktBytes p then s1 else s1.enterLocal p none

/-- Aborts go to the other members of the slice, where the module holds an allocated fabric-abort object of it; they carry the tick at which the
cause was recorded. -/
def State.sendAborts (s : State) (slice cause tick : Nat) : State :=
  if slice = 0 ∨ slice ≠ s.ownSlice ∨ (s.fabricObjects slice).isEmpty then s
  else
    let bytes := abortBytes slice cause tick
    let s1 : State := { s with fab := { s.fab with
      abortMap := [], abortAt := s.now + s.resendTicks, abortInterval := 1, abortTries := 0 } }
    forEach ((sliceBox s.agent.sliceRec).filter fun m => m ≠ s.selfIdx) (fun s m => s.abortTo bytes m) s1

/-- The fabric-abort objects of a slice are aborted. -/
def State.abortSlice (s : State) (slice : Nat) : State := forEach (s.fabricObjects slice) (fun s i => s.abortObj i) s

/-- The contexts that a smaller reset has faulted: aborts for their slices, local objects too (R464). -/
def State.abortFaulted (s before : State) (cause tick : Nat) : State :=
  let sl := ((s.ctxs.filter fun e => e.2.faulted && !(before.ctx e.1).faulted && e.2.slice ≠ 0).map fun e => e.2.slice.toNat).eraseDups
  forEach (sl.filter fun x => !(s.fabricObjects x).isEmpty) (fun s x => (s.sendAborts x cause tick).abortSlice x) s

/-- ABORT_RECEIVE (R465). -/
def execAbortReceive (src : Fin 512) (payload : BitVec 128) : State → Host.Outcome State Fault Refusal :=
  act fun s =>
    let sl := fieldNat payload 15 8
    if !s.agentUp ∨ fieldNat payload 7 0 ≠ 1 then s
    else if sl = 0 ∨ sl ≠ s.ownSlice ∨ !(sliceBox s.agent.sliceRec).contains src.val then s.cntBadDest
    else ({ s with cnt := { s.cnt with aborts := satAdd 8 s.cnt.aborts 1 } }).abortSlice sl

/-- ABORT_RESEND_TIMER (R464): the abort goes again to every member that has not acknowledged it, with the intervals and the limit of
tries of R323. -/
def execAbortResendTimer : State → Host.Outcome State Fault Refusal :=
  act fun s =>
    if !s.agentUp ∨ s.fab.abortMap.isEmpty ∨ s.now < s.fab.abortAt then s
    else if s.tries ≤ s.fab.abortTries + 1 then { s with fab := { s.fab with abortMap := [], abortTries := 0 } }
    else
      let n := min 8 (2 * s.fab.abortInterval)
      let s1 : State := { s with fab := { s.fab with
        abortInterval := n, abortTries := s.fab.abortTries + 1, abortAt := s.now + n * s.resendTicks } }
      forEach s1.fab.abortMap (fun s a => s.sendAgain a.2) s1

/-! ### Work lost on a cell (R453, R456, R457) -/

/-- The open work of a cell that a reset interrupts: launches and trickle entries, by context. -/
def State.cellWork (s : State) (c : Nat) : List (Nat × Nat × Nat) × List TrickleEntry :=
  let l := match (s.th c .fg).work with
    | some (.launch sq slot) => [((s.th c .fg).ctx.toNat, sq, slot)]
    | _ => []
  let e := match (s.th c .tr).work with
    | some (.trickle id) => (s.tt.running.filter fun x => x.2.id = id && !x.2.prefetch).map (·.2)
    | _ => []
  (l, e)

/-- The work of a thread stops: a timetabled entry fails under R172, other work ends with FAULT_CONTEXT and its context is faulted;
kept work stays started, for a replay (DEDUCED, log 109). -/
def State.stopThread (s : State) (keep : Bool) (c : Nat) (t : Thread) : State :=
  let th := s.th c t
  match th.work with
  | none => s.haltThread c t
  | some (.entry inst idx period) => s.failRecord inst idx period
  | some (.trickle id) =>
    let s1 := s.haltThread c t
    if keep then { s1 with tt := { s1.tt with running := s1.tt.running.filter fun x => x.2.id ≠ id } }
    else (s1.workEnd c (.trickle id) (.fault 0 (faultWhere c t 0) 0)).faultCtx th.ctx
  | some w =>
    let s1 := s.haltThread c t
    if keep then s1 else (s1.workEnd c w (.fault 0 (faultWhere c t 0) 0)).faultCtx th.ctx

/-- Host reads of a stopped block: their replies are stale. -/
def State.readsGone (s : State) (p : ReadFor → Bool) : State :=
  { s with hst := { s.hst with reads := s.hst.reads.map fun r => if p r.purpose then { r with purpose := .gone } else r } }

/-- The reset of one cell (R84, R553): its memory, instruction memory, registers, banks and queues zeroed, its tag advanced. -/
def State.zeroCell (s : State) (c : Nat) : State :=
  let x := s.cell c
  let s1 : State := { s with mem := sclear s.mem (cellAddr c 0) (cellAddr c 0x200000) }
  let y : CellSt := { gen := x.gen + 1, failed := x.failed, launches := x.launches, resetTimes := x.resetTimes, progress := s.now }
  (s1.updCell c fun _ => y).readsGone fun p => match p with
    | .cellDma d => d = c
    | _ => false

/-- A cell recorded as failed (R452): the fault record in flash names its physical cell. -/
def State.failCell (s : State) (c : Nat) : State :=
  let p := s.maps.cells.getD c c
  let s1 := s.updCell c fun x => { x with failed := true, inReset := true }
  let s2 : State := if s.flash.faultCells.contains p then s1
    else { s1 with flash := { s1.flash with faultCells := s1.flash.faultCells ++ [p] } }
  forEach (s.cell c).launches (fun s l =>
    ((s.updCell c fun x => { x with launches := x.launches.erase l }).launchEnd l.1 l.2 c (.fault 0 (faultWhere c .fg 0) 0)).faultCtx
      (s.sq l.1).ctx) s2

/-- A cell's blocks stop and it is reset; tickets of tokens that it sent are freed (R214). -/
def State.resetCell (s : State) (keepWork : Bool) (c : Nat) : State :=
  let s1 := ((s.stopThread keepWork c .fg).stopThread keepWork c .tr).zeroCell c
  (s1.dropTickets fun t => t.originCell = c).1

/-! ### Replay (R457) -/

/-- The least context of what a replay still has to run. -/
def Replay.next (r : Replay) : Option Nat :=
  let cs := r.works.map (·.1) ++ r.entries.map fun e => e.ctx.toNat
  if cs.isEmpty then none else some (minOf 0 cs)

/-- The images of a cell with their bundles. -/
def CellSt.savedImages (x : CellSt) : List (Image × List (BitVec 256)) := x.images.map fun i => (i, sgetRun 0 x.imem i.base i.count)

/-- The images that a replay needs for a context stand in the cell again: R84 has zeroed its instruction memory, and R457 runs the work again
as if the reset had not come (DESIGN CHOICE, log 44). -/
def State.reload (s : State) (c x : Nat) (is : List (Image × List (BitVec 256))) : State :=
  forEach (is.filter fun i => i.1.ctx.toNat = x) (fun s i => s.updCell c fun y => y.loadImage i.1 i.2) s

/-- A launch runs again on a cell from its entry bundle. -/
def State.relaunch (s : State) (c sq slot : Nat) : State :=
  match s.job sq slot with
  | none => s
  | some j =>
    let ctx := (s.sq sq).ctx
    let bundle := fieldNat j.desc 139 128
    let r := s.readArgs ctx (fieldNat j.desc 191 144)
    match r.fail, (s.cell c).image .fg ctx bundle with
    | none, some img => r.st.startThread c .fg (.launch sq slot) ctx img bundle (words64 r.bytes) s.time.tick
    | _, _ => (r.st.launchEnd sq slot c (.fault 0 (faultWhere c .fg bundle) 0)).faultCtx ctx

/-- A replay ended by a larger reset of its cell: the work still to run completes under R453 (R458). -/
def State.endReplay (s : State) (c : Nat) : State :=
  match s.rst.replay with
  | none => s
  | some r =>
    if s.replaying c then
      let s0 : State := { s with rst := { s.rst with replay := none, last := { s.rst.last with outcome := 3 } } }
      let s1 := forEach r.works (fun s w => (s.launchEnd w.2.1 w.2.2 c (.fault 0 (faultWhere c .fg 0) 0)).faultCtx
        (BitVec.ofNat 6 w.1)) s0
      forEach r.entries (fun s e => (s.trickleEnd e (.fault 0 (faultWhere c .tr 0) 0)).faultCtx e.ctx) s1
    else s

/-- The next context of a replay runs, once the cell is idle and its time is not owned; a mover's replay is over when none of its work
is left there. One asked for in an activate pause waits for its end (R25 note i). -/
def State.pumpReplay (s : State) : State :=
  match s.rst.replay with
  | none => s
  | some r =>
    if s.hst.paused then s
    else
    match r.dom with
    | .cell c =>
      if (s.th c .fg).work.isSome ∨ (s.th c .tr).work.isSome ∨ s.owned c s.time.tick ∨ (s.cell c).inReset then s
      else
        match r.next with
        | none => { s with rst := { s.rst with replay := none } }
        | some x =>
          let s1 : State := { s with rst := { s.rst with replay := some { r with
            works := r.works.filter (fun w => w.1 ≠ x), entries := r.entries.filter fun e => e.ctx.toNat ≠ x } } }
          let s2 := forEach (r.works.filter fun w => w.1 = x) (fun s w => s.relaunch c w.2.1 w.2.2) (s1.reload c x r.images)
          forEach (r.entries.filter fun e => e.ctx.toNat = x) (fun s e => s.startTrickle c e false) s2
    | .memGroup m =>
      let v := s.mover m
      let cs := v.cur.toList ++ v.queue ++ v.pieces
      if r.works.any fun w => cs.any fun c => c.sq = w.2.1 && c.slot = w.2.2 then s
      else { s with rst := { s.rst with replay := none } }
    | _ => { s with rst := { s.rst with replay := none } }

/-! ### The other engines -/

/-- A command as it stood before it began. -/
def MoverCmd.again (c : MoverCmd) : MoverCmd := { c with asked := 0, arrived := 0, buf := [], poisoned := none, lastAcked := false, sent := 0 }

/-- The reset of a controller, its channels and its mover (R133, R444): LPDDR6 content is kept, the mover's commands are lost, or run
again in ascending context in a replay; a timetabled transfer fails. -/
def State.resetGroup (s : State) (lost again : List MoverCmd) (m : Nat) : State :=
  let v := s.mover m
  let s1 : State := (s.updMover m fun v => { gen := v.gen + 1, progress := s.now }).readsGone fun p => match p with
    | .piece n _ _ _ _ => n = m
    | _ => false
  let s2 := match v.xfer with
    | some c => s1.failRecord c.inst c.recIdx c.period
    | none => s1
  let s3 := s2.updMover m fun v => { v with queue := sortBy (fun (c : MoverCmd) => c.ctx.toNat) (again.map MoverCmd.again) }
  (forEach lost (fun s c => (s.pieceEnds c (stFaultCtx, 0, 0)).faultCtx c.ctx) s3).moverNext m

/-- The reset of the Ferry (R214) (DEDUCED, log 129). -/
def State.resetFerry (s : State) : State :=
  let cs := ((s.fry.tickets.filter fun e => e.2.state ≠ .free).map fun e => e.2.ctx).eraseDups
  let s1 := (s.dropTickets fun _ => true).1
  let s2 : State := { s1 with fry := { s1.fry with
    gen := s1.fry.gen + 1, lastStep := [], rings := [], inReset := false, progress := s1.now,
    sessions := s1.fry.sessions.map fun x => { x with lastStep := none } } }
  forEach cs (fun s c => s.faultCtx c) s2

/-- Units and frames of a stream that a reset of Intake drops. -/
def Stream.inHand (x : Stream) : Nat :=
  x.decoding.length + x.unit.toList.length + x.shaping.toList.length + x.waiting.toList.length + x.shaped.toList.length

/-- A stream after the reset of Intake (R239): packets and decoder state are gone, each unit and frame of them counted as bad (R236; DEDUCED,
log 179), and a codec with random access points waits for one. Periods whose ready tick lies in the reset have no header. -/
def Stream.afterReset (x : Stream) (i : Option Instance) (tick : Nat) : Stream :=
  { x with highest := none, next := 0, held := [], unit := none, decoding := [], shaping := none, waiting := none, shaped := none,
           dpb := [], engState := [], bad := satAdd 16 x.bad x.inHand, waitKey := decide (rCodec x.record ≠ 3),
           period := match i with
             | some t => if t.ready x.record x.period ≤ tick
                 then x.period + (tick - t.ready x.record x.period) / (t.object.period * frameTicks) + 1 else x.period
             | none => x.period }

/-- The reset of Intake (R239): steering entries and engine assignments stay, every stream restarts. -/
def State.resetIntake (s : State) : State :=
  { s with
    itkReset := false, rst := { s.rst with intakeGen := s.rst.intakeGen + 1 },
    cnt := { s.cnt with itkBad := satAdd 16 s.cnt.itkBad (sumOf (s.streams.map (·.inHand))) },
    streams := s.streams.map fun x => x.afterReset (s.inst x.inst) s.time.tick }

/-- The reset of the Hawser domain (R246): the link retrains; rings, indices and held records stay. -/
def State.resetHawser (s : State) : State :=
  { s with rst := { s.rst with hawserGen := s.rst.hawserGen + 1 },
           hst := { s.hst with up := false, inReset := true, lanes := 0, downAt := s.now, retryAt := s.now } }

/-! ### Compute warm reset and cold reset (R459 to R461, R537) -/

/-- The slot that does not run is marked empty. -/
def Update.emptyOther (u : Update) : Update := if u.running then { u with slot0 := {} } else { u with slot1 := {} }

/-- The module goes back to the image it ran before a trial; the new one stays in its slot, staged again (R536; DEDUCED, log 63). -/
def Update.fellBack (u : Update) (code : BitVec 8) : Update :=
  let old := match u.trial with
    | some b => !b
    | none => u.running
  { u with state := .staged, trial := none, running := old, activeSlot := old, lastResult := 2, lastCode := code, oldFormat := false,
           pauseWait := false, falling := false }

/-- What a reset does to an update: a session is discarded, a staged image stays, and a trial falls back (R536, R537). -/
def Update.onReset (u : Update) : Update :=
  let keep : Update := { u with header := [], blocks := [], pauseWait := false, falling := false, partnerState := 0, partnerAt := 0 }
  match u.state with
  | .receiving => { keep with state := .idle, lastResult := 3 }
  | .rebuilding => ({ keep with state := .idle, lastResult := 3 }).emptyOther
  | .activating => keep.fellBack (if u.falling then u.lastCode else 0x14)
  | .awaiting => keep.fellBack 0x14
  | .idle => keep
  | .staged => keep

/-- UPDATE_STATE to the pair partner (R531): a message of 16 bytes, whatever the port's user is. -/
def State.sendUpdate (s : State) : State :=
  let s1 : State := { s with fw := { s.fw with nextUpdate := s.now + msTicks 100 } }
  if s.fab.pairUp then s1.pairNote 0x10 (leBytes 16 (0x10 + s.fw.state.code * 2 ^ 8))
  else s1

/-- A change of the update state is sent (R531). -/
def State.tellUpdate (s before : State) : State := if s.fw.state = before.fw.state then s else s.sendUpdate

/-- The activate pause begins (R532): Headgate closes, fetch stops, and the inactive slot becomes the trial. A Watermaster role ends
with it (R25 note k) (DEDUCED, log 75). -/
def State.beginPause (s : State) : State :=
  let s1 : State := { s with
    fw := { s.fw with pauseWait := false, pauseAt := s.now, trial := some (!s.fw.running) }
    hst := { s.hst with paused := true }
    tt := { s.tt with hgPause := true }
    wm := { s.wm with role := .none, seeking := false, queryWait := none, queryLeft := [], replies := [], standby := false } }
  s1.announce s

/-- The records of every descriptor fetched without one: started ones under R453, others FENCED (R459). -/
def State.flush (s : State) : State :=
  let s1 := forEach s.jobs (fun s j => s.retire j.sq j.slot { status := stFaultCtx }) s
  forEach s1.hst.sqs (fun s e => s.fenceReady e.1) s1

/-- Every key slot but 0 loses its keys and goes on by one generation (R14, R499, R503). -/
def clearKeys (ks : Sparse KeySlot) : Sparse KeySlot :=
  (List.range 15).foldl (fun m i => sset {} m (i + 1) { gen := (sget {} ks (i + 1)).gen + 1 }) []

/-- The compute part as it comes out of a compute warm reset (R460). -/
def State.clearCompute (s : State) : State :=
  { s with
    mem := sclear s.mem cellRegion 0xF00010000000
    cells := (List.range 128).foldl (fun m c =>
      let x := s.cell c
      sset {} m c { gen := x.gen + 1, failed := x.failed, inReset := x.failed }) []
    movers := (List.range 32).foldl (fun m i => sset {} m i { gen := (s.mover i).gen + 1 }) []
    sync := [], syncWaits := [], ctxs := [(0, { live := true })], jobs := []
    tt := { hgRef := s.tt.hgRef }
    fry := { gen := s.fry.gen + 1 }
    streams := [], itkReset := false, ethq := [], eth := [], ethUp := [], ethAddr := [], mgmtRx := []
    hst := {}, keys := clearKeys s.keys, ids := none, removal := none, removeQueue := []
    debugLocked := false, debugOpen := false, scrubLine := 0
    fab := { s.fab with inject := [], track := [], local_ := s.fab.local_.filter fun p => hDstEp p.hdr = 255 }
    wm := { known := s.wm.known, opOut := s.wm.opOut, pairOut := s.wm.pairOut }
    pw := { alert := s.pw.alert, alertCount := s.pw.alertCount, thermalTrip := s.pw.thermalTrip,
            temps := sclear (sclear s.pw.temps 0 32) 40 48,
            tempMin := s.pw.tempMin, tempMax := s.pw.tempMax }
    fw := s.fw.onReset
    maps := { s.maps with memDone := false, cellsDone := false, phys := [], oldLive := s.maps.live } }

/-- Bring-up starts again at stage 0: on the cold path where stage 4 of a cold bring-up had not ended (R492, R493). -/
def State.restartBoot (s : State) : State :=
  { s with boot := { s.boot with
      stage := 0, phase := .pending, startedAt := 0, warm := s.boot.warm || s.boot.stage4Done, halted := false, heldLatch := false,
      heldQuar := false, ended := false, warmCount := satAdd 8 s.boot.warmCount 1, waves := 0, stage4Done := false,
      waitMask := 0, meshBad := false, ferryBad := false, decodeBad := [], failedStage := false, dhcpFlash := false } }

/-- The resets in progress that p names are taken over by a larger one: each is recorded as ended so (R446, R473) (DEDUCED, log 159). -/
def State.takenOver (s : State) (p : Domain → Bool) : State :=
  forEach (s.rst.active.filter fun (r : Resetting) => p r.dom) (fun s r => s.recordReset r 3 0) s

/-- A compute warm reset begins (R459): its cause is recorded, Headgate closes, aborts go out, and every fetched descriptor gets its
record. A smaller reset and a replay under way end with it (R446, R458). One event of R462, unless a thermal trip counts it
(DEDUCED, log 130). A halted module leaves its halt only by a cold reset (R479). -/
def State.startWarm (s : State) (cause : BitVec 8) (event : Bool) : State :=
  if s.rst.warm ∨ s.rst.cold ∨ s.frz.frozen ∨ s.boot.halted then s
  else
    let s0 := (if event then s.oosEvent else s).takenOver fun d => !portDomain d
    let s1 : State := { s0 with
      tt := { s0.tt with hgOpen := false }, wm := { s0.wm with role := .none, seeking := false },
      rst := { s0.rst with
        warm := true, replay := none, deferred := s0.rst.deferred.filter fun e => portDomain e.1
        last := if s0.rst.replay.isNone then s0.rst.last else { s0.rst.last with outcome := 3 },
        active := s0.rst.active.filter (fun (r : Resetting) => portDomain r.dom)
          ++ [{ dom := .compute, cause := cause, at_ := s0.time.tick, due := s0.now + s0.hsTicks }] } }
    let slices := ((s1.ctxs.filter fun e => e.2.live && e.2.slice ≠ 0).map fun e => e.2.slice.toNat).eraseDups
    ((forEach slices (fun s x => s.sendAborts x 0x01 s.time.tick) s1).flush).announce s

/-- A cold reset begins (R461, R579): everything but flash and the pins starts again, the rails go off but aux, and it lasts while a
cause holds it (R572). -/
def State.startCold (s : State) (byThermal byResetN : Bool) : State :=
  let hold := byThermal || byResetN || !s.sup.resetN || (s.frz.frozen && !s.sup.freezeN)
  { State.reset with
    pending := s.pending, freeCtr := s.freeCtr, flash := s.flash, uart := s.uart
    time := { clock := s.time.clock, live := s.time.live }
    fw := { s.fw.onReset with running := s.fw.activeSlot }
    tow := { out := s.tow.out }
    rst := { colds := s.rst.colds + 1, cold := true, byThermal := byThermal, byResetN := byResetN || !s.sup.resetN,
             byFreeze := s.frz.frozen && !s.sup.freezeN }
    sup := { s.sup with rangeBad := [], alertN := true
                        rails := [(.aux, if s.sup.hotSwap then .good else .off), (.vser, if hold then .off else .ramping), (.vpp, .off),
                                  (.vsram, .off), (.vcore, .off), (.vddq, .off)] } }

/-- RST_LAST.cause of a compute warm reset's causes (R473). -/
def warmCode : WarmCause → BitVec 8
  | .heartbeat => 0x01
  | .resetReq => 0x04
  | .thermal => 0x05
  | .escalation => 0x03
  | .rstCmd => 0x02
  | .firmware => 0x06

/-- COLD_RESET (R445, R461): a cause that falls while a cold reset lasts changes nothing; RESET_N and the thermal hold keep it. Only a
cold reset ends a freeze, and of its causes the reset input, the power cycle and the console's command (R567). -/
def execColdReset (cause : ColdCause) : State → Host.Outcome State Fault Refusal :=
  act fun s =>
    let ends := cause = .powerOn || cause = .resetN || cause = .console
    if s.rst.cold ∨ (s.frz.frozen ∧ !ends) then s else s.startCold (decide (cause = .thermal)) (decide (cause = .resetN ∧ !s.sup.resetN))

/-! ### Requests (R446) -/

/-- An instance lies inside another. -/
def domInside : Domain → Domain → Bool
  | .port _, _ => false
  | .compute, _ => false
  | .cell c, .group g => g.val = c.val / 8
  | _, .compute => true
  | _, _ => false

/-- The blocks of a domain stop as its handshake begins (DESIGN CHOICE, log 126). -/
def State.stopBlocks (s : State) : Domain → State
  | .cell c => s.updCell c fun x => { x with inReset := true }
  | .group g => forEach (List.range 8) (fun s k => s.updCell (8 * g + k) fun x => { x with inReset := true }) s
  | .memGroup m => s.updMover m fun v => { v with inReset := true }
  | .ferry => { s with fry := { s.fry with inReset := true } }
  | .intake => { s with itkReset := true }
  | .hawser => { s with hst := { s.hst with inReset := true } }
  | .port p => { s with fab := { s.fab with ports := supd {} s.fab.ports p fun x => { x with training := true } } }
  | .compute => s

/-- A reset below the compute warm reset begins with its handshake; smaller ones inside it end. -/
def State.startReset (s : State) (d : Domain) (cause : BitVec 8) (blamed : List Nat) : State :=
  let s0 := s.takenOver fun x => domInside x d
  ({ s0 with
    rst := { s0.rst with
      active := (s.rst.active.filter fun (r : Resetting) => !domInside r.dom d)
        ++ [({ dom := d, cause := cause, at_ := s.time.tick, due := s.now + s.hsTicks, ctxs := blamed } : Resetting)],
      deferred := s.rst.deferred.filter fun e => !(e.1 = d || domInside e.1 d) },
    cnt := { s0.cnt with engineResets := satAdd 8 s0.cnt.engineResets 1 } }).stopBlocks d

/-- When the last reset of an instance ended. -/
def State.lastEnd (s : State) (d : Domain) : Option Nat := lfind s.rst.lastEnd d

/-- A reset of an instance ended less than 1 ms ago. -/
def State.tooSoon (s : State) (d : Domain) : Bool :=
  match s.lastEnd d with
  | some t => decide (s.now < t + msTicks 1)
  | none => false

/-- A request for a reset: joined to one in progress, absorbed by a larger one, deferred to 1 ms after the last, or begun (R446); an
escalation does not wait. -/
def State.requestReset (s : State) (d : Domain) (cause : BitVec 8) (blamed : List Nat) (event escalated : Bool) : State :=
  if s.rst.cold ∨ s.frz.frozen then s
  else if s.rst.active.any fun r => r.dom = d || domInside d r.dom then s
  else if s.rst.warm ∧ domInside d .compute then s
  else if s.tooSoon d ∧ !escalated then
    if s.rst.deferred.any fun e => e.1 = d then s else { s with rst := { s.rst with deferred := s.rst.deferred ++ [(d, cause)] } }
  else
    match d with
    | .compute => s.startWarm cause event
    | _ => s.startReset d cause blamed

/-- COMPUTE_WARM_RESET (R445, R446, R459, R462); that of a thermal trip counts with its trip. -/
def execComputeWarmReset (cause : WarmCause) : State → Host.Outcome State Fault Refusal :=
  act fun s => s.requestReset .compute (warmCode cause) [] (decide (cause ≠ .thermal)) (decide (cause = .escalation))

/-- DEFERRED_RESET_START (R446). -/
def execDeferredResetStart (dom : Domain) : State → Host.Outcome State Fault Refusal :=
  act fun s =>
    match s.rst.deferred.find? fun e => e.1 = dom with
    | none => s
    | some e =>
      if s.tooSoon dom then s
      else ({ s with rst := { s.rst with deferred := s.rst.deferred.erase e } }).requestReset dom e.2 [] (decide (e.2 ≠ 0x05)) false

/-! ### Watchdogs (R450) -/

/-- The contexts recorded for a cell's issue paths (R456). -/
def State.cellBlame (s : State) (c : Nat) : List Nat :=
  ([s.th c .fg, s.th c .tr].filter (·.hasCtx)).map fun t => t.ctx.toNat

/-- A thread of a cell issues no bundle though it does not wait. -/
def State.thStuck (s : State) (c : Nat) (t : Thread) : Bool :=
  let th := s.th c t
  th.running && th.wait = .none && !th.paused && !th.staged && decide (th.lastIssue + s.cellLimit ≤ s.now)

/-- CELL_WATCHDOG (R450, R456): a matrix instruction, a DMA command or a thread makes no progress for the limit. -/
def execCellWatchdog (c : Fin 128) : State → Host.Outcome State Fault Refusal :=
  act fun s =>
    let x := s.cell c
    let held := !x.mxq.isEmpty || match x.mvq with
      | e :: _ => e.kind = .dma
      | [] => false
    if !s.compute ∨ x.inReset ∨ !(held && decide (x.progress + s.cellLimit ≤ s.now) || s.thStuck c .fg || s.thStuck c .tr) then s
    else s.requestReset (.cell c) 0x01 (s.cellBlame c) true false

/-- MEM_CONTROLLER_WATCHDOG (R450): a request stays unanswered; that is the controller's to say (DESIGN CHOICE, log 127). -/
def execMemControllerWatchdog (ctl : Fin 32) : State → Host.Outcome State Fault Refusal :=
  act fun s => if s.compute then s.requestReset (.memGroup ctl) 0x01 (((s.mover ctl).cur.toList).map fun c => c.ctx.toNat) true false else s

/-- A record or packet waits at the Ferry. -/
def State.ferryWaits (s : State) : Bool :=
  (s.cells.any fun e => match e.2.mvq with
    | q :: _ => q.kind = .ferry && !q.done
    | [] => false) || s.fab.local_.any fun p => hDstEp p.hdr = 160

/-- ENGINE_WATCHDOG (R450, R456): a mover's command moves no line, or the Ferry's input is not handled, for the limit. -/
def execEngineWatchdog (engine : Engine) : State → Host.Outcome State Fault Refusal :=
  act fun s =>
    if !s.compute then s
    else
      match engine with
      | .mover n =>
        let v := s.mover n
        if (v.cur.isSome ∨ v.xfer.isSome) ∧ !v.inReset ∧ v.progress + s.engLimit ≤ s.now then
          s.requestReset (.memGroup n) 0x01 (v.cur.toList.map fun c => c.ctx.toNat) true false
        else s
      | .ferry =>
        if s.ferryWaits ∧ !s.fry.inReset ∧ s.fry.progress + s.engLimit ≤ s.now then s.requestReset .ferry 0x01 [] true false else s

/-- DECODE_WATCHDOG (R450): an access unit in an engine makes no progress; the reset is Intake's. -/
def execDecodeWatchdog (engine : Fin 16) : State → Host.Outcome State Fault Refusal :=
  act fun s =>
    if s.compute && !s.itkReset && s.streams.any (fun x => x.engine = engine.val && !x.decoding.isEmpty
        && decide (x.progress + s.itkLimit ≤ s.now)) then s.requestReset .intake 0x01 [] true false
    else s

/-- HAWSER_WATCHDOG (R450): a received message stays unhandled for 10 ms. -/
def execHawserWatchdog : State → Host.Outcome State Fault Refusal :=
  act fun s => if s.compute && !s.hst.inReset then s.requestReset .hawser 0x01 [] true false else s

/-- HEARTBEAT_MISS (R445, R450): firmware has missed its heartbeat for 100 ms. -/
def execHeartbeatMiss : State → Host.Outcome State Fault Refusal := act fun s => s.requestReset .compute 0x01 [] true false

/-! ### The end of a handshake (R451) -/

/-- Contexts that paid for an engine: faulted, with their open work (DEDUCED, log 125). -/
def State.blame (s : State) (cs : List Nat) : State := forEach cs (fun s c => s.faultCtx (BitVec.ofNat 6 c)) s

/-- A watchdog's reset of an engine replays instead of blaming (R457); a watchdog in a replay blames (R456). -/
def State.replays (s : State) (r : Resetting) : Bool := s.replayMode && r.cause = 0x01 && s.rst.replay.isNone

/-- The cells of a reset come up again unless they have failed. -/
def State.cellUp (s : State) (c : Nat) : State := s.updCell c fun x => { x with inReset := x.failed }

/-- One reset of the cell alone (R452): the third within 60 s fails it. -/
def State.noteCellReset (s : State) (c : Nat) (readBackOk : Bool) : State :=
  let ts := ((s.cell c).resetTimes.filter fun t => decide (s.now < t + msTicks 60000)) ++ [s.now]
  let s1 := s.updCell c fun x => { x with resetTimes := ts }
  if 3 ≤ ts.length ∨ !readBackOk then s1.failCell c else s1

/-- The read check of R131 as a memory channel group leaves its reset (R133): each channel that fails it goes into the fault record (R136). -/
def State.groupCheck (s : State) (m : Nat) (readBad : BitVec 8) : State :=
  { s with flash := (List.range 8).foldl (fun f k => if bitAt readBad k then f.channelFault (8 * m + k) else f) s.flash }

/-- The domain is reset (R84, R133, R214, R239, R246, R282, R460); bit k of readBad is the read-back check of cell k of a group (R452), or the
read check of channel k of a memory channel group (R133). -/
def State.doReset (s : State) (r : Resetting) (readBackOk : Bool) (readBad : BitVec 8) : State :=
  match r.dom with
  | .cell c =>
    let keep := s.replays r
    let w := s.cellWork c
    let s1 := (s.resetCell keep c).cellUp c
    let s2 : State := if keep ∧ !(w.1.isEmpty && w.2.isEmpty) then
        { s1 with rst := { s1.rst with replay := some { dom := r.dom, works := w.1, entries := w.2, images := (s.cell c).savedImages } } }
      else s1
    s2.noteCellReset c readBackOk
  | .group g =>
    forEach (List.range 8) (fun s k =>
      let s1 := ((s.resetCell false (8 * g + k)).cellUp (8 * g + k)).endReplay (8 * g + k)
      if bitAt readBad k then s1.failCell (8 * g + k) else s1) s
  | .memGroup m =>
    let s := s.groupCheck m readBad
    let v := s.mover m
    let cs := v.cur.toList ++ v.queue ++ v.pieces
    let again := match s.rst.replay with
      | some x => decide (x.dom = r.dom)
      | none => false
    if s.replays r then
      let s1 := s.resetGroup [] cs m
      if cs.isEmpty then s1
      else
        let ws := cs.map fun (c : MoverCmd) => (c.ctx.toNat, c.sq, c.slot)
        { s1 with rst := { s1.rst with replay := some { dom := r.dom, works := ws } } }
    else if again then s.resetGroup v.cur.toList (v.queue ++ v.pieces) m
    else s.resetGroup cs [] m
  | .ferry => s.resetFerry
  | .intake => s.resetIntake
  | .hawser => s.resetHawser
  | .port p => { s with fab := { s.fab with ports := supd {} s.fab.ports p fun x => { x with lanes := 0, mask := 0, training := true } } }
  | .compute =>
    let s1 := (s.clearCompute.restartBoot).tellUpdate s
    { s1 with rst := { s1.rst with warm := false, hawserGen := s1.rst.hawserGen + 1, intakeGen := s1.rst.intakeGen + 1 } }

/-- The abort cause of a domain (R464). -/
def abortCause : Domain → Nat
  | .cell _ => 0x02
  | .group _ => 0x02
  | .ferry => 0x03
  | .memGroup _ => 0x04
  | _ => 0x05

/-- RESET_HANDSHAKE_DONE (R451): every block has answered; the domain is reset, blame falls, and the event is recorded. The
operand says what the checks at its end find (R452, R133). -/
def execResetHandshakeDone (dom : Domain) (check : ReadBack) : State → Host.Outcome State Fault Refusal :=
  act fun s =>
    match s.rst.active.find? fun r => r.dom = dom with
    | none => s
    | some r =>
      if s.rst.cold ∨ s.frz.frozen then s
      else
        let blamed := if s.replays r then [] else r.ctxs
        let s0 : State := { s with rst := { s.rst with
          active := s.rst.active.erase r, lastEnd := (s.rst.lastEnd.filter fun e => e.1 ≠ dom) ++ [(dom, s.now)] } }
        let s1 := (s0.doReset r check.ok check.bad).blame blamed
        let s2 := s1.recordReset r (if blamed.isEmpty then 1 else 0) (BitVec.ofNat 6 (minOf 0 blamed))
        let s3 := if dom = .compute then s2 else s2.abortFaulted s (abortCause dom) r.at_
        ((s3.pumpReplay).moversGoOn).announce s

/-- HANDSHAKE_TIMEOUT (R451, R462): a block has not answered within hs_us; the reset escalates, and each step is one event. -/
def execHandshakeTimeout (dom : Domain) : State → Host.Outcome State Fault Refusal :=
  act fun s =>
    match s.rst.active.find? fun r => r.dom = dom with
    | none => s
    | some r =>
      if s.now < r.due ∨ s.rst.cold ∨ s.frz.frozen then s
      else
        let s0 := ({ s with rst := { s.rst with
          active := s.rst.active.erase r, escalations := satAdd 8 s.rst.escalations 1 } }).oosEvent.recordReset r 2 0
        match dom with
        | .cell c => (s0.failCell c).requestReset (.group (Fin.ofNat 16 (c.val / 8))) 0x03 [] true true
        | .port _ => s0.startCold false false
        | .compute => s0.startCold false false
        | _ => s0.requestReset .compute 0x03 [] true true

/-! ### RST_CMD (R470) -/

/-- The domain that a RST_CMD value names; none for a reserved domain or an instance out of range. -/
def rstDomain (v : BitVec 32) : Option Domain :=
  let i := fieldNat v 11 4
  match fieldNat v 3 0 with
  | 1 => if i < 128 then some (.cell (Fin.ofNat 128 i)) else none
  | 2 => if i < 16 then some (.group (Fin.ofNat 16 i)) else none
  | 3 => if i < 32 then some (.memGroup (Fin.ofNat 32 i)) else none
  | 4 => if i = 0 then some .ferry else none
  | 5 => if i = 0 then some .intake else none
  | 6 => if i = 0 then some .hawser else none
  | 8 => if i = 0 then some .compute else none
  | _ => none

/-- A write of RST_CMD. -/
def State.rstCmd (s : State) (v : BitVec 32) : State :=
  match rstDomain v with
  | some d => s.requestReset d 0x02 [] true false
  | none => { s with cnt := { s.cnt with badCmd := satAdd 8 s.cnt.badCmd 1 } }

/-- A write of RST_CMD whose domain field is the row's, from a host that reaches the registers (DEDUCED, log 128). -/
def State.rstRow (s : State) (code : Nat) (v : BitVec 32) : State := if s.hostReach ∧ fieldNat v 3 0 = code then s.rstCmd v else s

/-- RST_CMD_CELL (R470). -/
def execRstCmdCell (value : BitVec 32) : State → Host.Outcome State Fault Refusal := act fun s => s.rstRow 1 value

/-- RST_CMD_CELL_GROUP (R470). -/
def execRstCmdCellGroup (value : BitVec 32) : State → Host.Outcome State Fault Refusal := act fun s => s.rstRow 2 value

/-- RST_CMD_MEMORY_CHANNEL_GROUP (R470). -/
def execRstCmdMemoryChannelGroup (value : BitVec 32) : State → Host.Outcome State Fault Refusal := act fun s => s.rstRow 3 value

/-- RST_CMD_FERRY (R470). -/
def execRstCmdFerry (value : BitVec 32) : State → Host.Outcome State Fault Refusal := act fun s => s.rstRow 4 value

/-- RST_CMD_INTAKE (R470). -/
def execRstCmdIntake (value : BitVec 32) : State → Host.Outcome State Fault Refusal := act fun s => s.rstRow 5 value

/-- RST_CMD_HAWSER (R470). -/
def execRstCmdHawser (value : BitVec 32) : State → Host.Outcome State Fault Refusal := act fun s => s.rstRow 6 value

/-- RST_CMD_COMPUTE_WARM_RESET (R470). -/
def execRstCmdComputeWarmReset (value : BitVec 32) : State → Host.Outcome State Fault Refusal := act fun s => s.rstRow 8 value

end Sys2Proof.Machine
end

