-- ==== Sys2Proof/Machine/Ports.lean ====
section
/-! DEFINITION. The torus ports and the pair port (10 R277 to R285, R574): training and width, retrains, cable length, and the partner
exchange. -/

namespace Sys2Proof.Machine

/-- The state with a port changed. -/
def State.updPort (s : State) (q : Nat) (f : PortSt → PortSt) : State :=
  { s with fab := { s.fab with ports := supd {} s.fab.ports q f } }

/-! ### Training (R281, R283) -/

/-- The lane sets of a port in order of preference, as width and mask (R281); the pair port has one lane (R285). -/
def laneSets (q : Nat) : List (Nat × BitVec 8) :=
  if q = 6 then [(1, 0x01)] else [(8, 0xFF), (4, 0x0F), (4, 0xF0), (2, 0x03), (2, 0x0C), (2, 0x30), (2, 0xC0)]

/-- The lanes of a port that the fuses mark bad (R486). -/
def fusedLanes (q : Nat) : BitVec 8 :=
  Config.fuseBadLanes.foldl (fun m k => if k / 8 = q then m ||| BitVec.ofNat 8 (2 ^ (k % 8)) else m) 0

/-- The widest set in which every lane passes, of equal width the first listed; no lanes where none does (R281). -/
def laneSet (q : Nat) (pass : BitVec 8) : Nat × BitVec 8 :=
  ((laneSets q).find? fun e => decide (e.2 &&& pass = e.2)).getD (0, 0)

/-- FAB_CABLE.ps_per_cm as it acts (R302). -/
def State.psPerCm (s : State) : Nat :=
  let v := s.fld 0x701070 0 8
  if 30 ≤ v ∧ v ≤ 80 then v else 47

/-- The length of the cable in whole cm (R283) (DESIGN CHOICE, log 131). -/
def State.cableCm (s : State) (delayPs : Nat) : Nat := min 1023 (delayPs / s.psPerCm)

/-- The running image's version, as partner records show it (R284). -/
def State.fwVersion (s : State) : BitVec 32 := s.runImage.version

/-- The record index of the module's own position under its plan (R365). -/
def State.ownRec (s : State) : Option (List Byte × Nat) :=
  match s.flash.plan with
  | none => none
  | some p => (planFind p s.ownEnd).map fun i => (p, i)

/-- The module's partner record at a port (R284). -/
def State.ownRecord (s : State) (q : Nat) : BitVec 1024 :=
  let p := s.port q
  let c := match s.ownRec with
    | some (pl, i) => planXYZ pl i
    | none => (0, 0, 0)
  let digest := match s.flash.plan with
    | some pl => leNat ((sha384 pl).take 8)
    | none => 0
  BitVec.ofNat 1024 (0x5854504B + 0x8130 * 2 ^ 32 + 2 ^ 48 + Config.serial.toNat * 2 ^ 64 + s.fwVersion.toNat * 2 ^ 192
    + c.1 % 8 * 2 ^ 224 + c.2.1 % 8 * 2 ^ 227 + c.2.2 % 8 * 2 ^ 230 + s.ownRec.isSome.toNat * 2 ^ 233 + q % 8 * 2 ^ 234
    + p.lanes % 16 * 2 ^ 237 + p.mask.toNat * 2 ^ 241 + p.cableCm % 1024 * 2 ^ 249 + digest * 2 ^ 288 + s.stateCode % 256 * 2 ^ 352)

/-- The four segments of the module's partner record at a port, as link control blocks (R284, R308). -/
def State.recordLcbs (s : State) (q : Nat) : List (BitVec 512) :=
  let r := s.ownRecord q
  (List.range 4).map fun i => lcb (2 + 1 * 4 + i * 2 ^ 12 + fieldNat r (256 * i + 255) (256 * i) * 2 ^ 128)

/-- The module's partner record goes out at a port: behind a flow-state LCB in a free slot of a torus port (R309); the pair port has no slots
(R285). -/
def State.sendRecord (s : State) (q : Nat) : State :=
  let s1 := s.updPort q fun p => { p with nextExchange := s.now + msTicks 1000, lcbWait := p.lcbWait.filter fun b => fieldNat b 3 2 ≠ 1 }
  let bs := s.recordLcbs q
  if q = 6 then { s1 with fab := { s1.fab with lcbOut := s1.fab.lcbOut ++ bs.map fun b => (q, b) } } else s1.sendLcbs q bs

/-- A cage holds a cable (R574). -/
def State.cabled (s : State) (cage : Nat) : Bool := s.sup.cages.contains cage

/-- The domain of a torus port. -/
def portDom (q : Nat) : Domain := .port (Fin.ofNat 6 q)

/-- A port is being reset. -/
def State.portResetting (s : State) (q : Nat) : Bool := decide (q < 6) && s.rst.active.any fun r => decide (r.dom = portDom q)

/-- PORT_TRAINING (R281, R283, R285): both ends have trained every lane, and the port takes its set; over 210 cm it carries nothing. The
new width is reported (R282), and the partner exchange begins (R284) (DEDUCED, log 132). -/
def execPortTraining (port : Fin 7) (lanesPass : BitVec 8) (delayPs : Nat) : State → Host.Outcome State Fault Refusal :=
  act fun s =>
    let p := s.port port
    if !s.agentUp ∨ !p.training ∨ p.held ∨ s.portResetting port ∨ !s.cabled port then s
    else
      let set_ := laneSet port (lanesPass &&& ~~~ (fusedLanes port))
      let cm := if set_.1 = 0 then 0 else s.cableCm delayPs
      let far := decide (210 < cm)
      let lanes := if far then 0 else set_.1
      let s1 := s.updPort port fun p =>
        { p with lanes := lanes, mask := if far then 0 else set_.2, cableCm := cm, overLength := far, training := decide (lanes = 0 ∧ !far),
                 present := false, foreign := false, segments := [], lcbWait := [], nextExchange := s.now + msTicks 1000 }
      let s2 := if port.val = 6 then { s1 with fab := { s1.fab with pairUp := decide (lanes ≠ 0) } } else s1
      (if lanes = 0 then s2 else s2.sendRecord port).pathReport none port lanes

/-! ### Retrains (R282) -/

/-- A port retrains: one reset of it, unless it is the eighth within 600 s, which holds it. The partner is asked for a retrain where it has not itself
asked (R282, R309). -/
def State.retrain (s : State) (q : Nat) (ask : Bool) : State :=
  let p := s.port q
  if p.held ∨ p.training ∨ s.portResetting q then s
  else
    let ts := (p.retrainTimes.filter fun t => decide (s.now < t + msTicks 600000)) ++ [s.now]
    let s0 := if ask then s.sendLcbs q [lcb (2 + 2 * 4)] else s
    let s1 := s0.updPort q fun p => { p with retrains := satAdd 8 p.retrains 1, retrainTimes := ts, lcbWait := [] }
    if 8 ≤ ts.length then (s1.updPort q fun p => { p with held := true, lanes := 0, mask := 0 }).pathReport none q 0
    else s1.requestReset (portDom q) 0x00 [] true false

/-- LANE_LOCK_LOSS (R282): a lane of the set loses lock. -/
def execLaneLockLoss (port : Fin 6) (lane : Fin 8) : State → Host.Outcome State Fault Refusal :=
  act fun s => if s.agentUp ∧ bitAt (s.port port).mask lane then s.retrain port true else s

/-- FEC_BURST (R279, R282): uncorrectable codewords within 1 ms; more than 16 retrain the port. -/
def execFecBurst (port : Fin 6) (codewords : Nat) : State → Host.Outcome State Fault Refusal :=
  act fun s =>
    if !s.agentUp ∨ !s.portOn port then s
    else
      let s1 : State := { s with cnt := { s.cnt with
        fecUncorr := sset 0 s.cnt.fecUncorr port (satAdd 16 (sget 0 s.cnt.fecUncorr port) codewords) } }
      if 16 < codewords then s1.retrain port true else s1

/-- RETRAIN_REQUEST (R282, R308): the partner asks for a retrain. -/
def execRetrainRequest (port : Fin 6) (b : BitVec 512) : State → Host.Outcome State Fault Refusal :=
  act fun s => if s.agentUp ∧ s.portOn port ∧ !(s.port port).foreign ∧ lcbOk b 2 then s.retrain port false else s

/-- A port held at zero lanes trains again (R282, R388). -/
def State.releasePort (s : State) (q : Nat) : State :=
  s.updPort q fun p => if p.held then { p with held := false, retrainTimes := [], training := true } else p

/-! ### The partner exchange (R284) -/

/-- A partner record complete: a foreign one, one that confirms the lane set, and whether it is reported. -/
def State.partnerRecord (s : State) (q : Nat) (r : BitVec 1024) : State :=
  let p := s.port q
  let ok := decide (fieldNat r 31 0 = 0x5854504B) && decide (fieldNat r 47 32 = 0x8130)
  let s1 := s.updPort q fun p =>
    { p with partner := r, segments := [], foreign := !ok, present := ok && decide (fieldNat r 248 241 = p.mask.toNat) }
  if r = p.partner then s1
  else s1.agentReport 0x41 (leBytes 128 r.toNat ++ leBytes 1 q ++ leBytes 1 p.lanes)

/-- PARTNER_RECORD_SEGMENT (R284, R308). -/
def execPartnerRecordSegment (port : Fin 7) (b : BitVec 512) : State → Host.Outcome State Fault Refusal :=
  act fun s =>
    let p := s.port port
    if !s.agentUp ∨ !s.portOn port ∨ !lcbOk b 1 then s
    else
      let i := fieldNat b 13 12
      let segs := p.segments.filter (fun x => x.1 ≠ i) ++ [(i, slice b 128 256)]
      match lfind segs 0, lfind segs 1, lfind segs 2, lfind segs 3 with
      | some r0, some r1, some r2, some r3 => s.partnerRecord port (r3 ++ r2 ++ r1 ++ r0)
      | _, _, _, _ => s.updPort port fun p => { p with segments := segs }

/-- PARTNER_EXCHANGE_TIMER (R284): every 1,000 ms while the port is up. -/
def execPartnerExchangeTimer (port : Fin 7) : State → Host.Outcome State Fault Refusal :=
  act fun s =>
    let p := s.port port
    if !s.agentUp ∨ p.lanes = 0 ∨ p.training ∨ s.now < p.nextExchange then s else s.sendRecord port

/-! ### Links and cages -/

/-- PAIR_LINK_CHANGE (R285, R286, R531): the pair link goes down or comes up with its lane trained. What the partner said of an update
is forgotten. -/
def execPairLinkChange (up : Bool) : State → Host.Outcome State Fault Refusal :=
  act fun s =>
    if !s.agentUp ∨ (up ∧ (s.port 6).lanes = 0) then s
    else
      { s with fab := { s.fab with pairUp := up },
               fw := if up then s.fw else { s.fw with partnerState := 0, partnerAt := 0 } }

/-- A port loses its cable. -/
def State.uncable (s : State) (q : Nat) : State :=
  let s1 := s.updPort q fun p =>
    { p with lanes := 0, mask := 0, cableCm := 0, overLength := false, training := false, present := false, foreign := false, segments := [] }
  if q = 6 then { s1 with fab := { s1.fab with pairUp := false } } else s1

/-- CAGE_PRESENCE_CHANGE (R574): cages 0 to 5 the torus ports, 6 the pair port, 7 and 8 Ethernet, 9 Hawser. A port whose cage reports a
cable trains once stage 6 has been reached; without one it has zero lanes. -/
def execCagePresenceChange (cage : Fin 10) (present : Bool) : State → Host.Outcome State Fault Refusal :=
  act fun s =>
    if s.cabled cage = present then s
    else
      let s1 : State := { s with sup := { s.sup with
        cages := if present then s.sup.cages ++ [cage.val] else s.sup.cages.filter fun c => c ≠ cage.val } }
      if 7 ≤ cage.val then
        (if present ∨ cage.val = 9 then s1 else { s1 with ethUp := sset false s1.ethUp (cage.val - 7) false })
      else if present then
        (if s1.agentUp ∧ (6 ≤ s1.boot.stage ∨ (s1.port cage).nextExchange ≠ 0) ∧ !(s1.port cage).held then
          s1.updPort cage fun p => { p with training := true }
        else s1)
      else if s1.agentUp ∧ (s1.port cage).lanes ≠ 0 then (s1.uncable cage).pathReport none cage 0
      else s1.uncable cage

end Sys2Proof.Machine
end

