-- ==== Sys2Proof/Machine/Chain.lean ====
section
/-! DEFINITION. The Towpath chain (10 R292 to R295, R405), the start of a freeze (21 R562, 18 R511), and the rack reference with its frame
marker (10 R296 to R299). -/

namespace Sys2Proof.Machine

/-! ### Frames in (R292, R293) -/

/-- The frame names this module alone. -/
def State.towMine (s : State) (f : BitVec 128) : Bool := fieldNat f 39 24 = towEnd s.ownEnd

/-- The frame was sent by this module and has come round. -/
def State.towOwn (s : State) (f : BitVec 128) : Bool := fieldNat f 23 8 = towEnd s.ownEnd

/-- A frame sent on unchanged. -/
def State.towPass (s : State) (f : BitVec 128) : State := { s with tow := { s.tow with out := s.tow.out ++ [f] } }

/-- Closed relays join the input pair to the output pair, so that a frame goes on as it is (R295). Through open ones a frame is taken whole: a bad CRC drops it; it goes on unless it names this module alone or came from it, and one for this module
or for all has its effect. -/
def State.towTake (s : State) (f : BitVec 128) (type : Nat) (all : Bool) (eff : State → State) : State :=
  if !s.tow.culvertOpen then s.towPass f
  else if !s.agentUp then s
  else if !towOk f then { s with cnt := { s.cnt with towCrc := satAdd 8 s.cnt.towCrc 1 } }
  else if fType f ≠ type ∨ s.towOwn f then s
  else if s.towMine f then eff s
  else if all ∧ fieldNat f 39 24 = towAll then eff (s.towPass f)
  else s.towPass f

/-- ACK of a frame to its sender: its seq and type (R293). -/
def State.towAck (s : State) (f : BitVec 128) : State := s.towSend 0x08 (fieldNat f 23 8) (fSeq f + fType f * 256)

/-- FREEZE or RESET_REQ comes from a clock board, or from the holder of the current lease with its epoch (R294). -/
def State.towAuth (s : State) (f : BitVec 128) : Bool :=
  decide (fieldNat f 23 8 = 0xFFFF)
    || (s.leaseLive && decide (fieldNat f 23 8 = towEnd s.agent.holder) && decide (fPay f % 2 ^ 32 = s.agent.epoch.toNat))

/-- A frame refused under R294. -/
def State.towRefuse (s : State) : State := { s with cnt := { s.cnt with towRefused := satAdd 8 s.cnt.towRefused 1 } }

/-! ### Freeze (R562, R511) -/

/-- The module freezes: every island clock stops, so its state stays as it is; the relays close, and the confidential latch and the
snapshots are taken. A cause while it is frozen or in cold reset has no effect. -/
def State.freezeNow (s : State) (cause : BitVec 8) : State :=
  if s.frz.frozen ∨ s.rst.cold then s
  else
    { s with
      frz := { frozen := true, conf := s.confMode, cause := cause, tick := s.time.tick, snapTemps := s.pw.temps, snapMon := s.mon, alerts := 0 }
      tow := { s.tow with culvertOpen := false } }

/-! ### The frame types -/

/-- ROLL_CALL (R293). -/
def execRollCall (frame : BitVec 128) : State → Host.Outcome State Fault Refusal :=
  act fun s => s.towTake frame 0x01 true fun s => s.sendPresent

/-- PRESENT_TIMER (R368): every 1,000 ms. -/
def execPresentTimer : State → Host.Outcome State Fault Refusal :=
  act fun s => if s.agentUp ∧ s.tow.presentAt + msTicks 1000 ≤ s.now then s.sendPresent else s

/-- ALERT_REPEAT (R293): every 10 ms while the condition lasts. -/
def execAlertRepeat (code : BitVec 8) : State → Host.Outcome State Fault Refusal :=
  act fun s =>
    if s.agentUp ∧ s.tow.alerts.contains code ∧ sget 0 s.tow.alertAt code.toNat + msTicks 10 ≤ s.now then
      ({ s with tow := { s.tow with alertAt := sset 0 s.tow.alertAt code.toNat s.now } }).towSend 0x03 towAll code.toNat
    else s

/-- STAGE_REPEAT (R293, R491): every 100 ms until stage 9. -/
def execStageRepeat : State → Host.Outcome State Fault Refusal :=
  act fun s =>
    if s.agentUp ∧ fieldNat s.boot.report 7 0 ≠ 9 ∧ s.tow.stageAt + msTicks 100 ≤ s.now then
      ({ s with tow := { s.tow with stageAt := s.now } }).towSend 0x04 towAll s.boot.report.toNat
    else s

/-- FREEZE (R294, R562): after its ACK (DEDUCED, log 146). -/
def execFreeze (frame : BitVec 128) : State → Host.Outcome State Fault Refusal :=
  act fun s => s.towTake frame 0x05 false fun s =>
    if s.towAuth frame then (s.towAck frame).freezeNow 0x02 else s.towRefuse

/-- RESET_REQ kind 0b00, a cold reset, after its ACK (R294); the reserved kinds are refused. -/
def execResetReqCold (frame : BitVec 128) : State → Host.Outcome State Fault Refusal :=
  act fun s =>
    let kind := fPay frame / 2 ^ 32 % 4
    if kind = 1 ∧ s.tow.culvertOpen then s
    else s.towTake frame 0x06 false fun s =>
      if s.towAuth frame ∧ kind = 0 then (s.towAck frame).startCold false false else s.towRefuse

/-- RESET_REQ kind 0b01, a compute warm reset, after its ACK (R294, R462). -/
def execResetReqWarm (frame : BitVec 128) : State → Host.Outcome State Fault Refusal :=
  act fun s =>
    if fPay frame / 2 ^ 32 % 4 ≠ 1 ∧ s.tow.culvertOpen then s
    else s.towTake frame 0x06 false fun s =>
      if s.towAuth frame then (s.towAck frame).requestReset .compute 0x04 [] true false else s.towRefuse

/-- The messages being received without those of a sender. -/
def State.dropRx (s : State) (e : End) : List WmRx := s.tow.rx.filter fun r => r.src ≠ e

/-- A segment of an out-of-band message (R405): the first frame of a message names its segment count and id; a frame that is not the
next of its sender's message begins another. The last is acknowledged, and the message is the agent's (DESIGN CHOICE, log 133). -/
def State.wmSegment (s : State) (f : BitVec 128) : State :=
  let e := fSrc f
  let p := fPay f
  let fresh : State :=
    if p % 2 ^ 16 = 0 ∨ 512 < p % 2 ^ 16 ∨ p / 2 ^ 32 ≠ 0 then { s with tow := { s.tow with rx := s.dropRx e } }
    else
      { s with tow := { s.tow with rx := s.dropRx e ++
        [({ src := e, msgId := p / 2 ^ 16 % 2 ^ 16, segments := p % 2 ^ 16, next := (fSeq f + 1) % 256 } : WmRx)] } }
  match s.tow.rx.find? fun r => r.src = e with
  | none => fresh
  | some r =>
    if fSeq f ≠ r.next then fresh
    else
      let bytes := r.bytes ++ leBytes 8 p
      if bytes.length = 8 * r.segments then
        ({ s with tow := { s.tow with rx := s.dropRx e, inbox := s.tow.inbox ++ [(e, bytes)] } }).towAck f
      else
        { s with tow := { s.tow with rx := s.dropRx e ++ [{ r with bytes := bytes, next := (r.next + 1) % 256 }] } }

/-- WM (R293, R405). -/
def execWm (frame : BitVec 128) : State → Host.Outcome State Fault Refusal :=
  act fun s => s.towTake frame 0x07 true fun s => s.wmSegment frame

/-- ACK (R293, R295, R405): what was sent to that end and ended with that seq and type is no longer sent again. -/
def execAck (frame : BitVec 128) : State → Host.Outcome State Fault Refusal :=
  act fun s => s.towTake frame 0x08 false fun s =>
    { s with tow := { s.tow with tx := s.tow.tx.filter fun t =>
        !(decide (towEnd t.dst = fieldNat frame 23 8) && decide (t.seq = fPay frame % 256)
          && t.frames.all fun g => decide (fType g = fPay frame / 256 % 256)) } }

/-- TOWPATH_FORWARD (R292, R293): every other frame goes on; a Watermaster member notes a PRESENT. -/
def execTowpathForward (frame : BitVec 128) : State → Host.Outcome State Fault Refusal :=
  act fun s =>
    let s1 := if s.tow.culvertOpen ∧ [0x01, 0x05, 0x06, 0x07, 0x08].contains (fType frame) ∧ (s.towMine frame ∨ fieldNat frame 39 24 = towAll) then s
      else s.towTake frame (fType frame) true fun s => s
    if s.agentUp ∧ s.tow.culvertOpen ∧ towOk frame ∧ fType frame = 0x02 ∧ !s.towOwn frame then
      s1.wmPresent (fSrc frame) (BitVec.ofNat 8 (fPay frame)) (BitVec.ofNat 32 (fPay frame / 2 ^ 32))
    else s1

/-- WM_MESSAGE_RESEND (R405): a message not acknowledged within 10 ms is repeated, up to 5 times. -/
def execWmMessageResend (msgId : BitVec 16) : State → Host.Outcome State Fault Refusal :=
  act fun s =>
    match s.tow.tx.find? fun t => t.msgId = msgId.toNat && t.frames.all fun g => decide (fType g = 0x07) with
    | none => s
    | some t =>
      if !s.agentUp ∨ !s.tow.culvertOpen ∨ s.now < t.at_ + msTicks 10 then s
      else if 6 ≤ t.tries then { s with tow := { s.tow with tx := s.tow.tx.erase t } }
      else
        { s with tow := { s.tow with
          out := s.tow.out ++ t.frames, tx := s.tow.tx.map fun x => if x = t then { t with at_ := s.now, tries := t.tries + 1 } else x } }

/-- A FREEZE or RESET_REQ sent, and kept until its ACK (R295). -/
def State.towCommand (s : State) (type : Nat) (dst : End) (payload : Nat) : State :=
  if s.agentUp ∧ s.tow.culvertOpen then
    let f := towFrame type (towEnd s.ownEnd) (towEnd dst) s.tow.seq payload
    { s with tow := { s.tow with
      out := s.tow.out ++ [f], seq := (s.tow.seq + 1) % 256,
      tx := s.tow.tx ++ [{ msgId := s.tow.nextMsg, dst := dst, frames := [f], seq := s.tow.seq, at_ := s.now, tries := 1 }] } }
  else s

/-- TOWPATH_COMMAND_RESEND (R295): a FREEZE or RESET_REQ goes again until its ACK. -/
def execTowpathCommandResend (seq : BitVec 8) : State → Host.Outcome State Fault Refusal :=
  act fun s =>
    match s.tow.tx.find? fun t => t.seq = seq.toNat && t.frames.all fun g => decide (fType g = 0x05 ∨ fType g = 0x06) with
    | none => s
    | some t =>
      if !s.agentUp ∨ !s.tow.culvertOpen then s
      else
        { s with tow := { s.tow with
          out := s.tow.out ++ t.frames, tx := s.tow.tx.map fun x => if x = t then { t with at_ := s.now, tries := t.tries + 1 } else x } }

/-! ### The rack reference (R296 to R299) -/

/-- The reference is lost: the module runs on its oscillator, the tick count goes on, Headgate closes and ALERT 0x01 begins (R298,
R18). -/
def State.refLoss (s : State) : State :=
  ({ s with
    time := { s.time with refLost := true, validSince := none, word := none, badFrames := 0, hold := 0 }
    tt := { s.tt with hgRef := true } }).alertOn 0x01

/-- The tick count agrees with the reference again: Headgate opens and ALERT 0x01 ends (R299). -/
def State.refBack (s : State) : State :=
  ({ s with
    time := { s.time with refLost := false, validSince := none, word := none, badFrames := 0, hold := 0 }
    tt := { s.tt with hgRef := false } }).alertOff 0x01

/-- A frame without a valid marker and word, or with a marker off its tick: the second in a row loses the reference (R298). -/
def State.badMarker (s : State) : State :=
  if 1 ≤ s.time.badFrames then s.refLoss else { s with time := { s.time with badFrames := s.time.badFrames + 1 } }

/-- A good marker while the reference is lost: its unbroken validity is timed (R299). -/
def State.timeValid (s : State) (w : BitVec 64) : State :=
  let goes := match s.time.word with
    | some v => decide (w = v + 1)
    | none => false
  { s with time := { s.time with word := some w, validSince := if goes then s.time.validSince.orElse (fun _ => some s.now) else some s.now } }

/-- FRAME_MARKER (R297 to R299): the marker at the start of a frame, with the word before it where that was good. The first good one after power-good
sets the tick count, be the reference lost or not; from then on a marker must fall on its tick and name its frame. -/
def execFrameMarker (word : Option (BitVec 64)) : State → Host.Outcome State Fault Refusal :=
  act fun s =>
    if !s.agentUp then s
    else
      match word with
      | none => if s.time.refLost then { s with time := { s.time with validSince := none, word := none } } else s.badMarker
      | some w =>
        let s1 : State := if s.time.tickSet then s
          else { s with time := { s.time with tick := frameTicks * w.toNat, tickSet := true, badFrames := 0 } }
        if s1.time.refLost then s1.timeValid w
        else if s1.time.tick = frameTicks * w.toNat then { s1 with time := { s1.time with badFrames := 0 } }
        else s1.badMarker

/-- REFCLK_LOSS (R298): no edge for 50 ns, or a count beyond 200 ppm. -/
def execRefclkLoss : State → Host.Outcome State Fault Refusal :=
  act fun s => if s.agentUp then s.refLoss else s

/-- TOW_REF.recover_ms as it acts (R305), in ticks. -/
def State.recoverTicks (s : State) : Nat := msTicks (clamp 10 1000 (s.fld 0xE00010 0 10))

/-- REFERENCE_RECOVERY (R299): the marker that begins refFrame, the reference valid for recover_ms. A tick count behind steps forward;
one ahead holds still for the difference, and the recovery ends with it. -/
def execReferenceRecovery (refFrame : BitVec 64) : State → Host.Outcome State Fault Refusal :=
  act fun s =>
    match s.time.validSince with
    | none => s
    | some t =>
      if !s.agentUp ∨ !s.time.refLost ∨ s.time.hold ≠ 0 ∨ s.now < t + s.recoverTicks then s
      else
        let r := frameTicks * refFrame.toNat
        if !s.time.tickSet ∨ s.time.tick ≤ r then ({ s with time := { s.time with tick := r, tickSet := true } }).refBack
        else { s with time := { s.time with hold := s.time.tick - r } }

end Sys2Proof.Machine
end

