-- ==== Sys2Proof/Machine/Security.lean ====
section
/-! DEFINITION. Tenant keys (18 R502 to R506), tenant removal (R512, R513) and attestation (R514 to R517). -/

namespace Sys2Proof.Machine

/-! ### KEY_INSTALL (R504 to R506) -/

/-- The slot and generation that a KEY_INSTALL names. -/
def kiSlot (d : Line) : Nat := fieldNat d 195 192
def kiGen (d : Line) : Nat := fieldNat d 201 196

/-- The first row of R506: the lowest bit at fault. -/
def keyBad (d : Line) : Option Nat :=
  lowestBad [(128, fieldNat d 191 128 % 64 ≠ 0), (192, kiSlot d = 0), (202, fieldNat d 255 202 ≠ 0), (256, fieldNat d 271 256 ≠ 1344),
    (272, fieldNat d 511 272 ≠ 0)]

/-- A key blob that is not for this module, this slot or this generation. -/
def blobWrong (d : Line) (b : List Byte) : Bool :=
  let h := leNat (b.take 64)
  let f (hi lo : Nat) : Nat := h / 2 ^ lo % 2 ^ (hi + 1 - lo)
  decide (f 31 0 ≠ 0x59424B4B) || decide (f 47 32 ≠ 0x8130) || decide (f 63 48 ≠ 1) || decide (f 207 80 ≠ Config.serial.toNat)
    || decide (f 67 64 ≠ kiSlot d) || decide (f 77 72 ≠ kiGen d)

/-- A page last owned under a slot is scrubbing. -/
def State.slotScrubs (s : State) (k : Nat) : Bool := s.pages.any fun e => e.2.state = .scrubbing && e.2.lastSlot.toNat = k

/-- A removal of a slot is under way. -/
def State.slotRemoving (s : State) (k : Nat) : Bool :=
  match s.removal with
  | some r => decide (r.slot = k)
  | none => false

/-- The later rows of R506 for a blob: what denies the install, or the keys. -/
def State.keyOutcome (s : State) (d : Line) (b : List Byte) : Except Done (BitVec 512 × BitVec 256) :=
  let k := kiSlot d
  let x := s.key k
  let deny (c : Nat) : Except Done (BitVec 512 × BitVec 256) := .error { status := stSecDenied, detail := c }
  if blobWrong d b then deny 0x01
  else if 31 < (kiGen d + 64 - x.gen.toNat) % 64 then deny 0x02
  else if x.keyed then .error { status := stRejected }
  else if s.slotRemoving k ∨ s.slotScrubs k then .error { status := stBusy }
  else
    match keyUnwrap (s.ids.getD {}) b with
    | none => deny 0x03
    | some ks => if fieldNat ks.1 255 0 = fieldNat ks.1 511 256 then deny 0x04 else .ok ks

/-- KEY_INSTALL with its blob read (R506). -/
def State.installKey (s : State) (sq slot : Nat) (d : Line) (b : List Byte) : State :=
  match s.keyOutcome d b with
  | .error r =>
    let s1 : State := if r.status = stSecDenied then { s with cnt := { s.cnt with installDenied := satAdd 8 s.cnt.installDenied 1 } } else s
    s1.endDesc sq slot d r
  | .ok ks =>
    ({ s with keys := sset {} s.keys (kiSlot d) { keyed := true, gen := BitVec.ofNat 6 (kiGen d), xts := ks.1, link := ks.2 } }).endDesc
      sq slot d { status := stOk, r0 := kiGen d }

/-- KEY_INSTALL (R506). -/
def execKeyInstall (sq : Fin 256) : State → Host.Outcome State Fault Refusal :=
  act fun s => s.startRow sq 0x10 (fun _ => true) fun s slot d =>
    match keyBad d with
    | some b => s.complete sq slot d (badBit b)
    | none => s.startGather sq slot d (fieldNat d 191 128) 1344

/-! ### TENANT_REMOVE (R512, R513) -/

/-- The contexts that use a key slot. -/
def State.ctxsOf (s : State) (k : Nat) : List Nat := (s.ctxs.filter fun e => e.2.live && e.2.keySlot.toNat = k).map (·.1)

/-- A packet carries one of the contexts. -/
def pktOf (cs : List Nat) (p : Packet) : Bool := cs.contains (hCtx p.hdr).toNat

/-- Step 1 for a context: it stops. -/
def State.stopCtx (s : State) (c : Nat) : State :=
  let b : BitVec 6 := BitVec.ofNat 6 c
  let off (m : Sparse (BitVec 32)) (q : Nat) : Sparse (BitVec 32) :=
    let w := sget 0 m (8 * q)
    if bitAt w 0 ∧ fieldNat w 7 2 = c then sset 0 m (8 * q) (w &&& 0xFFFFFFFE) else m
  let s1 := s.updCtx c fun x => { x with removing := true, stopped := true }
  let s2 := forEach (s1.ringsOf b) (fun s sq => s.fenceReady sq) s1
  let s3 := (((s2.releaseAll b).stopLaunches b .fenced).stopTrickle b .fenced).fenceTrickle b
  { s3 with ethq := (List.range 32).foldl off s3.ethq }

/-- SEC_CFG.remove_wait_100us as it acts (R519), in ticks. -/
def State.removeWait (s : State) : Nat := usTicks (100 * max 1 (s.fld 0xA00010 0 8))

/-- Steps 1 and 2 of a removal, and its wait begins. Packets of the contexts that wait at injection are dropped as fenced
(DEDUCED, log 136). -/
def State.beginRemoval (s : State) (k : Nat) (job : Option (Nat × Nat)) : State :=
  let cs := s.ctxsOf k
  let s1 := forEach cs (fun s c => s.stopCtx c) s
  let n := (s1.fab.inject.filter fun w => pktOf cs w.pkt).length
  let sl := (cs.map fun c => s1.sliceOf c).find? fun x => x ≠ 0
  let mine := sget (0 : BitVec 16) s1.fab.fences s1.selfIdx
  let fences := match sl with
    | some x => if bitAt mine 0 then s1.fab.fences else sset 0 s1.fab.fences s1.selfIdx (BitVec.ofNat 16 (1 + 2 * x))
    | none => s1.fab.fences
  { s1 with
    fab := { s1.fab with inject := s1.fab.inject.filter (fun w => !pktOf cs w.pkt), fences := fences }
    cnt := { s1.cnt with fenceDrop := satAdd 16 s1.cnt.fenceDrop n }
    removal := some { slot := k, job := job, ctxs := cs, waitUntil := s.now + s.removeWait, fenced := sl.isSome && !bitAt mine 0 } }

/-- A removal ends as its slot is empty with no context, else it begins (R512, R513). -/
def State.tryRemoval (s : State) (k : Nat) (job : Option (Nat × Nat)) : State :=
  if !(s.key k).keyed ∧ (s.ctxsOf k).isEmpty then
    match job with
    | some j => s.finish j.1 j.2 { status := stOk }
    | none => s
  else s.beginRemoval k job

/-- The next work of the key keeper in order of arrival, while no removal is under way (R506). -/
def State.nextRemoval : Nat → State → State
  | 0, s => s
  | n + 1, s =>
    if s.removal.isSome then s
    else
      match s.removeQueue with
      | [] => s
      | e :: rest =>
        let s0 : State := { s with removeQueue := rest }
        match e.blob, e.job with
        | some b, some j => (s0.installKey j.1 j.2 (s0.jobDesc j.1 j.2) b).nextRemoval n
        | _, _ => (s0.tryRemoval e.slot e.job).nextRemoval n

/-- The key keeper, power-gated when idle, has nothing to do: no message and no removal (R271). -/
def State.keeperIdle (s : State) : Bool :=
  s.removal.isNone && s.removeQueue.isEmpty && s.hst.kbox.all fun e => !e.2.full

/-- Firmware sends the key keeper a message in the first of its mailboxes that is not full, and wakes it (R269 to R271, R273); with every box full
the write is discarded and sets drop in the first (DESIGN CHOICE, log 181). -/
def State.keeperPost (s : State) (slot : Nat) (install : Bool) : State :=
  match firstFrom (fun n => !(s.mbox .k n).full) 16 0 with
  | none => s.setMbox .k 0 { s.mbox .k 0 with drop := true }
  | some n =>
    let s1 := s.setMbox .k n { words := ssetRun 0 [] 0 (Config.keeperMsg slot install), full := true }
    if s.keeperIdle then { s1 with hst := { s1.hst with keeperWakes := s1.hst.keeperWakes + 1 } } else s1

/-- A removal asked for. -/
def State.askRemoval (s : State) (k : Nat) (job : Option (Nat × Nat)) : State :=
  let t := if job.isSome then s.keeperPost k false else s
  ({ t with removeQueue := t.removeQueue ++ [({ slot := k, job := job } : KeeperWork)] }).nextRemoval (t.removeQueue.length + 1)

/-- KEY_INSTALL with its blob read: it waits its turn while the key keeper handles a removal that a descriptor asked for (R506, R513);
one that a forced SLICE_FREE asked for did not come through the mailbox (DEDUCED, log 62). -/
def State.askInstall (s : State) (sq slot : Nat) (d : Line) (b : List Byte) : State :=
  let busy := match s.removal with
    | some r => r.job.isSome
    | none => false
  let t := s.keeperPost (kiSlot d) true
  if busy || !s.removeQueue.isEmpty then
    { t with removeQueue := t.removeQueue ++ [({ slot := kiSlot d, job := some (sq, slot), blob := some b } : KeeperWork)] }
  else t.installKey sq slot d b

/-- Mover commands of contexts, running or waiting. -/
def Mover.ofCtxs (v : Mover) (cs : List Nat) : List MoverCmd :=
  (v.cur.toList ++ v.queue ++ v.pieces).filter fun c => cs.contains c.ctx.toNat

/-- The work that a removal waits for: tickets, running mover commands and cell DMA commands. -/
def State.tenantWork (s : State) (cs : List Nat) : Nat :=
  s.usedTickets (fun t => cs.contains t.ctx.toNat)
    + sumOf (s.movers.map fun e => (e.2.cur.toList.filter fun c => cs.contains c.ctx.toNat).length)
    + sumOf (s.cells.map fun e => (e.2.mvq.filter fun m => cs.contains m.ctx.toNat).length)

/-- Re-send store copies of contexts. -/
def State.copiesOf (s : State) (cs : List Nat) : Nat :=
  sumOf ((s.fab.src ++ s.fab.trees).map fun e => (e.2.unacked.filter fun u => pktOf cs u.2.1).length)

/-- Step 4 of a removal: what is left is discarded, started descriptors complete with FENCED, and the slot's keys are gone. -/
def State.cutTenant (s : State) (k : Nat) (cs : List Nat) : State :=
  let drop (m : Sparse E2eSrc) : Sparse E2eSrc := m.map fun e => (e.1, { e.2 with unacked := e.2.unacked.filter fun u => !pktOf cs u.2.1 })
  let gone : List Packet := (s.fab.src ++ s.fab.trees).flatMap fun e => (e.2.unacked.filter fun u => pktOf cs u.2.1).map fun u => u.2.1
  let keep (c : MoverCmd) : Bool := !cs.contains c.ctx.toNat
  let s1 := ((s.dropTickets fun t => cs.contains t.ctx.toNat).1).freeCopies gone
  let s2 : State := { s1 with
    fab := { s1.fab with src := drop s1.fab.src, trees := drop s1.fab.trees }
    keys := sset {} s1.keys k { gen := (s1.key k).gen + 1 }
    cells := s1.cells.map fun e => (e.1, { e.2 with mvq := e.2.mvq.filter fun m => !cs.contains m.ctx.toNat }) }
  let s3 := forEach s2.movers (fun s e =>
    (s.updMover e.1 fun v => { v with cur := v.cur.filter keep, queue := v.queue.filter keep, pieces := v.pieces.filter keep }).moverNext e.1) s2
  forEach (s3.jobs.filter fun j => cs.contains (s3.sq j.sq).ctx.toNat) (fun s j =>
    ({ s with syncWaits := s.syncWaits.filter fun w => !(w.sq = j.sq && w.slot = j.slot) }).finish j.sq j.slot { status := stFenced }) s3

/-- Steps 4 to 6 of a removal (R512). -/
def State.endRemoval (s : State) (r : Removal) : State :=
  let lost := s.usedTickets (fun t => r.ctxs.contains t.ctx.toNat)
    + sumOf (s.movers.map fun e => (e.2.ofCtxs r.ctxs).length)
    + sumOf (s.cells.map fun e => (e.2.mvq.filter fun m => r.ctxs.contains m.ctx.toNat).length) + s.copiesOf r.ctxs
  let s1 := s.cutTenant r.slot r.ctxs
  let s2 := forEach r.ctxs (fun s c => (s.closeSession (BitVec.ofNat 6 c)).1.forgetCtx (BitVec.ofNat 6 c)) s1
  let s3 : State := { s2 with
    removal := none
    fab := if r.fenced then { s2.fab with fences := sset 0 s2.fab.fences s2.selfIdx 0 } else s2.fab
    cnt := { s2.cnt with removals := satAdd 8 s2.cnt.removals 1,
                         partials := if lost = 0 then s2.cnt.partials else satAdd 8 s2.cnt.partials 1 } }
  let s4 := match r.job with
    | some j => s3.finish j.1 j.2 (if lost = 0 then { status := stOk } else { status := stPartial, r0 := lost })
    | none => s3
  s4.nextRemoval (s4.removeQueue.length + 1)

/-- TENANT_REMOVE (R512): steps 1 and 2, in its turn at the key keeper (R506). -/
def execTenantRemove (sq : Fin 256) : State → Host.Outcome State Fault Refusal :=
  act fun s => s.startRow sq 0x11 (fun _ => true) fun s slot d =>
    let k := fieldNat d 131 128
    match lowestBad [(128, k = 0), (132, fieldNat d 511 132 ≠ 0)] with
    | some b => s.complete sq slot d (badBit b)
    | none => (s.startJob sq slot d .removal).askRemoval k (some (sq.val, slot))

/-- TENANT_REMOVE_WAIT_END (R512 step 3): the tenant's work has reached 0, or the wait is over. -/
def execTenantRemoveWaitEnd : State → Host.Outcome State Fault Refusal :=
  act fun s =>
    match s.removal with
    | none => s
    | some r => if s.compute ∧ !s.hst.paused ∧ (s.tenantWork r.ctxs = 0 ∨ r.waitUntil ≤ s.now) then s.endRemoval r else s

/-! ### ATTEST (R514 to R517) -/

/-- The bytes of a 64-byte report entry with the digest recorded at load. -/
def entryBytes (v : Nat) (digest : BitVec 384) : List Byte := leBytes 64 (v % 2 ^ 128 + digest.toNat * 2 ^ 128)

/-- One program entry for each loaded image of each cell, in ascending cell and base. -/
def State.progEntries (s : State) (c : Nat) : List (List Byte) :=
  (List.range 128).flatMap fun n =>
    (sortBy (fun (i : Image) => i.base) ((s.cell n).images.filter fun i => i.ctx.toNat = c)).map fun i =>
      entryBytes (n + (match i.thread with
        | .fg => 0
        | .tr => 2 ^ 7) + i.base % 4096 * 2 ^ 8 + i.count % 8192 * 2 ^ 20 + (s.cellAway n).toNat * 2 ^ 33) i.digest

/-- One timetable entry for each loaded object, by handle. -/
def State.ttEntries (s : State) (c : Nat) : List (List Byte) :=
  (sortBy (fun (o : TtObject) => o.handle) (s.tt.objects.filter fun o => o.ctx.toNat = c)).map fun o =>
    entryBytes (o.handle % 256 + o.setId % 2 ^ 32 * 2 ^ 8 + o.member % 2 ^ 16 * 2 ^ 40) o.digest

/-- One weight entry for each weight record, by id. -/
def State.wtEntries (s : State) (c : Nat) : List (List Byte) :=
  (sortBy (fun (w : WeightRec) => w.id) (s.ctx c).weights).map fun w =>
    entryBytes (w.id % 2 ^ 32 + w.dst % 2 ^ 48 * 2 ^ 32 + w.len % 2 ^ 32 * 2 ^ 80) w.digest

/-- image_state (R515, R517). -/
def State.imageState (s : State) : Nat := if s.fw.state = .awaiting then 2 else if s.fw.state = .staged then 1 else 0

/-- A 256-byte report header. -/
def State.reportHeader (s : State) (c n0 n1 n2 : Nat) (nonce : Nat) : List Byte :=
  let x := s.ctx c
  let r := s.runImage
  let o : FwImage := if s.imageState = 0 then {} else s.otherImage
  let hawserReset := s.hst.inReset
  leBytes 256 (0x5454414B + 0x8130 * 2 ^ 32 + 2 ^ 48 + (256 + 64 * (n0 + n1 + n2) + 3392) * 2 ^ 64 + r.version.toNat * 2 ^ 96
    + s.stateCode % 256 * 2 ^ 128 + s.confMode.toNat * 2 ^ 136 + s.debugLocked.toNat * 2 ^ 137 + s.imageState * 2 ^ 138
    + c % 64 * 2 ^ 144 + x.keySlot.toNat * 2 ^ 150 + (s.slotGen x.keySlot).toNat * 2 ^ 154 + n0 % 2 ^ 16 * 2 ^ 160 + n1 % 2 ^ 16 * 2 ^ 176
    + n2 % 2 ^ 16 * 2 ^ 192 + s.fry.inReset.toNat * 2 ^ 208 + s.itkReset.toNat * 2 ^ 209 + hawserReset.toNat * 2 ^ 210
    + r.svn % 2 ^ 32 * 2 ^ 224 + Config.serial.toNat * 2 ^ 256 + r.digest.toNat * 2 ^ 384 + r.ucode.toNat * 2 ^ 768
    + o.version.toNat * 2 ^ 1152 + o.svn % 2 ^ 32 * 2 ^ 1184 + o.digest.toNat * 2 ^ 1216 + nonce % 2 ^ 256 * 2 ^ 1600
    + s.time.tick % 2 ^ 64 * 2 ^ 1856)

/-- The report for a context with its signature block (R515, R516). -/
def State.attestReport (s : State) (c nonce : Nat) : List Byte :=
  let e0 := s.progEntries c
  let e1 := s.ttEntries c
  let e2 := s.wtEntries c
  let body := s.reportHeader c e0.length e1.length e2.length nonce ++ (e0 ++ e1 ++ e2).flatten
  body ++ attestBlock (s.ids.getD {}) body

/-- What an ATTEST writes. -/
def State.attestBytes (s : State) (d : Line) : List Byte :=
  match fieldNat d 217 216 with
  | 1 => deviceCert
  | 2 => caCert
  | _ => s.attestReport (fieldNat d 229 224) (fieldNat d 511 256)

/-- ATTEST as the key keeper answers it (R514): a context being removed is fenced (R513). -/
def State.attestStart (s : State) (sq slot : Nat) (d : Line) : State :=
  let c := (s.sq sq).ctx.toNat
  let t := fieldNat d 229 224
  match lowestBad [(128, fieldNat d 191 128 % 64 ≠ 0), (216, fieldNat d 217 216 = 3), (218, fieldNat d 223 218 ≠ 0),
      (230, fieldNat d 255 230 ≠ 0)] with
  | some b => s.complete sq slot d (badBit b)
  | none =>
    if c ≠ 0 ∧ t ≠ c then s.complete sq slot d { status := stSecDenied }
    else if !(s.ctx t).live then s.complete sq slot d (badBit 224)
    else if (s.ctx t).removing then s.complete sq slot d { status := stFenced }
    else
      let bs := s.attestBytes d
      if fieldNat d 215 192 < bs.length then s.complete sq slot d { status := stBadDesc, detail := 192, r0 := bs.length }
      else s.reportOut sq slot d (fieldNat d 191 128) bs bs.length s.time.tick

/-- ATTEST (R514). In an activate pause no ring starts it, so that it waits (R517, R532). -/
def execAttest (sq : Fin 256) : State → Host.Outcome State Fault Refusal :=
  act fun s => s.startRow sq 0x12 (fun _ => true) fun s slot d => s.attestStart sq slot d

end Sys2Proof.Machine
end

