-- ==== Sys2Proof/Machine/PlanRules.lean ====
section
/-! DEFINITION. What a plan says beyond the position of one module (13 R362 to R364): planned cables, operator keys, and when a plan is
refused with FORMAT. -/

namespace Sys2Proof.Machine

/-- The extent of a plan in dimension 0 x, 1 y, 2 z. -/
def planExt (p : List Byte) (d : Nat) : Nat := if d = 0 then planEx p else if d = 1 then planEy p else planEz p

/-- One coordinate of a triple. -/
def coord (c : Nat × Nat × Nat) (d : Nat) : Nat := if d = 0 then c.1 else if d = 1 then c.2.1 else c.2.2

/-- A triple with one coordinate replaced. -/
def setCoord (c : Nat × Nat × Nat) (d v : Nat) : Nat × Nat × Nat :=
  if d = 0 then (v, c.2.1, c.2.2) else if d = 1 then (c.1, v, c.2.2) else (c.1, c.2.1, v)

/-- The index of the record at coordinates. -/
def planIdx (p : List Byte) (c : Nat × Nat × Nat) : Nat := c.1 * planEy p * planEz p + c.2.1 * planEz p + c.2.2

/-- A record of role empty, or none at all. -/
def planEmpty (p : List Byte) (i : Nat) : Bool := decide (planCount p ≤ i) || decide (recRole (planRec p i) = 2)

/-- The record at the far end of the + cable of a record in a dimension, where the shape has one (R362). -/
def planPlus (p : List Byte) (i d : Nat) : Option Nat :=
  let c := planXYZ p i
  let e := planExt p d
  if e = 8 then some (planIdx p (setCoord c d ((coord c d + 1) % 8)))
  else if coord c d + 1 < e then some (planIdx p (setCoord c d (coord c d + 1)))
  else none

/-- The record at the far end of the - cable of a record. -/
def planMinus (p : List Byte) (i d : Nat) : Option Nat :=
  let c := planXYZ p i
  let e := planExt p d
  if e = 8 then some (planIdx p (setCoord c d ((coord c d + 7) % 8)))
  else if 0 < coord c d then some (planIdx p (setCoord c d (coord c d - 1)))
  else none

/-- The planned partner of a record's torus port, where both ends hold a module: its record and port (R277, R370). -/
def planPartner (p : List Byte) (i q : Nat) : Option (Nat × Nat) :=
  let j := if q % 2 = 0 then planPlus p i (q / 2) else planMinus p i (q / 2)
  match j with
  | some j => if planEmpty p i ∨ planEmpty p j then none else some (j, if q % 2 = 0 then q + 1 else q - 1)
  | none => none

/-- The planned partner of a record's pair port (R363). -/
def planPair (p : List Byte) (i : Nat) : Option Nat :=
  let r := planRec p i
  if bitAt r 56 then some (fieldNat r 55 46) else none

/-- The planned length in cm of the + cable of a record in a dimension. -/
def planCm (p : List Byte) (i d : Nat) : Nat := fieldNat (planRec p i) (25 + 10 * d) (16 + 10 * d)

/-- The cable at a torus port of a record is declared absent; it is described at its - end's partner. -/
def planAbsent (p : List Byte) (i q : Nat) : Bool :=
  if q % 2 = 0 then bitAt (planRec p i) (12 + q / 2)
  else
    match planMinus p i (q / 2) with
    | some j => bitAt (planRec p j) (12 + q / 2)
    | none => false

/-- The planned length of the cable at a port of a record: torus or pair. -/
def planLen (p : List Byte) (i q : Nat) : Nat :=
  if q = 6 then fieldNat (planRec p i) 201 192
  else if q % 2 = 0 then planCm p i (q / 2)
  else
    match planMinus p i (q / 2) with
    | some j => planCm p j (q / 2)
    | none => 0

/-- The number of operator keys, and key k. -/
def planKeys (p : List Byte) : Nat := planHdr p 163 160
def planKey (p : List Byte) (k : Nat) : BitVec 256 := BitVec.ofNat 256 (bytesNat p (128 + 32 * planCount p + 32 * k) 32)

def planRev (p : List Byte) : Nat := planHdr p 95 64
def planTol (p : List Byte) : Nat := planHdr p 169 164
def planMissing (p : List Byte) : Nat := planHdr p 175 170

/-- The record at fault in no way of R364. -/
def recOk (p : List Byte) (i : Nat) : Bool :=
  let r := planRec p i
  let reserved := fieldNat r 11 11 ≠ 0 || fieldNat r 15 15 ≠ 0 || fieldNat r 63 57 ≠ 0 || fieldNat r 255 202 ≠ 0 || recRole r = 3
  let cables := (List.range 3).all fun d =>
    match planPartner p i (2 * d) with
    | some _ => decide (1 ≤ planCm p i d) && decide (planCm p i d ≤ 200)
    | none => true
  let pair := match planPair p i with
    | some j => decide (j < planCount p) && decide (planPair p j = some i) && decide (1 ≤ planLen p i 6) && decide (planLen p i 6 ≤ 200)
    | none => true
  !reserved && cables && pair

/-- Two records that are not empty name the same rack and slot. -/
def endsClash (p : List Byte) : Bool :=
  let es := ((List.range (planCount p)).filter fun i => !planEmpty p i).map fun i => recEnd (planRec p i)
  decide (es.eraseDups.length ≠ es.length)

/-- A plan that is not refused with FORMAT (R364) (DEDUCED, log 135). -/
def planOk (p : List Byte) : Bool :=
  let a := planHdr p 149 140
  let b := planHdr p 159 150
  decide (128 ≤ p.length) && decide (planHdr p 31 0 = 0x4E4C504B) && decide (planHdr p 47 32 = 0x8130) && decide (planHdr p 63 48 = 1)
    && decide (planHdr p 139 137 = 0) && decide (planHdr p 1023 176 = 0)
    && decide (p.length = 128 + 32 * (planCount p + planKeys p))
    && (List.range (planCount p)).all (recOk p) && !endsClash p
    && decide (a ≠ b) && !planEmpty p a && !planEmpty p b && decide (planPair p a = some b)

/-- Every agent of a plan: module index and end of each record that is not empty. -/
def planAgents (p : List Byte) : List (Nat × End) :=
  ((List.range (planCount p)).filter fun i => !planEmpty p i).map fun i => (modIdx (planXYZ p i), recEnd (planRec p i))

/-- Every agent of the plan held. -/
def State.agents (s : State) : List (Nat × End) := (s.flash.plan.map planAgents).getD []

/-- The end of the agent of a module index. -/
def State.endOf (s : State) (m : Nat) : End := (lfind s.agents m).getD noEnd

/-- A plan written to flash before it is acknowledged; the older copy stays beside it (R365). -/
def State.putPlan (s : State) (p : List Byte) : State := { s with flash := { s.flash with plan := some p, oldPlan := s.flash.plan } }

/-- A plan whose revision is higher than that of the plan held (R366). -/
def State.newer (s : State) (p : List Byte) : Bool :=
  match s.flash.plan with
  | none => true
  | some q => decide (planRev q < planRev p)

end Sys2Proof.Machine
end

