-- ==== Sys2Proof/Machine/Agent.lean ====
section
/-! DEFINITION. The agent: sequenced Watermaster commands and their handling (14 R399, R400), route tables, switches and the census
(12 R343 to R349), fences, slices and pair users, plans, and the lease (R395 to R398). -/

namespace Sys2Proof.Machine

/-! ### Results (R399) -/

def arOk : Nat := 0x00
def arBusy : Nat := 0x01
def arLocked : Nat := 0x02
def arBad : Nat := 0x03
def arStale : Nat := 0x04
def arNoLease : Nat := 0x05
def arLive : Nat := 0x06
def arNotCandidate : Nat := 0x07

/-- What a command did: the state, its result and the body of its answer. -/
abbrev Did := State × Nat × List Byte

/-- Nothing, with a result. -/
def State.no (s : State) (r : Nat) : Did := (s, r, [])

/-- Done, with OK. -/
def did (s : State) : Did := (s, arOk, [])

/-! ### Route tables (R335 to R344) -/

/-- The entries of a table. -/
def rtSize : RtTable → Nat
  | .dest => 512
  | .port => 6
  | .flow => 4096
  | .tree => 4096

/-- An entry with a reserved field or value set (R326, R339 to R341). -/
def rtReserved (t : RtTable) (e : BitVec 32) : Bool :=
  match t with
  | .dest => decide (fieldNat e 31 14 ≠ 0)
  | .port => decide (fieldNat e 31 2 ≠ 0) || decide (fieldNat e 1 0 = 3)
  | .flow => decide (fieldNat e 31 4 ≠ 0)
  | .tree => bitAt e 19 || decide (fieldNat e 31 28 ≠ 0)

/-- A run of entries written into a bank. -/
def RouteBank.write (b : RouteBank) (t : RtTable) (first : Nat) (es : List (BitVec 32)) : RouteBank :=
  match t with
  | .dest => { b with dest := ssetRun 0 b.dest first es }
  | .port => { b with port := ssetRun 2 b.port first es }
  | .flow => { b with flow := ssetRun 0 b.flow first (es.map fun e => e.truncate 16) }
  | .tree => { b with tree := ssetRun 0 b.tree first es }

/-- The state with the bank of an epoch replaced. -/
def State.setBank (s : State) (e : Bool) (b : RouteBank) : State :=
  if e then { s with fab := { s.fab with bank1 := b } } else { s with fab := { s.fab with bank0 := b } }

/-- An armed instance, or one that is being released and still runs, owns a run of a flow on this router (R169, R344). -/
def State.flowArmed (s : State) (f : Nat) : Bool :=
  s.tt.instances.any fun i => (i.state = .armed || i.state = .releasing) && i.object.runs.any fun r => r.2.flow = f

/-- An RT_WRITE would change the port or valid bit of a flow entry that is locked (R344). -/
def State.flowLocked (s : State) (first : Nat) (es : List (BitVec 32)) : Bool :=
  es.zipIdx.any fun e =>
    let cur := sget (0 : BitVec 16) (s.bank s.epoch).flow (first + e.2)
    decide (fieldNat cur 3 0 ≠ fieldNat e.1 3 0) && s.flowArmed (first + e.2)

/-- RT_WRITE (R343, R344): a run of entries of one table into the inactive bank. -/
def State.rtWrite (s : State) (t : RtTable) (first : Nat) (es : List (BitVec 32)) : Did :=
  if !s.fab.censusDone then s.no arBusy
  else if rtSize t < first + es.length ∨ es.any (rtReserved t) then s.no arBad
  else if t = .flow ∧ s.flowLocked first es then s.no arLocked
  else did (s.setBank (!s.epoch) ((s.bank (!s.epoch)).write t first es))

/-- The switch (R346): the next version is in force, and old-epoch packets are counted from now on. Its trees are installed afresh, so that they
serve pruned modules again (R345, R358). -/
def State.switchNow (s : State) : State :=
  ({ s with fab := { s.fab with
    trees := s.fab.trees.map fun (e : Nat × E2eSrc) => (e.1, { e.2 with pruned := [] })
    version := s.fab.version + 1, switchAt := none, switchedAt := s.now, counting := true, drained := false, censusDone := false,
    drainedAt := s.now } }).settleDrained

/-- RT_SWITCH (R343, R346). -/
def State.rtSwitch (s : State) (v : BitVec 16) (t : Nat) : Did :=
  if !s.fab.censusDone then s.no arBusy
  else if v ≠ s.fab.version + 1 ∨ t % frameTicks ≠ 0 then s.no arBad
  else if t ≤ s.time.tick then did s.switchNow
  else did { s with fab := { s.fab with switchAt := some t } }

/-- CENSUS_DONE (R343, R348). -/
def State.censusEnd (s : State) (v : BitVec 16) : Did :=
  if v ≠ s.fab.version then s.no arBad
  else did { s with fab := { s.fab with censusDone := true } }

/-- FENCE_SET and FENCE_CLEAR write one fence entry (R343, R354). The Watermaster's entry stands over one that a removal wrote (R512). -/
def State.fence (s : State) (m : Nat) (e : BitVec 16) : Did :=
  if fieldNat e 15 9 ≠ 0 then s.no arBad
  else
    did { s with
      fab := { s.fab with fences := sset 0 s.fab.fences m e }
      removal := if m = s.selfIdx then s.removal.map fun r => { r with fenced := false } else s.removal }

/-! ### Slices, pairs, ports, plans -/

/-- Every context of a slice ends (R384): as by CONTEXT_DESTROY, or by the steps of R512 for its key slot. -/
def State.endSlice (s : State) (x : Nat) : State :=
  let cs := (s.ctxs.filter fun e => e.2.live && e.2.slice.toNat = x && decide (x ≠ 0)).map fun e => (e.1, e.2.keySlot.toNat)
  let s1 := forEach (cs.filter fun e => e.2 = 0) (fun s e =>
    let c : BitVec 6 := BitVec.ofNat 6 e.1
    let s1 := forEach (s.ringsOf c) (fun s sq => s.fenceReady sq) (s.updCtx e.1 fun x => { x with removing := true })
    let s2 := (((s1.releaseAll c).stopLaunches c .fenced).stopTrickle c .fenced).fenceTrickle c
    (s2.closeSession c).1.forgetCtx c) s
  forEach ((cs.filter fun e => e.2 ≠ 0).map (·.2)).eraseDups (fun s k => s.askRemoval k none) s1

/-- SLICE_INFO (R380): the member's slice record; slice id 0 clears it, and its contexts end with it (R384). -/
def State.sliceInfo (s : State) (r : BitVec 256) : Did :=
  let old := s.ownSlice
  let s1 : State := { s with agent := { s.agent with sliceRec := if fieldNat r 71 64 = 0 then 0 else r } }
  did (if fieldNat r 71 64 = old then s1 else s1.endSlice old)

/-- A piece of a plan (R399): the plan is taken under R366 when every byte has arrived. A plan held already is not written again
(DESIGN CHOICE, log 139). -/
def State.planPiece (s : State) (off total : Nat) (piece : List Byte) : Did :=
  let parts := (if s.agent.planTotal = total then s.agent.planParts.filter (fun e => e.1 ≠ off) else []) ++ [(off, piece)]
  let whole := (sortBy (·.1) parts).foldl (fun (acc : List Byte) e => if acc.length = e.1 then acc ++ e.2 else acc) []
  if total < off + piece.length then s.no arBad
  else if whole.length < total then did { s with agent := { s.agent with planParts := parts, planTotal := total } }
  else
    let s1 : State := { s with agent := { s.agent with planParts := [], planTotal := 0 } }
    if s.flash.plan = some whole then did s1
    else if planOk whole ∧ s.newer whole then did (s1.putPlan whole)
    else (s1, arBad, [])

/-- The answer of STATE_QUERY: lease, version, pair user, then the fence entries that are set. -/
def State.queryBody (s : State) : List Byte :=
  leBytes 4 s.agent.epoch.toNat ++ leBytes 2 s.agent.holder.toNat ++ leBytes 1 s.agent.hasLease.toNat ++ leBytes 1 s.fab.pairUser.toNat
    ++ leBytes 8 s.agent.expiry ++ leBytes 2 s.fab.version.toNat ++ leBytes 2 s.fab.fences.length
    ++ s.fab.fences.flatMap fun e => leBytes 2 e.1 ++ leBytes 2 e.2.toNat

/-! ### Sequenced commands (R400) -/

/-- The envelope of a sequenced command, and who sent it. -/
def cmdEnv : Instr → Option (BitVec 256 × End)
  | .rtWrite env e _ _ _ => some (env, e)
  | .rtSwitch env e _ _ => some (env, e)
  | .censusDone env e _ => some (env, e)
  | .fenceSet env e _ _ => some (env, e)
  | .fenceClear env e _ _ => some (env, e)
  | .sliceInfo env e _ => some (env, e)
  | .pairUser env e _ => some (env, e)
  | .agentPortRelease env e _ => some (env, e)
  | .budget env e _ => some (env, e)
  | .planPush env e _ _ _ => some (env, e)
  | .stateQuery env e => some (env, e)
  | _ => none

/-- execute(c) of R400. -/
def State.agentDo (s : State) : Instr → Did
  | .rtWrite _ _ t first es => s.rtWrite t first es
  | .rtSwitch _ _ v t => s.rtSwitch v t.toNat
  | .censusDone _ _ v => s.censusEnd v
  | .fenceSet _ _ m e => s.fence m e
  | .fenceClear _ _ m e => s.fence m e
  | .sliceInfo _ _ r => s.sliceInfo r
  | .pairUser _ _ u => if u = 3 then s.no arBad else did { s with fab := { s.fab with pairUser := u } }
  | .agentPortRelease _ _ q => did (s.releasePort q)
  | .budget _ _ x => did { s with agent := { s.agent with share := some (min 260 x.toNat) } }
  | .planPush _ _ off total piece => s.planPiece off.toNat total.toNat piece
  | .stateQuery _ _ => (s, arOk, s.queryBody)
  | _ => s.no arBad

/-- An answer to a copy of a command goes to its sender; refusals for the lease are counted (R411). -/
def State.answerCmd (s : State) (env : BitVec 256) (to_ : End) (r : Nat) (body : List Byte) : State :=
  let s1 : State := if r = arStale ∨ r = arNoLease then { s with cnt := { s.cnt with wmStale := satAdd 8 s.cnt.wmStale 1 } } else s
  s1.sendEnv to_ (envelope (eType env) r true 0 s.agent.epoch.toNat (eSeq env) body) body

/-- A gap counted. -/
def State.cntGap (s : State) : State := { s with cnt := { s.cnt with wmStale := satAdd 8 s.cnt.wmStale 1 } }

/-- MISMATCH to both members: seq, role of the executed copy, both body_crc values (R400). -/
def State.reportMismatch (s : State) (seq : Nat) (byStandby : Bool) (c0 c1 : BitVec 32) : State :=
  ({ s with cnt := { s.cnt with wmMismatch := satAdd 8 s.cnt.wmMismatch 1 } }).agentReport 0x43
    (leBytes 4 seq ++ leBytes 4 byStandby.toNat ++ leBytes 4 c0.toNat ++ leBytes 4 c1.toNat)

/-- A second copy of an executed command: compared, counted, answered with the result of the first. The result of one that is no
longer kept is a free value (log 3). -/
def State.secondCopy (s : State) (env : BitVec 256) (from_ : End) : State :=
  let q := eSeq env
  let s0 : State := { s with cnt := { s.cnt with wmDup := satAdd 8 s.cnt.wmDup 1 } }
  match s.agent.kept.find? fun k => k.1 = q with
  | some k =>
    let s1 := if k.2.1 ≠ eCrc env then s0.reportMismatch q k.2.2.2 k.2.1 (eCrc env) else s0
    s1.answerCmd env from_ k.2.2.1.toNat []
  | none =>
    let f := s0.free 8
    f.1.answerCmd env from_ f.2.toNat []

/-- The handling of one command (R400) (DESIGN CHOICE, log 95). -/
def State.handle (s : State) (i : Instr) : State :=
  match cmdEnv i with
  | none => s
  | some (env, from_) =>
    let q := eSeq env
    if eEpoch env < s.agent.epoch then s.answerCmd env from_ arStale []
    else if s.agent.epoch < eEpoch env ∨ !s.leaseLive then s.answerCmd env from_ arNoLease []
    else if q < s.agent.nextSeq then s.secondCopy env from_
    else if s.agent.nextSeq < q then
      if 64 ≤ s.agent.held.length then s.cntGap
      else { s with agent := { s.agent with held := s.agent.held ++ [(i, q, s.now)] } }
    else
      let r := s.agentDo i
      let s1 : State := { r.1 with agent := { r.1.agent with
        kept := (r.1.agent.kept ++ [(q, eCrc env, BitVec.ofNat 8 r.2.1, eRole env)]).drop (r.1.agent.kept.length - 255), nextSeq := q + 1 } }
      s1.answerCmd env from_ r.2.1 r.2.2

/-- Held commands whose turn has come, or whose epoch has passed, are handled in seq order (DEDUCED, log 137). -/
def State.runHeld : Nat → State → State
  | 0, s => s
  | n + 1, s =>
    let due (h : Instr × Nat × Nat) : Bool :=
      decide (h.2.1 ≤ s.agent.nextSeq) || match cmdEnv h.1 with
        | some (env, _) => decide (eEpoch env ≠ s.agent.epoch)
        | none => true
    match (sortBy (fun (h : Instr × Nat × Nat) => h.2.1) (s.agent.held.filter due)).head? with
    | none => s
    | some h => (({ s with agent := { s.agent with held := s.agent.held.erase h } }).handle h.1).runHeld n

/-- A sequenced command arrives at the agent; an answer is none. -/
def State.runCmd (s : State) (env : BitVec 256) (i : Instr) : State :=
  if !s.agentUp ∨ eAnswer env then s else (s.handle i).runHeld 65

/-- RT_WRITE (R343). -/
def execRtWrite (env : BitVec 256) (sender : End) (table : RtTable) (first : Nat) (entries : List (BitVec 32)) :
    State → Host.Outcome State Fault Refusal := act fun s => s.runCmd env (.rtWrite env sender table first entries)

/-- RT_SWITCH (R346). -/
def execRtSwitch (env : BitVec 256) (sender : End) (version : BitVec 16) (at_ : BitVec 64) : State → Host.Outcome State Fault Refusal :=
  act fun s => s.runCmd env (.rtSwitch env sender version at_)

/-- CENSUS_DONE (R343). -/
def execCensusDone (env : BitVec 256) (sender : End) (version : BitVec 16) : State → Host.Outcome State Fault Refusal :=
  act fun s => s.runCmd env (.censusDone env sender version)

/-- FENCE_SET (R343, R354). -/
def execFenceSet (env : BitVec 256) (sender : End) (module : Fin 512) (entry : BitVec 16) : State → Host.Outcome State Fault Refusal :=
  act fun s => s.runCmd env (.fenceSet env sender module entry)

/-- FENCE_CLEAR (R343, R354) (DEDUCED, log 134). -/
def execFenceClear (env : BitVec 256) (sender : End) (module : Fin 512) (entry : BitVec 16) : State → Host.Outcome State Fault Refusal :=
  act fun s => s.runCmd env (.fenceClear env sender module entry)

/-- SLICE_INFO (R380). -/
def execSliceInfo (env : BitVec 256) (sender : End) (record : BitVec 256) : State → Host.Outcome State Fault Refusal :=
  act fun s => s.runCmd env (.sliceInfo env sender record)

/-- PAIR_USER (R286). -/
def execPairUser (env : BitVec 256) (sender : End) (user : BitVec 2) : State → Host.Outcome State Fault Refusal :=
  act fun s => s.runCmd env (.pairUser env sender user)

/-- PORT_RELEASE as an agent command (R282, R399). -/
def execAgentPortRelease (env : BitVec 256) (sender : End) (port : Fin 7) : State → Host.Outcome State Fault Refusal :=
  act fun s => s.runCmd env (.agentPortRelease env sender port)

/-- BUDGET (R419). -/
def execBudget (env : BitVec 256) (sender : End) (share : BitVec 16) : State → Host.Outcome State Fault Refusal :=
  act fun s => s.runCmd env (.budget env sender share)

/-- PLAN_PUSH (R366, R399). -/
def execPlanPush (env : BitVec 256) (sender : End) (offset total : BitVec 32) (piece : List (BitVec 8)) :
    State → Host.Outcome State Fault Refusal := act fun s => s.runCmd env (.planPush env sender offset total piece)

/-- STATE_QUERY (R399, R404). -/
def execStateQuery (env : BitVec 256) (sender : End) : State → Host.Outcome State Fault Refusal :=
  act fun s => s.runCmd env (.stateQuery env sender)

/-- HELD_COMMAND_TIMEOUT (R400): a command held for 10 ms makes the agent skip forward to the lowest held seq; the gap is counted. -/
def execHeldCommandTimeout : State → Host.Outcome State Fault Refusal :=
  act fun s =>
    if s.agentUp ∧ s.agent.held.any (fun (h : Instr × Nat × Nat) => decide (h.2.2 + msTicks 10 ≤ s.now)) then
      (({ s with agent := { s.agent with nextSeq := minOf 0 (s.agent.held.map fun (h : Instr × Nat × Nat) => h.2.1) } }).cntGap).runHeld 65
    else s

/-! ### Switch and census events (R346 to R349) -/

/-- SWITCH_TICK (R346). -/
def execSwitchTick : State → Host.Outcome State Fault Refusal :=
  act fun s =>
    match s.fab.switchAt with
    | some t => if s.agentUp ∧ t ≤ s.time.tick then s.switchNow else s
    | none => s

/-- DRAINED_REPEAT (R347): every 1 ms until CENSUS_DONE. -/
def execDrainedRepeat : State → Host.Outcome State Fault Refusal :=
  act fun s =>
    if s.agentUp ∧ s.fab.counting ∧ s.fab.drained ∧ !s.fab.censusDone ∧ s.fab.drainedAt + msTicks 1 ≤ s.now then
      ({ s with fab := { s.fab with drainedAt := s.now } }).agentReport 0x42 (leBytes 2 s.fab.version.toNat)
    else s

/-- FAB_EPOCH_CFG.census_frames as it acts (R360). -/
def State.censusFrames (s : State) : Nat := max 4 (s.fld 0x700044 0 8)

/-- Old-epoch packets purged from one VC: counted, timetabled ones also at their port, and their tickets have left. -/
def State.purgeVc (s : State) (port vc : Nat) : State :=
  let out := (s.vcBuf port vc).filter fun b => hEpoch b.pkt.hdr ≠ s.epoch
  let s1 := s.setVc port vc ((s.vcBuf port vc).filter fun b => hEpoch b.pkt.hdr = s.epoch)
  (forEach out (fun s b =>
    let s1 : State := { s with cnt := { s.cnt with purged := satAdd 16 s.cnt.purged 1 } }
    (if hCls b.pkt.hdr = clsTt then s1.ttDropped port else s1).ticketLeft b.tkt) s1).refreshFlow port vc

/-- CENSUS_PURGE (R349): old-epoch packets still held census_frames after the switch are purged, and DRAINED is reported. -/
def execCensusPurge : State → Host.Outcome State Fault Refusal :=
  act fun s =>
    if s.agentUp ∧ s.fab.counting ∧ 0 < s.oldHeld ∧ s.fab.switchedAt + frameTicks * s.censusFrames ≤ s.now then
      let old (r : RedEntry) : Bool := r.used && r.sentAt.isNone && decide (r.epoch ≠ s.epoch)
      let n := (s.fab.red.filter fun e => old e.2).length
      let s1 : State := { s with
        fab := { s.fab with red := s.fab.red.filter fun e => !old e.2 }
        cnt := { s.cnt with purged := satAdd 16 s.cnt.purged n } }
      ((forEach (List.range 42) (fun s k => s.purgeVc (k / 6) (k % 6)) s1).settleDrained).pumpInject
    else s

/-! ### Sending for the Watermaster (R392, R394, R399) -/

/-- The management cycle of the tick count (R392). -/
def State.cycleNow (s : State) : Nat := s.time.tick / 100000

/-- A sequenced command sent: the next seq for its agent, kept until its answer. -/
def State.wmSend (s : State) (m : Nat) (type : BitVec 8) (body : List Byte) : State :=
  let w := s.wm.sh
  let n := sget 0 w.seqs m + 1
  let role := if s.wm.role = .active then 0 else 1
  let s1 : State := { s with wm := { s.wm with sh := { w with
    seqs := sset 0 w.seqs m n
    outstanding := w.outstanding ++ [({ agent := m, seq := n, type := type, body := body, cycle := w.cycle } : WmCommand)] } } }
  s1.sendEnv (s.endOf m) (envelope type.toNat 0 false role s.wm.epoch n body) body

/-- A sequenced command to an agent from a member; it waits while the agent has not accepted the holder's take (R398). -/
def State.wmCommand (s : State) (m type : Nat) (body : List Byte) : State :=
  let w := s.wm.sh
  if w.untaken.contains m then
    { s with wm := { s.wm with sh := { w with
      outstanding := w.outstanding ++ [({ agent := m, type := BitVec.ofNat 8 type, body := body, cycle := w.cycle } : WmCommand)] } } }
  else s.wmSend m (BitVec.ofNat 8 type) body

/-- An agent has accepted the take: the commands that waited for it go out. -/
def State.wmTaken (s : State) (m : Nat) : State :=
  let w := s.wm.sh
  if w.untaken.contains m then
    let waits (c : WmCommand) : Bool := decide (c.agent = m ∧ c.seq = 0)
    forEach (w.outstanding.filter waits) (fun s c => s.wmSend m c.type c.body)
      { s with wm := { s.wm with sh := { w with untaken := w.untaken.erase m, outstanding := w.outstanding.filter fun c => !waits c } } }
  else s

/-- A command to every agent of the plan. -/
def State.wmAll (s : State) (type : Nat) (body : List Byte) : State := forEach s.agents (fun s a => s.wmCommand a.1 type body) s

/-- The module's own agent has taken its lease: it is the active (R390, R397). One that was not SYNCED or COASTING starts with every
planned position heard now, and asks every agent for its state (R404). -/
def State.becomeActive (s : State) : State :=
  let knew := s.wm.role = .synced || s.wm.role = .coasting
  let c := s.cycleNow
  let w : WmShared := if knew then s.wm.sh else
    { keySeq := s.wm.sh.keySeq, keyReply := s.wm.sh.keyReply
      positions := forEach s.agents (fun (ps : Sparse Position) a => sset {} ps a.2.toNat { lastSeen := c }) [] }
  let s1 : State := { s with wm := { s.wm with
    role := .active, seeking := false, inputs := [], copied := [], copyCycle := none, coasts := 0, fullParts := [], standby := false
    joinAsked := false
    sh := { w with cycle := c, keepsRole := false, seqs := [], outstanding := [], untaken := (s.agents.map (·.1)).erase s.selfIdx }
    queryWait := if knew then none else some (s.now + msTicks 100), queryLeft := if knew then [] else s.agents.map (·.1) } }
  if knew then s1 else s1.wmAll 0x0D []

/-- A member stops as a candidate without a role (R398); replies that it holds are never sent. -/
def State.demote (s : State) : State :=
  { s with wm := { s.wm with role := .none, seeking := false, queryWait := none, queryLeft := [], replies := [], standby := false } }

/-! ### The lease (R395 to R398) -/

/-- The lease length in ticks from the start of a cycle (R396). -/
def leaseEnd (cycle : Nat) : Nat := 100000 * cycle + 2000000

/-- LEASE_RENEW (R396): accepted from the holder under the agent's epoch while the lease is live (DEDUCED, log 138). -/
def execLeaseRenew (env : BitVec 256) (sender : End) (cycle : BitVec 64) : State → Host.Outcome State Fault Refusal :=
  act fun s =>
    if !s.agentUp ∨ eAnswer env then s
    else if eEpoch env = s.agent.epoch ∧ sender = s.agent.holder ∧ s.leaseLive then
      ({ s with agent := { s.agent with expiry := leaseEnd cycle.toNat, lastLive := s.now } }).answerCmd env sender arOk []
    else s.answerCmd env sender (if eEpoch env < s.agent.epoch then arStale else arNoLease) []

/-- LEASE_TAKE (R397, R398): accepted from a candidate whose epoch is greater, while no lease is live. An activate that waits for the
new epoch pauses with it (R25 note k, R532). -/
def execLeaseTake (env : BitVec 256) (sender : End) (cycle : BitVec 64) : State → Host.Outcome State Fault Refusal :=
  act fun s =>
    if !s.agentUp ∨ eAnswer env then s
    else if !s.candidates.contains sender then s.answerCmd env sender arNotCandidate []
    else if s.leaseLive then s.answerCmd env sender arLive []
    else if !(s.agent.epoch < eEpoch env) then s.answerCmd env sender arStale []
    else
      let s1 := ({ s with agent := { s.agent with
        epoch := eEpoch env, holder := sender, hasLease := true, expiry := leaseEnd cycle.toNat, nextSeq := 1, kept := [],
        lastLive := s.now } }).answerCmd env sender arOk []
      let s2 : State := { s1 with wm := { s1.wm with known := max s1.wm.known (eEpoch env).toNat } }
      let s3 := if sender = s.ownEnd then (if s.wm.seeking then s2.becomeActive else s2)
        else if s.wm.role = .active ∨ s.wm.seeking then s2.demote else s2
      if s3.fw.pauseWait then (s3.runHeld 65).beginPause else s3.runHeld 65

/-- LEASE_EXPIRY (R397, R532, R564): the lease ends at the agent. A holder does not seek it again for 20 cycles. An activate of the active
Watermaster pauses now where no standby is SYNCED or COASTING; else the standby's new epoch begins it (R25 note k). -/
def execLeaseExpiry : State → Host.Outcome State Fault Refusal :=
  act fun s =>
    if s.agentUp ∧ s.agent.hasLease ∧ s.agent.expiry ≤ s.time.tick then
      let s1 : State := { s with agent := { s.agent with hasLease := false, lastLive := s.now } }
      if s.agent.holder = s.ownEnd then
        let s2 := s1.demote
        let s3 : State := { s2 with wm := { s2.wm with seekAfter := s.cycleNow + 20 } }
        if s3.fw.pauseWait ∧ !s.wm.standby then s3.beginPause else s3
      else s1
    else s

/-- A member of a twin slice is never elected (R390). -/
def State.twinMember (s : State) : Bool := decide (s.ownSlice ≠ 0) && decide (fieldNat s.agent.sliceRec 79 72 ≠ 0)

/-- How long a candidate's agent must have seen no live lease before it seeks it (R391, R397): wm_a 20 ms, wm_b 60 ms, a standby
none. -/
def State.seekWait (s : State) : Nat :=
  match s.wm.role with
  | .none => if s.candidates.head? = some s.ownEnd then msTicks 20 else msTicks 60
  | _ => 0

/-- The module may hold the role: a candidate from stage 8 on, neither latched out of service nor quarantined nor a twin member
(R22, R373, R390, R391). -/
def State.eligible (s : State) : Bool :=
  s.agentUp && decide (s.fw.state ≠ .activating) && !s.rst.warm && s.candidates.contains s.ownEnd && !s.twinMember && !s.flash.oosLatched && !s.boot.heldQuar
    && decide (8 ≤ s.boot.stage)

/-- A PAIR message sent (R402), while the pair port serves the pair and its link is up. -/
def State.pairMsg (s : State) (type : Nat) (body : List Byte) : State :=
  if s.fab.pairUser = 1 ∧ s.fab.pairUp then s.pairNote (BitVec.ofNat 8 type) body else s

/-- LEASE_SEEK (R391, R397): a candidate takes the lease with one more than the highest epoch it knows, or, where the other candidate
holds a live lease, joins it as standby (DESIGN CHOICE, log 143). -/
def execLeaseSeek : State → Host.Outcome State Fault Refusal :=
  act fun s =>
    if !s.eligible ∨ s.wm.role = .active ∨ s.cycleNow < s.wm.seekAfter then s
    else if s.leaseLive then
      if s.wm.role = .none ∧ s.agent.holder ≠ s.ownEnd then
        ({ s with wm := { s.wm with role := .joining, fullParts := [], epoch := s.agent.epoch.toNat, seeking := false } }).pairMsg 0x03 []
      else s
    else if s.now < s.agent.lastLive + s.seekWait then s
    else
      let f := max s.wm.known s.agent.epoch.toNat + 1
      let body := leBytes 8 s.cycleNow
      let s1 : State := { s with wm := { s.wm with epoch := f, known := f, seeking := true } }
      forEach s.agents (fun s a => s.sendEnv a.2 (envelope 0x02 0 false 1 f 0 body) body) s1

end Sys2Proof.Machine
end

