-- ==== Sys2Proof/Machine/WmRoutes.lean ====
section
/-! DEFINITION. What the Watermaster makes of the reports (13 R368 to R382, 12 R339 to R342, R352): positions and cable ends judged
against the plan, the topology, slices, and the route tables built from them. p is the plan, w the shared state; positions are
named by record index i or module index m. -/

namespace Sys2Proof.Machine

/-! ### Partner records (R284) -/

def prSerial (r : BitVec 1024) : Nat := fieldNat r 191 64
def prFw (r : BitVec 1024) : Nat := fieldNat r 223 192
def prIdx (r : BitVec 1024) : Nat := modIdx (fieldNat r 226 224, fieldNat r 229 227, fieldNat r 232 230)
def prValid (r : BitVec 1024) : Bool := bitAt r 233
def prPort (r : BitVec 1024) : Nat := fieldNat r 236 234
def prCm (r : BitVec 1024) : Nat := fieldNat r 258 249
def prDigest (r : BitVec 1024) : Nat := fieldNat r 351 288
def prState (r : BitVec 1024) : Nat := fieldNat r 359 352

/-- A record of a module of this kind (R284). -/
def prGood (r : BitVec 1024) : Bool := decide (fieldNat r 31 0 = 0x5854504B) && decide (fieldNat r 47 32 = 0x8130)

/-- The module index of a record. -/
def planMod (p : List Byte) (i : Nat) : Nat := modIdx (planXYZ p i)

/-- The digest of a plan as partner records show it. -/
def planDigest (p : List Byte) : Nat := leNat ((sha384 p).take 8)

/-- What is known of an end. -/
def WmShared.pos (w : WmShared) (e : End) : Position := sget {} w.positions e.toNat

/-- The planned partner at a port, the pair port 6 included. -/
def planFar (p : List Byte) (i q : Nat) : Option (Nat × Nat) :=
  if q = 6 then
    match planPair p i with
    | some j => if planEmpty p i ∨ planEmpty p j then none else some (j, 6)
    | none => none
  else planPartner p i q

/-- The module that a partner record received at port q of record i names: by its coordinates; one that holds no plan stands for the
planned partner where it names its port (DEDUCED, log 47). -/
def prNames (p : List Byte) (i q : Nat) (r : BitVec 1024) : Option (Nat × Nat) :=
  if prValid r then some (prIdx r, prPort r)
  else
    match planFar p i q with
    | some (j, q') => if prPort r = q' then some (planMod p j, q') else none
    | none => none

/-- The newest record that a neighbour reports of a module. -/
def WmShared.reported (w : WmShared) (p : List Byte) (m : Nat) : Option (BitVec 1024) :=
  w.positions.findSome? fun e =>
    match planFind p (BitVec.ofNat 16 e.1) with
    | none => none
    | some i => (e.2.records.find? fun r => prGood r.2 && decide ((prNames p i r.1 r.2).map (·.1) = some m)).map (·.2)

/-! ### Judging (R369, R370) -/

def fMissing : Nat := 0x01
def fUnplanned : Nat := 0x02
def fStale : Nat := 0x03
def fDown : Nat := 0x04
def fForeign : Nat := 0x05
def fSwapped : Nat := 0x06
def fMiswired : Nat := 0x07
def fNarrow : Nat := 0x08
def fLength : Nat := 0x09
def fFirmware : Nat := 0x0A
def fUnplannedLink : Nat := 0x0B
def fState : Nat := 0x0C
def fLost : Nat := 0x0D
def fSpares : Nat := 0x0E

/-- A port that has trained and has sent no record yet: no finding, and not used. -/
def rowUnknown : Nat := 0xFF

/-- Seconds of silence that make a position missing, in cycles. -/
def silentFor (p : List Byte) : Nat := 1000 * planMissing p

/-- The position of a record judged by the first row of R369 that matches; 0 none. -/
def positionRow (p : List Byte) (w : WmShared) (i : Nat) : Nat :=
  let r := planRec p i
  let o := w.pos (recEnd r)
  let silent := decide (o.lastSeen + silentFor p ≤ w.cycle)
  if planEmpty p i then (if o.code ≠ 0 ∧ !silent then fUnplanned else 0)
  else if silent then fMissing
  else
    let rep := w.reported p (planMod p i)
    let serial := fieldNat r 191 64
    match rep with
    | some x =>
      if serial ≠ 0 ∧ prSerial x ≠ serial then fUnplanned
      else if prDigest x ≠ planDigest p then fStale
      else if o.code = 2 ∨ o.code = 3 then fState else 0
    | none => if o.code = 2 ∨ o.code = 3 then fState else 0

/-- A port of a record judged by the first row of R370 that matches. -/
def portRow (p : List Byte) (w : WmShared) (i q : Nat) : Nat :=
  let o := w.pos (recEnd (planRec p i))
  let lanes := sget 0 o.lanes q
  match planFar p i q with
  | none => if lanes ≠ 0 then fUnplannedLink else 0
  | some (j, q') =>
    if lanes = 0 then fDown
    else
      match lfind o.records q with
      | none => rowUnknown
      | some r =>
        if !prGood r then fForeign
        else
          match prNames p i q r with
          | none => fSwapped
          | some (m, pq) =>
            if m ≠ planMod p j then fSwapped
            else if pq ≠ q' then fMiswired
            else if 210 < prCm r then fDown
            else if q ≠ 6 ∧ lanes < 8 then fNarrow
            else if planLen p i q + planTol p < prCm r ∨ prCm r + planTol p < planLen p i q then fLength
            else if (w.reported p (planMod p i)).any fun x => decide (prFw x ≠ prFw r) then fFirmware
            else 0

/-- A row with which the link is used. -/
def rowUsed (c : Nat) : Bool := c = 0 || c = fNarrow || c = fLength || c = fFirmware

/-- The link of a torus port joins two planned partners and both its ends are in use (R370). -/
def linkUsed (p : List Byte) (w : WmShared) (i q : Nat) : Bool :=
  match planFar p i q with
  | none => false
  | some (j, q') => !(q ≠ 6 && planAbsent p i q) && rowUsed (portRow p w i q) && rowUsed (portRow p w j q')

/-- A module that is quarantined (R372, R373). -/
def quarantined (p : List Byte) (w : WmShared) (i : Nat) : Bool := positionRow p w i = fUnplanned

/-- A position at which a module stands. -/
def standing (p : List Byte) (w : WmShared) (i : Nat) : Bool :=
  let r := positionRow p w i
  if planEmpty p i then r = fUnplanned else r ≠ fMissing

/-- Records of a plan. -/
def recsOf (p : List Byte) : List Nat := List.range (planCount p)

/-- The module planned at the far end of a torus port stands, so that the port does not face a hole (R372). -/
def farStands (p : List Byte) (w : WmShared) (i q : Nat) : Bool := (planPartner p i q).any fun j => standing p w j.1

/-- The topology of a plan as found (R372): modules, quarantined ones, and link ends in use. -/
def topology (p : List Byte) (w : WmShared) : WmView :=
  let up := (recsOf p).filter (standing p w)
  { present := up.map (planMod p)
    quarantined := (up.filter (quarantined p w)).map (planMod p)
    links := up.flatMap fun i => ((List.range 6).filter fun q => linkUsed p w i q && farStands p w i q).map fun q => 8 * planMod p i + q
    slices := w.slices, flows := w.flows }

/-! ### Graphs -/

/-- The module beyond a torus port, by coordinates, whether or not one is planned there. -/
def beyond (p : List Byte) (m q : Nat) : Option Nat :=
  match planAt p m with
  | none => none
  | some i => (if q % 2 = 0 then planPlus p i (q / 2) else planMinus p i (q / 2)).map (planMod p)

/-- A link of two quarantined ends or of one: it has role boundary wherever a module stands at both ends (R373). -/
def quarLink (p : List Byte) (v : WmView) (m q : Nat) : Option Nat :=
  match beyond p m q with
  | none => none
  | some n => if v.present.contains n ∧ (v.quarantined.contains m ∨ v.quarantined.contains n) then some n else none

/-- The slice record that holds a module. -/
def WmView.sliceRec (v : WmView) (m : Nat) : Option (BitVec 256) := v.slices.find? fun r => (sliceBox r).contains m

/-- The slice id of a module; 0 none. -/
def WmView.sliceOf (v : WmView) (m : Nat) : Nat := ((v.sliceRec m).map fun r => fieldNat r 71 64).getD 0

/-- The role of a port (R340, R352); every port of a quarantined module is a boundary link (R373). -/
def WmView.portRole (v : WmView) (p : List Byte) (m q : Nat) : Nat :=
  if v.quarantined.contains m ∨ (quarLink p v m q).isSome then 1
  else if !v.links.contains (8 * m + q) then 2
  else
    match beyond p m q with
    | none => 2
    | some n => if v.sliceOf m = v.sliceOf n then 0 else 1

/-- Neighbours of a module over ports of any role but absent. -/
def WmView.near (v : WmView) (p : List Byte) (m : Nat) : List (Nat × Nat) :=
  ((List.range 6).filter fun q => decide (v.portRole p m q ≠ 2)).filterMap fun q => (beyond p m q).map fun n => (q, n)

/-- Neighbours of a member over the slice links of its slice. -/
def WmView.inSlice (v : WmView) (p : List Byte) (m : Nat) : List (Nat × Nat) :=
  ((List.range 6).filter fun q => decide (v.portRole p m q = 0)).filterMap fun q =>
    match beyond p m q with
    | some n => if v.sliceOf m ≠ 0 ∧ v.sliceOf n = v.sliceOf m then some (q, n) else none
    | none => none

/-- The layers of nodes at distance 0, 1, 2, … in a graph. -/
def layers (adj : Nat → List Nat) : Nat → List Nat → List Nat → List (List Nat)
  | 0, _, _ => []
  | n + 1, front, seen =>
    if front.isEmpty then []
    else
      let next := (front.flatMap adj).eraseDups.filter fun x => !seen.contains x
      front :: layers adj n next (seen ++ next)

/-- The distance of a node in a list of layers. -/
def distIn (ls : List (List Nat)) (m : Nat) : Option Nat := ls.findIdx? fun l => l.contains m

/-- The ports of m that lead one step nearer along the layers around a destination. -/
def portsTo (ls : List (List Nat)) (near : List (Nat × Nat)) (m : Nat) : List Nat :=
  match distIn ls m with
  | none => []
  | some 0 => []
  | some (k + 1) => (near.filter fun e => decide (distIn ls e.2 = some k)).map (·.1)

/-! ### Tables (R339 to R345) -/

/-- Destination entry d of router r (R339): the shortest paths within the slice, and the first port of a shortest path over the whole
reach group that passes through no quarantined module (DESIGN CHOICE, log 48). -/
def destEntry (p : List Byte) (v : WmView) (r d : Nat) : BitVec 32 :=
  if !v.present.contains d then 0
  else
    let mine := decide (v.sliceOf r ≠ 0) && decide (v.sliceOf r = v.sliceOf d) && !v.quarantined.contains r && !v.quarantined.contains d
    let adapt := if mine then portsTo (layers (fun x => (v.inSlice p x).map (·.2)) 513 [d] [d]) (v.inSlice p r) r else []
    let reach (x : Nat) : List Nat := if v.quarantined.contains x ∧ x ≠ d then [] else (v.near p x).map (·.2)
    let mg := portsTo (layers reach 513 [d] [d]) (v.near p r) r
    BitVec.ofNat 32 (1 + mine.toNat * 2 + sumOf (adapt.map fun q => 2 ^ (q + 2)) + minOf 0 adapt * 2 ^ 8 + minOf 0 mg * 2 ^ 11)

/-- The dimensions in an order (R382). -/
def dimOrder (o : Nat) : List Nat := [[0, 1, 2], [0, 2, 1], [1, 0, 2], [1, 2, 0], [2, 0, 1], [2, 1, 0]].getD o []

/-- The hops along one dimension: offsets passed, and the port out of each. -/
def dimHops (dim : Nat) (neg : Bool) : Nat → Nat × Nat × Nat → List ((Nat × Nat × Nat) × Nat) × (Nat × Nat × Nat)
  | 0, o => ([], o)
  | n + 1, o =>
    let o' := setCoord o dim ((coord o dim + (if neg then 7 else 1)) % 8)
    let r := dimHops dim neg n o'
    ((o, 2 * dim + neg.toNat) :: r.1, r.2)

/-- A flow map entry's source and destination offsets, and its fields (R382). -/
def flowSrc (e : BitVec 64) : Nat × Nat × Nat := (fieldNat e 14 12, fieldNat e 17 15, fieldNat e 20 18)
def flowDst (e : BitVec 64) : Nat × Nat × Nat := (fieldNat e 23 21, fieldNat e 26 24, fieldNat e 29 27)
def flowId (e : BitVec 64) : Nat := fieldNat e 11 0

/-- A flow map entry with a reserved field or order. -/
def flowReserved (e : BitVec 64) : Bool := decide (fieldNat e 63 36 ≠ 0) || decide (6 ≤ fieldNat e 32 30)

/-- The routers along a flow and the port out of each; none where the path leaves the box (R382). -/
def flowPath (r : BitVec 256) (e : BitVec 64) : Option (List (Nat × Nat)) :=
  let s := flowSrc e
  let d := flowDst e
  let fits := (List.range 3).all fun k => decide (coord s k < sliceExt r k) && decide (coord d k < sliceExt r k)
    && (!(bitAt e (33 + k)) || decide (sliceExt r k = 8))
  if !fits then none
  else
    let hops := (dimOrder (fieldNat e 32 30)).foldl (fun (acc : List ((Nat × Nat × Nat) × Nat) × (Nat × Nat × Nat)) k =>
      let a := coord s k
      let b := coord d k
      let neg := if sliceExt r k = 8 then bitAt e (33 + k) else decide (b < a)
      let n := if neg then (a + 8 - b) % 8 else (b + 8 - a) % 8
      let h := dimHops k neg n acc.2
      (acc.1 ++ h.1, h.2)) ([], s)
    some (hops.1.map fun h => (memberAt r h.1, h.2))

/-- The flow map of a slice. -/
def flowsOf (fl : List (Nat × List (BitVec 64))) (x : Nat) : List (BitVec 64) := (lfind fl x).getD []

/-- The flow table of a router. -/
def flowTable (v : WmView) (r : Nat) : Sparse (BitVec 32) :=
  match v.sliceRec r with
  | none => []
  | some sr =>
    (flowsOf v.flows (fieldNat sr 71 64)).foldl (fun (t : Sparse (BitVec 32)) e =>
      match flowPath sr e with
      | none => t
      | some hs =>
        match hs.find? fun h => h.1 = r with
        | some h => sset 0 t (flowId e) (BitVec.ofNat 32 (1 + 2 * h.2))
        | none => t) []

/-- The words of a table in RT_WRITE bodies of at most 1,014 entries. -/
def tableBodies (t : Nat) (ws : List (BitVec 32)) : List (List Byte) :=
  (chunks 1014 ws).zipIdx.map fun c =>
    leBytes 4 t ++ leBytes 4 (1014 * c.2) ++ c.1.flatMap fun w => leBytes 4 w.toNat

/-- Every RT_WRITE body for a router's inactive bank (R345): no route of a tree is planned by any command, so every tree entry is
invalid (log 49). -/
def routerBodies (p : List Byte) (v : WmView) (r : Nat) : List (List Byte) :=
  let fl := flowTable v r
  tableBodies 0 ((List.range 512).map (destEntry p v r)) ++ tableBodies 1 ((List.range 6).map fun q => BitVec.ofNat 32 (v.portRole p r q))
    ++ tableBodies 2 ((List.range 4096).map (sget 0 fl)) ++ tableBodies 3 (List.replicate 4096 0)

/-! ### Carving (R376 to R382) -/

/-- Refusal reasons (R389). -/
def rjGeometry : Nat := 0x01
def rjMember : Nat := 0x02
def rjTaken : Nat := 0x03
def rjDisconnected : Nat := 0x04
def rjTwin : Nat := 0x05
def rjNoId : Nat := 0x06
def rjChanged : Nat := 0x07
def rjSpare : Nat := 0x08
def rjFormat : Nat := 0x10
def rjRevision : Nat := 0x11
def rjInUse : Nat := 0x12
def rjPath : Nat := 0x20
def rjLocked : Nat := 0x21

/-- The box of a slice keeps to the plan (R376). -/
def boxOk (p : List Byte) (r : BitVec 256) : Bool :=
  (List.range 3).all fun d =>
    let e := planExt p d
    let x := sliceExt r d
    let o := sliceOrg r d
    decide (x ≤ e) && (if e = 8 then decide (o < 8) && (decide (x < 8) || decide (o = 0)) else decide (o + x ≤ e))

/-- A carve as the record of the slice at its second origin (R379). -/
def twinRec (r : BitVec 256) : BitVec 256 :=
  putField (putField (putField (putField r 0 9 (fieldNat r 27 19)) 19 9 (fieldNat r 8 0)) 64 8 (fieldNat r 79 72)) 72 8 (fieldNat r 71 64)

/-- The first condition of R377 that a member fails; 0 none. -/
def memberReason (p : List Byte) (w : WmShared) (sl : List (BitVec 256)) (r : BitVec 256) (m : Nat) : Nat :=
  match planAt p m with
  | none => rjGeometry
  | some i =>
    let pr := positionRow p w i
    let role := recRole (planRec p i)
    let box := sliceBox r
    if planEmpty p i ∨ pr = fMissing ∨ pr = fUnplanned ∨ (w.pos (recEnd (planRec p i))).code ≠ 1 then rjMember
    else if role = 1 ∧ !bitAt r 28 then rjSpare
    else if sl.any (fun x => (sliceBox x).contains m) then rjTaken
    else if (List.range 6).any (fun q => match planPartner p i q with
        | some (j, _) => box.contains (planMod p j) && !linkUsed p w i q
        | none => false) then rjDisconnected
    else 0

/-- The first member at fault of a box, with the reason (R377). -/
def boxReason (p : List Byte) (w : WmShared) (sl : List (BitVec 256)) (r : BitVec 256) : Option (Nat × Nat) :=
  if !boxOk p r then some (rjGeometry, 0)
  else
    (sliceBox r).findSome? fun m =>
      let k := memberReason p w sl r m
      if k = 0 then none else some (k, (planAt p m).getD 0)

/-- The twin conditions of R379: no overlap, and every pair of members joined by pair port, with user none, neither a candidate nor the
holder. -/
def twinReason (p : List Byte) (w : WmShared) (holder : Nat) (r : BitVec 256) : Option (Nat × Nat) :=
  let a := sliceBox r
  let b := sliceBox (twinRec r)
  let wm (i : Nat) : Bool := decide (i = planHdr p 149 140) || decide (i = planHdr p 159 150) || decide (planMod p i = holder)
  let ok (m n : Nat) : Bool :=
    match planAt p m, planAt p n with
    | some i, some j =>
      decide (planFar p i 6 = some (j, 6)) && linkUsed p w i 6 && decide (sget 0 w.users m = 0) && decide (sget 0 w.users n = 0)
        && !wm i && !wm j
    | _, _ => false
  if a.any b.contains then some (rjTwin, (planAt p (a.headD 0)).getD 0)
  else (a.zip b).findSome? fun mn => if ok mn.1 mn.2 then none else some (rjTwin, (planAt p mn.1).getD 0)

/-- A carve refused against the slices that stand (R376 to R379). -/
def carveReason (p : List Byte) (w : WmShared) (holder : Nat) (sl : List (BitVec 256)) (r : BitVec 256) : Option (Nat × Nat) :=
  if bitAt r 18 then
    (boxReason p w sl r).orElse fun _ => (boxReason p w sl (twinRec r)).orElse fun _ => twinReason p w holder r
  else boxReason p w sl r

/-- The lowest free slice ids from 1 to 255 (R380). -/
def freeIds (sl : List (BitVec 256)) : List Nat :=
  ((List.range 256).drop 1).filter fun x => !sl.any fun r => decide (fieldNat r 71 64 = x)

/-- A flow map refused with PATH (R382). -/
def flowsBad (v : WmView) (r : BitVec 256) (es : List (BitVec 64)) : Bool :=
  let paths := es.map fun e => (flowId e, flowPath r e)
  let hops := paths.flatMap fun x => (x.2.getD []).map fun h => (x.1, h)
  paths.any (fun x => x.2.isNone) || hops.any (fun h => !v.links.contains (8 * h.2.1 + h.2.2))
    || hops.any fun h => hops.any fun g => decide (g.1 = h.1 ∧ g.2.1 = h.2.1 ∧ g.2.2 ≠ h.2.2)

/-- A slice's flow map with the entries of a command: those of the flow ids that it names replaced (DESIGN CHOICE, log 50). -/
def mergeFlows (old new : List (BitVec 64)) : List (BitVec 64) := (old.filter fun e => !new.any fun n => decide (flowId n = flowId e)) ++ new

/-- The slices and flow maps after a change. -/
def WmView.after (v : WmView) : WmChange → WmView
  | .carve r tw _ => { v with slices := v.slices ++ r :: tw.toList }
  | .flows x es _ => { v with flows := v.flows.filter (fun f => f.1 ≠ x) ++ [(x, mergeFlows (flowsOf v.flows x) es)] }
  | .free x _ =>
    let tw := ((v.slices.find? fun r => decide (fieldNat r 71 64 = x)).map fun r => fieldNat r 79 72).getD 0
    let goes (y : Nat) : Bool := decide (y = x) || (decide (tw ≠ 0) && decide (y = tw))
    { v with slices := v.slices.filter (fun r => !goes (fieldNat r 71 64)), flows := v.flows.filter fun f => !goes f.1 }

/-- A change refused against a topology that other changes have changed (R380). -/
def changeBad (p : List Byte) (w : WmShared) (holder : Nat) (v : WmView) : WmChange → Bool
  | .carve r _ _ => (carveReason p w holder v.slices r).isSome
  | .flows x es _ =>
    match v.slices.find? fun r => decide (fieldNat r 71 64 = x) with
    | some r => flowsBad v r (mergeFlows (flowsOf v.flows x) es)
    | none => true
  | .free x _ => !v.slices.any fun r => decide (fieldNat r 71 64 = x)

/-- Changes taken in arrival order into a topology: those that stand, those dropped, and the topology with them. -/
def takeChanges (p : List Byte) (w : WmShared) (holder : Nat) (v : WmView) (cs : List WmChange) :
    List WmChange × List WmChange × WmView :=
  cs.foldl (fun (acc : List WmChange × List WmChange × WmView) c =>
    if changeBad p w holder acc.2.2 c then (acc.1, acc.2.1 ++ [c], acc.2.2) else (acc.1 ++ [c], acc.2.1, acc.2.2.after c)) ([], [], v)

end Sys2Proof.Machine
end

