-- ==== Sys2Proof/Machine/Watermaster.lean ====
section
/-! DEFINITION. A management cycle (14 R392): findings (13 R369 to R371), lost members and spares (R383, R385), route versions with the
slice changes they carry (R345 to R351, R378 to R384), rack budgets (R406), and the replies that wait for the copy (R404). -/

namespace Sys2Proof.Config

open Sys2Proof.Machine

/-- The 64-bit digest of the state both members compute, and of a cycle's commands (R402) (DESIGN CHOICE, log 117). -/
opaque wmDigest (w : WmShared) : BitVec 64
opaque wmCmdDigest (cs : List WmCommand) : BitVec 64

/-- The bytes in which COPY carries its inputs, and FULL the plan and the state (R402), with what a receiver reads from the latter. -/
opaque wmInputs (is : List WmInput) : List Byte
opaque wmEncode (plan : Option (List Byte)) (w : WmShared) : List Byte
opaque wmDecode (bytes : List Byte) : Option (Option (List Byte) × WmShared)

end Sys2Proof.Config

namespace Sys2Proof.Machine

/-- The shared state changed. -/
def State.updSh (s : State) (f : WmShared → WmShared) : State := { s with wm := { s.wm with sh := f s.wm.sh } }

/-- The module index of the holder; 1,024 where the plan does not place it. -/
def State.holderIdx (s : State) : Nat := (s.moduleOf s.agent.holder).getD 1024

/-! ### Replies to operators (R386, R387, R404) -/

/-- The header of a reply. -/
def replyHdr (h : BitVec 256) (status reason hi len : Nat) : BitVec 256 :=
  BitVec.ofNat 256 (0x4F4D574B + fieldNat h 39 32 * 2 ^ 32 + 2 ^ 40 + fieldNat h 55 48 * 2 ^ 48 + status % 256 * 2 ^ 56
    + fieldNat h 127 64 * 2 ^ 64 + len % 2 ^ 32 * 2 ^ 128 + reason % 256 * 2 ^ 160 + hi % 2 ^ 24 * 2 ^ 168)

/-- What the device identity key signs (R386). -/
def replyMsg (h : BitVec 256) (payload : List Byte) : List Byte :=
  ascii "KTM8130 reply v1" ++ leBytes 32 h.toNat ++ payload

/-- A reply sent. -/
def State.sendReply (s : State) (h : BitVec 256) (payload : List Byte) : State :=
  { s with wm := { s.wm with opOut := s.wm.opOut ++ [(h, payload, Config.edSign (s.ids.getD {}).ed (replyMsg h payload))] } }

/-- The reply to a command, kept for its key (R387); one that changes state waits for the copy of its cycle (R404). -/
def State.wmReply (s : State) (cmd : BitVec 256) (status reason hi : Nat) (payload : List Byte) (held : Bool) : State :=
  let h := replyHdr cmd status reason hi payload.length
  let s1 := s.updSh fun w => { w with keyReply := sset (0, []) w.keyReply (fieldNat cmd 55 48) (h, payload) }
  if s.wm.role ≠ .active then s1
  else if held then
    { s1 with wm := { s1.wm with replies := s1.wm.replies ++ [{ hdr := h, payload := payload, cycle := s.wm.sh.cycle }] } }
  else s1.sendReply h payload

/-- Status codes of replies (R389). -/
def opOk : Nat := 0x00
def opBad : Nat := 0x01
def opDenied : Nat := 0x02
def opNotActive : Nat := 0x03
def opBusy : Nat := 0x04
def opRefused : Nat := 0x05

/-- Replies of cycles up to c go out. -/
def State.releaseReplies (s : State) (c : Nat) : State :=
  forEach (s.wm.replies.filter fun r => decide (r.cycle ≤ c)) (fun s r => s.sendReply r.hdr r.payload)
    { s with wm := { s.wm with replies := s.wm.replies.filter fun r => decide (c < r.cycle) } }

/-! ### Findings (R369 to R371) -/

/-- The row that matches now at a port; the cycle since which it does. -/
def Position.note (o : Position) (c q code : Nat) : Position :=
  if (sget (0, 0) o.matched q).1 = code then o else { o with matched := sset (0, 0) o.matched q (code, c) }

/-- An end that no record of the plan names. -/
def unlisted (p : List Byte) (e : End) : Bool := (recsOf p).all fun i => decide (recEnd (planRec p i) ≠ e)

/-- Every row of every position and planned cable end: end, port (7 for the position itself), code. -/
def WmShared.rows (w : WmShared) (p : List Byte) : List (Nat × Nat × Nat) :=
  ((recsOf p).flatMap fun i =>
    let e := (recEnd (planRec p i)).toNat
    let pr := positionRow p w i
    let quiet := pr = fMissing || pr = fUnplanned
    let row (q : Nat) : Nat :=
      let k := portRow p w i q
      if quiet ∨ k = rowUnknown ∨ (q ≠ 6 ∧ planAbsent p i q) then 0 else k
    (e, 7, pr) :: (List.range 7).map fun q => (e, q, row q))
  ++ (w.positions.filter fun o => unlisted p (BitVec.ofNat 16 o.1)).map fun o =>
    (o.1, 7, if o.2.code ≠ 0 ∧ w.cycle < o.2.lastSeen + silentFor p then fUnplanned else 0)

/-- The rows noted. -/
def WmShared.judge (w : WmShared) (p : List Byte) : WmShared :=
  { w with positions := forEach (w.rows p) (fun (ps : Sparse Position) n => supd {} ps n.1 fun o => o.note w.cycle n.2.1 n.2.2) w.positions }

/-- Two exchanges of partner records, as cycles (DESIGN CHOICE, log 51). -/
def twoExchanges : Nat := 1000

/-- The finding of a planned cable end. -/
def portFinding (p : List Byte) (w : WmShared) (i q code : Nat) : Finding :=
  let e := recEnd (planRec p i)
  let far := planFar p i q
  let found := if code = fDown ∨ code = fForeign then none
    else match lfind (w.pos e).records q with
      | some r => match prNames p i q r with
        | some (m, pq) => match planAt p m with
          | some j => if planEmpty p j then none else some (j, pq)
          | none => none
        | none => none
      | none => none
  let endOf (x : Option (Nat × Nat)) : End := (x.map fun y => findEnd (recEnd (planRec p y.1)) y.2).getD noEnd
  let cm := ((lfind (w.pos e).records q).map prCm).getD 0
  { code := BitVec.ofNat 8 code, endA := findEnd e q, endB := endOf found, planA := endOf far
    planB := endOf (found.bind fun y => planFar p y.1 y.2)
    planned := BitVec.ofNat 16 (if code = fLength then planLen p i q else if code = fNarrow then 8 else 0)
    found := BitVec.ofNat 16 (if code = fLength then cm else if code = fNarrow then sget 0 (w.pos e).lanes q else 0) }

/-- The finding of a position. -/
def positionFinding (p : List Byte) (w : WmShared) (e : End) (code : Nat) : Finding :=
  let rep := (planFind p e).bind fun i => w.reported p (planMod p i)
  { code := BitVec.ofNat 8 code, endA := findEnd e 7, endB := noEnd, planA := noEnd, planB := noEnd
    planned := BitVec.ofNat 16 (if code = fStale then planRev p else 0)
    found := if code = fStale then Config.planRevOf ((rep.map prDigest).getD 0) else 0 }

/-- What is to be raised: position findings at once, port findings after two exchanges, a cable first from its + end. -/
def WmShared.wants (w : WmShared) (p : List Byte) : List Finding :=
  let atPort (q : Nat) : List Finding := (recsOf p).filterMap fun i =>
    let m := sget (0, 0) (w.pos (recEnd (planRec p i))).matched q
    if m.1 ≠ 0 ∧ m.2 + twoExchanges ≤ w.cycle then some (portFinding p w i q m.1) else none
  (w.positions.filterMap fun o =>
    let m := sget (0, 0) o.2.matched 7
    if m.1 ≠ 0 then some (positionFinding p w (BitVec.ofNat 16 o.1) m.1) else none)
  ++ [0, 2, 4, 1, 3, 5, 6].flatMap atPort

/-- A finding that stands already, at this end or at the other end of the cable. -/
def Finding.same (f g : Finding) : Bool :=
  f.code = g.code && (f.endA = g.endA || (g.endB ≠ noEnd && f.endA = g.endB && f.endB = g.endA)
    || (g.endB = noEnd && g.planA ≠ noEnd && f.endA = g.planA && f.planA = g.endA))

/-- The state with a finding raised (R371): its tick is the start of the cycle. -/
def WmShared.raise (w : WmShared) (f : Finding) : WmShared :=
  if w.findings.any fun g => g.same f then w
  else { w with findings := w.findings ++ [{ f with seen := BitVec.ofNat 64 (100000 * w.cycle) }] }

/-- Findings cleared go into the log of the last 1,024 (R371). -/
def WmShared.clear (w : WmShared) (gone : Finding → Bool) : WmShared :=
  let out := w.findings.filter gone
  { w with findings := w.findings.filter (fun f => !gone f), log := (w.log ++ out).drop (w.log.length + out.length - 1024) }

/-- A finding whose row has been absent for two exchanges. -/
def WmShared.isOver (w : WmShared) (f : Finding) : Bool :=
  let c := f.code.toNat
  let m := sget (0, 0) (w.pos (ofFind f.endA.toNat)).matched (fieldNat f.endA 11 9)
  c ≠ fLost && c ≠ fSpares && decide (m.1 ≠ c) && decide (m.2 + twoExchanges ≤ w.cycle)

/-- A plan in PLAN_PUSH pieces for one agent (R399). -/
def State.pushPlan (s : State) (p : List Byte) (m : Nat) : State :=
  forEach (chunks 4056 p).zipIdx (fun s c => s.wmCommand m 0x0C (leBytes 4 (4056 * c.2) ++ leBytes 4 p.length ++ c.1)) s

/-- The comparison with the plan; a module whose plan is stale is sent it again (R369). -/
def State.compare (s : State) (p : List Byte) : State :=
  let w := s.wm.sh.judge p
  let w1 := w.clear w.isOver
  let w2 := (w1.wants p).foldl WmShared.raise w1
  let stale := (w2.findings.drop w1.findings.length).filter fun f => decide (f.code.toNat = fStale)
  forEach stale (fun s f => match s.moduleOf (ofFind f.endA.toNat) with
    | some m => s.pushPlan p m
    | none => s) (s.updSh fun _ => w2)

/-! ### Lost members and spares (R383, R385) -/

/-- Members of a slice that are missing, out of service or below floor, or cut off from the first that is not (R378). -/
def lostMembers (p : List Byte) (w : WmShared) (r : BitVec 256) : List Nat :=
  let box := sliceBox r
  let bad (m : Nat) : Bool := match planAt p m with
    | some i => let k := positionRow p w i; k = fMissing || k = fUnplanned || k = fState
    | none => true
  let alive := box.filter fun m => !bad m
  let adj (m : Nat) : List Nat := ((w.built.inSlice p m).map (·.2)).filter alive.contains
  let part := match alive with
    | [] => []
    | m :: _ => (layers adj 513 [m] [m]).flatten
  box.filter fun m => bad m || !part.contains m

/-- FENCE_SET and FENCE_CLEAR bodies. -/
def fenceBody (m : Nat) (e : BitVec 16) : List Byte := leBytes 2 m ++ leBytes 2 e.toNat

/-- One lost member: its fence in every router of the slice, MEMBER_LOST, the slice degraded (R383). -/
def State.loseMember (s : State) (r : BitVec 256) (m : Nat) : State :=
  let x := fieldNat r 71 64
  let e : BitVec 16 := BitVec.ofNat 16 (1 + 2 * x)
  if sget (0 : BitVec 16) s.wm.sh.fences m = e then s
  else
    forEach (sliceBox r) (fun s t => s.wmCommand t 0x06 (fenceBody m e)) (s.updSh fun w =>
      ({ w with fences := sset 0 w.fences m e
                slices := w.slices.map fun q => if fieldNat q 71 64 = x then putField q 80 2 1 else q }).raise
        { code := BitVec.ofNat 8 fLost, endA := findEnd (s.endOf m) 7, endB := noEnd, planA := noEnd, planB := noEnd })

/-- The lost members of every slice that a version in force carries. -/
def State.loseMembers (s : State) (p : List Byte) : State :=
  let w := s.wm.sh
  let s1 := forEach w.slices (fun s r => forEach (lostMembers p w r) (fun s m => s.loseMember r m) s) s
  s1.updSh fun w => w.clear fun f => decide (f.code.toNat = fLost) && (match s.moduleOf (ofFind f.endA.toNat) with
    | some m => decide (sget (0 : BitVec 16) w.fences m = 0)
    | none => true)

/-- Spares required for an installation (R385). -/
def sparesNeeded (n : Nat) : Nat := if n ≤ 64 then 1 else if n ≤ 128 then 3 else if n ≤ 256 then 8 else 24

/-- Spares in service: neither the holder nor a candidate of the plan counts. -/
def sparesUp (p : List Byte) (w : WmShared) (holder : Nat) : Nat :=
  ((recsOf p).filter fun i =>
    let k := positionRow p w i
    recRole (planRec p i) = 1 && (k = 0 || k = fStale) && (w.pos (recEnd (planRec p i))).code = 1 && w.built.sliceOf (planMod p i) = 0
      && planMod p i ≠ holder && i ≠ planHdr p 149 140 && i ≠ planHdr p 159 150).length

/-- SPARES_LOW raised or cleared (R385) (DEDUCED, log 140). -/
def State.countSpares (s : State) (p : List Byte) : State :=
  let n := ((recsOf p).filter fun i => !planEmpty p i).length
  if sparesUp p s.wm.sh s.holderIdx < sparesNeeded n then
    s.updSh fun w => w.raise { code := BitVec.ofNat 8 fSpares, endA := noEnd, endB := noEnd, planA := noEnd, planB := noEnd }
  else s.updSh fun w => w.clear fun f => decide (f.code.toNat = fSpares)

/-! ### Route versions (R345 to R351, R378 to R384) -/

/-- The header of the command that asked for a change. -/
def WmChange.hdr : WmChange → BitVec 256
  | .carve _ _ h => h
  | .flows _ _ h => h
  | .free _ h => h

/-- The topology with the slices in force, apart from their state field. -/
def State.view (s : State) (p : List Byte) : WmView :=
  let v := topology p s.wm.sh
  { v with slices := v.slices.map fun r => putField r 80 2 0 }

/-- Agents of modules that stand: those whose routers a version needs (R348). -/
def State.upAgents (s : State) (p : List Byte) : List (Nat × End) :=
  s.agents.filter fun a => match planAt p a.1 with
    | some i => standing p s.wm.sh i
    | none => false

/-- Changes dropped are answered with a reason (R380, R382). -/
def State.dropChanges (s : State) (cs : List WmChange) (reason : Nat) : State :=
  forEach cs (fun s c => s.wmReply c.hdr opRefused reason 0 [] true) s

/-- A version is built: every entry of the inactive bank of every router (R345). -/
def State.build (s : State) (p : List Byte) (v : WmView) (cs : List WmChange) : State :=
  let s1 := s.updSh fun w => { w with
    built := v, building := cs, writing := true, outstanding := w.outstanding.filter fun c => decide (c.type ≠ 0x03) }
  forEach (s1.upAgents p) (fun s a => forEach (routerBodies p v a.1) (fun s b => s.wmCommand a.1 0x03 b) s) s1

/-- The switch tick of a version whose tables are written in a cycle: the first frame boundary after the cycle (DESIGN CHOICE, log 52). -/
def switchTick (cycle : Nat) : Nat := ceilDiv (100000 * cycle + 100000) frameTicks * frameTicks

/-- SLICE_INFO to every member of a slice. -/
def State.tellSlice (s : State) (r : BitVec 256) (info : BitVec 256) : State :=
  forEach (sliceBox r) (fun s m => s.wmCommand m 0x08 (leBytes 32 info.toNat)) s

/-- PAIR_USER to an agent, once per value. -/
def State.setUser (s : State) (m u : Nat) : State :=
  if sget 0 s.wm.sh.users m = u then s
  else (s.updSh fun w => { w with users := sset 0 w.users m u }).wmCommand m 0x09 (leBytes 1 u)

/-- The pair port user of every member of a slice. -/
def State.sliceUsers (s : State) (r : BitVec 256) (u : Nat) : State := forEach (sliceBox r) (fun s m => s.setUser m u) s

/-- A slice leaves: its members are told, its fences cleared, its pair ports free (R384). -/
def State.leaveSlice (s : State) (r : BitVec 256) : State :=
  let box := sliceBox r
  let x := fieldNat r 71 64
  let mine := (s.wm.sh.fences.filter fun e => decide (fieldNat e.2 8 1 = x) && bitAt e.2 0).map (·.1)
  let s1 := s.tellSlice r 0
  let s2 := forEach mine (fun s m => forEach box (fun s t => s.wmCommand t 0x07 (fenceBody m 0)) s) s1
  let s3 := s2.updSh fun w => { w with fences := w.fences.filter fun e => !mine.contains e.1 }
  if fieldNat r 79 72 = 0 then s3 else s3.sliceUsers r 0

/-- A change takes effect at the switch tick of its version, and its command is answered (R380). -/
def State.enact (s : State) (c : WmChange) : State :=
  let v : WmView := { slices := s.wm.sh.slices, flows := s.wm.sh.flows }
  let a := v.after c
  let s1 := s.updSh fun w => { w with slices := a.slices, flows := a.flows }
  match c with
  | .carve r tw h =>
    let s2 := s1.tellSlice r r
    let s3 := match tw with
      | some t => ((s2.tellSlice t t).sliceUsers r 2).sliceUsers t 2
      | none => s2
    s3.wmReply h opOk 0 0 (leBytes 32 r.toNat) true
  | .flows _ _ h => s1.wmReply h opOk 0 0 [] true
  | .free _ h =>
    let gone := v.slices.filter fun r => !a.slices.contains r
    (forEach gone (fun s r => s.leaveSlice r) s1).wmReply h opOk 0 0 [] true

/-- The tables are written: changes that have lost a condition are dropped and the version built without them, else it is switched to
(R346, R380). -/
def State.trySwitch (s : State) (p : List Byte) : State :=
  let w := s.wm.sh
  let up := (s.upAgents p).map (·.1)
  if w.outstanding.any fun c => decide (c.type = 0x03) && up.contains c.agent then s
  else
    let t := takeChanges p w s.holderIdx (s.view p) w.building
    if t.2.1.isEmpty then
      let at_ := switchTick w.cycle
      let v := (w.version + 1) % 65536
      let s1 := s.updSh fun w => { w with writing := false, version := v, tick := some at_, drained := [] }
      forEach (s.upAgents p) (fun s a => s.wmCommand a.1 0x04 (leBytes 2 v ++ leBytes 8 at_)) s1
    else (s.dropChanges t.2.1 rjChanged).build p t.2.2 t.1

/-- After the switch tick: the changes take effect; the census ends when every router that is up has drained (R348). -/
def State.census (s : State) (p : List Byte) : State :=
  let s1 := forEach s.wm.sh.building (fun s c => s.enact c) (s.updSh fun w => { w with building := [], inForce := w.built })
  if (s1.upAgents p).all fun a => s1.wm.sh.drained.contains a.1 then
    (s1.updSh fun w => { w with tick := none, drained := [] }).wmAll 0x05 (leBytes 2 s.wm.sh.version)
  else s1

/-- One cycle's work on route versions: a new one where the topology differs from the one built, or a change waits (R372, R380). -/
def State.versions (s : State) (p : List Byte) : State :=
  let w := s.wm.sh
  if w.writing then s.trySwitch p
  else
    match w.tick with
    | some t => if 100000 * w.cycle < t then s else s.census p
    | none =>
      let r := takeChanges p w s.holderIdx (s.view p) w.changes
      let s1 := (s.updSh fun w => { w with changes := [] }).dropChanges r.2.1 rjChanged
      if r.1.isEmpty ∧ r.2.2 = w.built then s1 else s1.build p r.2.2 r.1

/-! ### Budgets and pair users (R406, R286) -/

/-- The largest level L with the sum of min(d, L) within avail (R406). -/
def level (ds : List Nat) (avail : Nat) : Nat :=
  ((List.range 1301).reverse.find? fun l => decide (sumOf (ds.map (min l)) ≤ avail)).getD 0

/-- The demand of a module in W: a silent one counts at its last share, one that has had none at 1,300 W (DESIGN CHOICE, log 53). -/
def WmShared.demandOf (w : WmShared) (a : Nat × End) : Nat :=
  let o := w.pos a.2
  if o.demandCycle = 0 ∨ o.demandCycle + 10 ≤ w.cycle then sget 1300 w.shares a.1 else o.demand

/-- The modules of a rack in rack budget mode, and their number in per-rail current mode. -/
def State.rackOf (s : State) (rack : Nat) : List (Nat × End) × Nat :=
  let all := s.agents.filter fun a => decide (fieldNat a.2 8 6 = rack)
  let pr := s.wm.sh.perRail
  (all.filter fun a => !pr.contains a.2.toNat, (all.filter fun a => pr.contains a.2.toNat).length)

/-- The shares of one rack (R406), sent as BUDGET in units of 5 W. -/
def State.shareRack (s : State) (rack budget : Nat) : State :=
  let r := s.rackOf rack
  let avail := budget - 1300 * r.2
  let ds := r.1.map s.wm.sh.demandOf
  let total := sumOf ds
  let lv := level ds avail
  let share (d : Nat) : Nat := if total ≤ avail then min 1300 (d + (avail - total) / r.1.length) else min d lv
  forEach (r.1.zip ds) (fun s a =>
    let u := share a.2 / 5
    (s.updSh fun w => { w with shares := sset 1300 w.shares a.1.1 (5 * u) }).wmCommand a.1.1 0x0B (leBytes 2 u)) s

/-- Every 10 cycles each rack that has a budget is shared (R406). -/
def State.shareBudgets (s : State) : State :=
  if s.wm.sh.cycle % 10 ≠ 0 then s else forEach s.wm.sh.budgets (fun s b => s.shareRack b.1 b.2) s

/-- The pair ports of the candidates serve the pair (R286). -/
def State.pairUsers (s : State) : State :=
  forEach (s.candidates.filterMap s.moduleOf) (fun s m => if sget 0 s.wm.sh.users m = 0 then s.setUser m 1 else s) s

/-! ### The cycle (R392, R394, R396, R398) -/

/-- The holder may hold the role: the plan held names it, or the members keep their role under it (R390). -/
def State.mayHold (s : State) : Bool := s.candidates.contains s.ownEnd || s.wm.sh.keepsRole

/-- LEASE_RENEW to every agent, in every fifth cycle; an update that gives up the role stops it (R25 note k), and so does a plan under
which the holder may not hold it (R390) (DESIGN CHOICE, log 190). -/
def State.renew (s : State) : State :=
  let c := s.wm.sh.cycle
  if s.wm.role = .active ∧ c % 5 = 0 ∧ !s.fw.pauseWait ∧ s.mayHold then
    let body := leBytes 8 c
    forEach s.agents (fun s a => s.sendEnv a.2 (envelope 0x01 0 false 0 s.wm.epoch 0 body) body) s
  else s

/-- The take goes again to every agent that has not accepted it (R398) (DESIGN CHOICE, log 142). -/
def State.retake (s : State) : State :=
  if s.wm.role = .active then
    let body := leBytes 8 s.wm.sh.cycle
    forEach s.wm.sh.untaken (fun s m => s.sendEnv (s.endOf m) (envelope 0x02 0 false 0 s.wm.epoch 0 body) body) s
  else s

/-- Commands answered BUSY go again (R394). -/
def State.commandAgain (s : State) : State :=
  let cs := s.wm.sh.outstanding.filter (·.again)
  forEach cs (fun s c => s.wmCommand c.agent c.type.toNat c.body) (s.updSh fun w => { w with outstanding := w.outstanding.filter fun c => !c.again })

/-- Cycle c computed from the state after the cycle before it with its inputs (R392). A new active waits for its answers first (R404). -/
def State.runCycle (s : State) (c : Nat) : State :=
  let s0 := (s.updSh fun w => { w with cycle := c }).retake
  let s1 := match s.flash.plan with
    | none => s0
    | some p =>
      if s.wm.queryWait.isSome then s0
      else ((((((s0.commandAgain).compare p).loseMembers p).countSpares p).versions p).pairUsers).shareBudgets
  let s2 := s1.renew
  { s2 with wm := { s2.wm with prevDigest := s2.wm.digest, digest := Config.wmDigest s2.wm.sh, inputs := [] } }

/-- The head of a COPY message: cycle, epoch, digests (R402). -/
def State.copyHead (s : State) : List Byte :=
  let cs := s.wm.sh.outstanding.filter fun c => decide (c.cycle = s.wm.sh.cycle)
  leBytes 8 s.wm.sh.cycle ++ leBytes 4 s.wm.epoch ++ leBytes 8 s.wm.digest.toNat ++ leBytes 8 (Config.wmCmdDigest cs).toNat

/-- The COPY of the cycle that ends, in messages of at most 4,096 bytes. -/
def State.sendCopy (s : State) : State :=
  let cs := chunks 4068 (Config.wmInputs s.wm.inputs)
  forEach (if cs.isEmpty then [[]] else cs) (fun s c => s.pairMsg 0x01 (s.copyHead ++ c)) s

/-- The whole state in FULL pieces (R402, R403). -/
def State.sendFull (s : State) : State :=
  let cs := chunks 4080 (Config.wmEncode s.flash.plan s.wm.sh)
  forEach cs.zipIdx (fun s c => s.pairMsg 0x04 (leBytes 8 s.wm.sh.cycle ++ leBytes 4 c.2 ++ leBytes 4 cs.length ++ c.1)) s

/-- The pair link carries the pair. -/
def State.pairLive (s : State) : Bool := s.fab.pairUser = 1 && s.fab.pairUp

/-- A standby leaves SYNCED or COASTING (R401, R403): DETACH, and JOIN at once unless three detaches within 600 s hold it. -/
def State.detach (s : State) (cause : Nat) : State :=
  let c := s.wm.sh.cycle
  let ds := (s.wm.sh.detaches.filter fun d => decide (c < d + 600000)) ++ [c]
  let hold := decide (3 ≤ ds.length)
  let s1 := (s.updSh fun w => { w with detaches := ds, stayDetached := hold }).pairMsg 0x05 (leBytes 1 cause)
  let s2 : State := { s1 with wm := { s1.wm with
    role := if hold then .detached else .joining, fullParts := [], copied := [], copyCycle := none, coasts := 0, inputs := [] } }
  if hold then s2 else s2.pairMsg 0x03 []

/-- The active ends a cycle and computes the next: COPY, replies that no standby holds back, then a FULL copy if it is asked for. -/
def State.activeCycle (s : State) (c : Nat) : State :=
  let s0 := s.sendCopy
  let s1 : State := if s0.pairLive then s0 else { s0 with wm := { s0.wm with standby := false } }
  let s2 := (if s1.wm.standby then s1 else s1.releaseReplies s1.wm.sh.cycle).runCycle c
  if s2.wm.joinAsked ∧ s2.pairLive then
    let s3 := s2.sendFull
    { s3 with wm := { s3.wm with joinAsked := false, standby := true } }
  else s2

end Sys2Proof.Machine
end

