-- ==== Sys2Proof/Machine/Operator.lean ====
section
/-! DEFINITION. Operator commands (13 R366, R367, R374, R375, R386 to R389; 15 R437) and the inputs of a management cycle as a member
takes them (14 R392). h is the header of a command, b its payload. -/

namespace Sys2Proof.Machine

/-! ### Headers (R386) -/

def ohCode (h : BitVec 256) : Nat := fieldNat h 39 32
def ohKey (h : BitVec 256) : Nat := fieldNat h 55 48
def ohSeq (h : BitVec 256) : Nat := fieldNat h 127 64

/-- A header without magic, with a reserved field, a reply's fields, an unknown code, or a wrong or too great a length (R386, R389). -/
def ohBad (h : BitVec 256) (b : List Byte) : Bool :=
  decide (fieldNat h 31 0 ≠ 0x4F4D574B) || decide (fieldNat h 47 40 ≠ 0) || decide (fieldNat h 63 56 ≠ 0)
    || decide (fieldNat h 159 128 ≠ b.length) || decide (fieldNat h 255 160 ≠ 0) || decide (1048576 < b.length)
    || ohCode h = 0 || decide (0x0F < ohCode h)

/-- A 32-bit payload word. -/
def word32 (b : List Byte) (i : Nat) : Nat := bytesNat b (4 * i) 4

/-- The signature over header and payload verifies under an operator key of a plan (R386). -/
def signedBy (p : List Byte) (h : BitVec 256) (b : List Byte) (sig : BitVec 512) : Bool :=
  decide (ohKey h < planKeys p) && Config.edVerify (planKey p (ohKey h)) (leBytes 32 h.toNat ++ b) sig

/-- A payload of the right form for its code (R388). -/
def payloadOk (h : BitVec 256) (b : List Byte) : Bool :=
  let none_ := b.isEmpty
  let one := decide (b.length = 4)
  let v := word32 b 0
  match ohCode h with
  | 0x01 => !none_
  | 0x03 => one
  | 0x05 => one
  | 0x06 => decide (b.length = 32) && decide (v / 2 ^ 29 = 0) && decide (bytesNat b 8 24 = 0)
  | 0x07 => decide (4 ≤ b.length) && decide (b.length % 8 = 4) && decide (b.length ≤ 4 + 8 * 4096) && decide (v / 2 ^ 8 = 0)
  | 0x08 => one && decide (v / 2 ^ 9 = 0)
  | 0x0A => one && decide (v / 2 ^ 12 = 0)
  | 0x0B => one && decide (v / 2 ^ 12 = 0)
  | 0x0C => one && decide (v / 2 ^ 18 = 0) && decide (v / 2 ^ 12 % 2 ^ 4 = 0) && decide (v / 2 ^ 16 < 2)
  | 0x0D => one && decide (v / 2 ^ 12 = 0)
  | 0x0F => decide (b.length = 32) && (List.range 8).all fun i => decide (word32 b i / 2 ^ 24 = 0)
  | _ => none_

/-! ### Answers -/

/-- The seq of a key's command is accepted (R387). -/
def State.accept (s : State) (h : BitVec 256) : State := s.updSh fun w => { w with keySeq := sset 0 w.keySeq (ohKey h) (ohSeq h) }

/-- An answer that changes nothing, given at once and kept for the key. -/
def State.answer (s : State) (h : BitVec 256) (status reason hi : Nat) (b : List Byte) : State :=
  (s.accept h).wmReply h status reason hi b false

/-- OK for a command that has changed state (R404). -/
def State.done (s : State) (h : BitVec 256) (b : List Byte) : State := (s.accept h).wmReply h opOk 0 0 b true

/-- BUSY: the command is not accepted, and may be sent again. -/
def State.busy (s : State) (h : BitVec 256) : State :=
  if s.wm.role = .active then s.sendReply (replyHdr h opBusy 0 0 0) [] else s

/-- A reply outside the kept ones. -/
def State.opSay (s : State) (h : BitVec 256) (status reason hi : Nat) : State := s.sendReply (replyHdr h status reason hi 0) []

/-! ### Plans (R364, R366, R367, R374) -/

/-- A slice change waits for its route version (R367). -/
def WmShared.changing (w : WmShared) : Bool := !w.changes.isEmpty || !w.building.isEmpty

/-- A member of a slice would stand elsewhere or nowhere under a new plan (R367). -/
def inUse (w : WmShared) (old new : List Byte) : Bool :=
  (w.slices.flatMap sliceBox).any fun m =>
    match planAt old m, planAt new m with
    | some i, some j => planEmpty new j || decide (recEnd (planRec old i) ≠ recEnd (planRec new j))
    | _, _ => true

/-- A plan that names a member of a twin slice as a candidate (R390). -/
def WmShared.namesTwin (w : WmShared) (p : List Byte) : Bool :=
  [planHdr p 149 140, planHdr p 159 150].any fun i =>
    w.slices.any fun r => decide (fieldNat r 79 72 ≠ 0) && (sliceBox r).contains (planMod p i)

/-- A plan accepted by the active (R366): it is held, sent to every agent, and governs from the next cycle. Command sequences stay with the
ends; an end that is new has no lease yet, and counts as heard now. -/
def State.takePlan (s : State) (p : List Byte) : State :=
  let old := s.agents
  let oldIdx (e : End) : Option Nat := (old.find? fun a => decide (a.2 = e)).map (·.1)
  let new := planAgents p
  let s1 := (s.putPlan p).updSh fun w => { w with
    keepsRole := w.keepsRole || w.namesTwin p
    seqs := forEach new (fun (t : Sparse Nat) a => match oldIdx a.2 with
      | some m => sset 0 t a.1 (sget 0 w.seqs m)
      | none => t) []
    untaken := (new.filter fun a => match oldIdx a.2 with
      | some m => w.untaken.contains m
      | none => true).map (·.1)
    positions := forEach new (fun (ps : Sparse Position) a => if (sget {} ps a.2.toNat).lastSeen = 0 then
      supd {} ps a.2.toNat fun o => { o with lastSeen := w.cycle } else ps) w.positions }
  forEach new (fun s a => s.pushPlan p a.1) s1

/-- Why a plan is refused by a holder of another (R364, R366, R367): the reason, or BUSY. -/
def State.planReason (s : State) (p : List Byte) : Option Nat :=
  if !planOk p then some rjFormat
  else if !s.newer p then some rjRevision
  else
    match s.flash.plan with
    | some q => if inUse s.wm.sh q p then some rjInUse else none
    | none => none

/-- A plan as header, records and keys, so that they can be edited. -/
def planBytes (h : BitVec 1024) (rs : List (BitVec 256)) (keys : List Byte) : List Byte :=
  leBytes 128 h.toNat ++ rs.flatMap (fun r => leBytes 32 r.toNat) ++ keys

/-- Every trained port of a module that stands at an empty position joins the neighbour planned for that position (R374). -/
def fitsEmpty (p : List Byte) (w : WmShared) (i : Nat) : Bool :=
  let o := w.pos (recEnd (planRec p i))
  let port (q : Nat) : Bool :=
    sget 0 o.lanes q = 0 || (match lfind o.records q, beyond p (planMod p i) q with
      | some r, some n => prGood r && prValid r && decide (prIdx r = n) && decide (prPort r = if q % 2 = 0 then q + 1 else q - 1)
      | _, _ => false)
  (List.range 6).all port

/-- The record and port that describe a cable: the + end, or the pair port (R363). -/
def cableOwner (p : List Byte) (i q : Nat) : Option (Nat × Nat) :=
  if q = 6 then some (i, 6) else if q % 2 = 0 then some (i, q / 2) else (planMinus p i (q / 2)).map fun j => (j, q / 2)

/-- A finding recorded in the records of a plan (R374). -/
def acceptFinding (p : List Byte) (w : WmShared) (rs : List (BitVec 256)) (f : Finding) : List (BitVec 256) :=
  let c := f.code.toNat
  let q := fieldNat f.endA 11 9
  match firstFrom (fun i => decide (recEnd (planRec p i) = ofFind f.endA.toNat)) (planCount p) 0 with
  | none => rs
  | some i =>
    let serial := ((w.reported p (planMod p i)).map prSerial).getD 0
    if c = fMissing then rs.modify i fun r => putField r 0 2 2
    else if c = fUnplanned then
      if !planEmpty p i then rs.modify i fun r => putField r 64 128 serial
      else if fitsEmpty p w i then
        let cm (q : Nat) : Nat := ((lfind (w.pos (recEnd (planRec p i))).records q).map prCm).getD 0
        let r1 := rs.modify i fun r => putField (putField r 0 2 0) 64 128 serial
        (List.range 6).foldl (fun (rs : List (BitVec 256)) q => match cableOwner p i q with
          | some (j, d) => rs.modify j fun r =>
              if fieldNat r (25 + 10 * d) (16 + 10 * d) = 0 then putField r (16 + 10 * d) 10 (min 200 (cm q)) else r
          | none => rs) r1
      else rs
    else if c = fLength then
      match cableOwner p i q with
      | some (j, d) =>
        if d = 6 then
          (rs.modify j fun r => putField r 192 10 f.found.toNat).modify ((planPair p j).getD j) fun r => putField r 192 10 f.found.toNat
        else rs.modify j fun r => putField r (16 + 10 * d) 10 f.found.toNat
      | none => rs
    else if c = fSwapped ∨ c = fMiswired ∨ c = fForeign ∨ c = fDown ∨ c = fUnplannedLink then
      match cableOwner p i q with
      | some (j, d) =>
        if d = 6 then
          (rs.modify j fun r => putField r 56 1 0).modify ((planPair p j).getD j) fun r => putField r 56 1 0
        else rs.modify j fun r => putField r (12 + d) 1 1
      | none => rs
    else rs

/-- The plan with the current findings recorded. A finding whose change would make a plan that R364 refuses is left out (DESIGN CHOICE,
log 55). -/
def acceptedPlan (p : List Byte) (w : WmShared) : List Byte :=
  let h : BitVec 1024 := putField (BitVec.ofNat 1024 (bytesNat p 0 128)) 64 32 ((planRev p + 1) % 2 ^ 32)
  let keys := p.drop (128 + 32 * planCount p)
  let rs := w.findings.foldl (fun (rs : List (BitVec 256)) f =>
    let n := acceptFinding p w rs f
    if planOk (planBytes h n keys) then n else rs) ((recsOf p).map (planRec p))
  planBytes h rs keys

/-! ### Records given to operators (R371, R375, R411) -/

/-- A finding as its 32 bytes (R371). -/
def findingBytes (f : Finding) (current : Bool) : List Byte :=
  leBytes 32 (f.code.toNat + current.toNat * 2 ^ 8 + f.endA.toNat * 2 ^ 16 + f.endB.toNat * 2 ^ 32 + f.planA.toNat * 2 ^ 48
    + f.planB.toNat * 2 ^ 64 + f.planned.toNat * 2 ^ 80 + f.found.toNat * 2 ^ 96 + f.seen.toNat * 2 ^ 112)

/-- The standby that a module knows of: on the active the other candidate that holds the state, on a standby the module itself. -/
def State.standbyEnd (s : State) : Option End :=
  match s.wm.role with
  | .active => if s.wm.standby then s.candidates.find? fun e => decide (e ≠ s.ownEnd) else none
  | .none => none
  | _ => some s.ownEnd

/-- A position record as its 64 bytes (R375); i is the record of the plan that has the end. The
last stage report is where the database shows a module's bad channels and capacity (R135): R375 gives it no field of their own
(DEDUCED, log 174). -/
def State.positionBytes (s : State) (p : List Byte) (e : End) (i : Option Nat) : List Byte :=
  let w := s.wm.sh
  let o := w.pos e
  let v := w.inForce
  let m := (i.map (planMod p)).getD 1024
  let rep := (i.map fun i => w.reported p (planMod p i)).join
  let c := (i.map (planXYZ p)).getD (0, 0, 0)
  let row := match i with
    | some i => positionRow p w i
    | none => fUnplanned
  let role := (i.map fun i => recRole (planRec p i)).getD 3
  let wm := if e = s.agent.holder ∧ s.leaseLive then 1 else if s.standbyEnd = some e then 2 else 0
  let slice := ((w.slices.find? fun r => (sliceBox r).contains m).map fun r => fieldNat r 71 64).getD 0
  let port (q : Nat) : Nat :=
    sget 0 o.lanes q % 16 + (if q < 6 then v.portRole p m q else 0) * 2 ^ 4 + ((lfind o.records q).map prCm).getD 0 * 2 ^ 6
  leBytes 64 (role + fieldNat e 8 6 * 2 ^ 2 + fieldNat e 5 0 * 2 ^ 5 + c.1 * 2 ^ 11 + c.2.1 * 2 ^ 14 + c.2.2 * 2 ^ 17
    + (decide (row = fMissing)).toNat * 2 ^ 20 + (decide (row = fUnplanned)).toNat * 2 ^ 21 + wm * 2 ^ 22 + o.code.toNat * 2 ^ 24
    + slice * 2 ^ 32 + (rep.map prSerial).getD 0 * 2 ^ 64 + (rep.map prFw).getD 0 * 2 ^ 192 + o.stage.toNat * 2 ^ 224
    + sumOf ((List.range 7).map fun q => port q * 2 ^ (256 + 16 * q)))

/-- Every position record (R375). -/
def State.topoBytes (s : State) : List Byte :=
  match s.flash.plan with
  | none => []
  | some p =>
    ((recsOf p).flatMap fun i => s.positionBytes p (recEnd (planRec p i)) (some i))
      ++ (s.wm.sh.positions.filter fun o => unlisted p (BitVec.ofNat 16 o.1)).flatMap fun o =>
        s.positionBytes p (BitVec.ofNat 16 o.1) none

/-- The active that a module knows of (R387). -/
def State.activeEnd (s : State) : End := if s.leaseLive then findEnd s.agent.holder 7 else noEnd

/-- The WM_STATUS payload (R411). -/
def State.wmStatus (s : State) : List Byte :=
  let sb := match s.wm.role with
    | .active => if s.wm.standby then 2 else 0
    | .none => 0
    | .joining => 1
    | .synced => 2
    | .coasting => 3
    | .detached => 4
  leBytes 32 (s.agent.epoch.toNat + s.activeEnd.toNat * 2 ^ 32 + ((s.standbyEnd.map fun e => findEnd e 7).getD noEnd).toNat * 2 ^ 48
    + sb * 2 ^ 64 + cap 8 (s.wm.sh.detaches.filter fun d => decide (s.cycleNow < d + 600000)).length * 2 ^ 72
    + s.cycleNow % 2 ^ 64 * 2 ^ 80)

/-- The BUDGET_SET reply payload (R437). -/
def State.budgetBytes (s : State) : List Byte :=
  (List.range 8).flatMap fun r =>
    let m := s.rackOf r
    let d := sumOf ((s.agents.filter fun a => decide (fieldNat a.2 8 6 = r)).map fun a => (s.wm.sh.pos a.2).demand)
    leBytes 8 (sget 0 s.wm.sh.budgets r % 2 ^ 24 + d % 2 ^ 24 * 2 ^ 24 + m.1.length % 128 * 2 ^ 48 + m.2 % 128 * 2 ^ 55)

/-! ### Execution -/

/-- Clearing a latched out-of-service state (R463): the event record is erased, ALERT 0x03 stops, bring-up goes on from stage 8. -/
def State.clearLatch (s : State) : State :=
  if s.flash.oosLatched then
    (({ s with
      flash := { s.flash with oosLatched := false, events := [] }
      boot := if s.boot.heldLatch then { s.boot with heldLatch := false, stage := 8, phase := .pending, ended := false } else s.boot }).alertOff 0x03).announce s
  else s

/-- The module index of the end in a payload word. -/
def State.endIdx (s : State) (v : Nat) : Option Nat := s.moduleOf (ofFind v)

/-- The topology as the changes accepted before have changed it (R380). -/
def State.viewAhead (s : State) (p : List Byte) : WmView := (s.wm.sh.building ++ s.wm.sh.changes).foldl WmView.after (s.view p)

/-- A change waits for its version; at most 16 wait (R380). -/
def State.queueChange (s : State) (h : BitVec 256) (c : WmChange) : State :=
  (s.accept h).updSh fun w => { w with changes := w.changes ++ [c] }

def State.opCarve (s : State) (p : List Byte) (h : BitVec 256) (b : List Byte) : State :=
  let r : BitVec 256 := BitVec.ofNat 256 (leNat b)
  let v := s.viewAhead p
  match carveReason p s.wm.sh s.holderIdx v.slices r with
  | some (k, i) => s.answer h opRefused k i []
  | none =>
    match freeIds v.slices, bitAt r 18 with
    | x :: _, false => s.queueChange h (.carve (putField r 64 8 x) none h)
    | x :: y :: _, true =>
      let r1 := putField (putField r 64 8 x) 72 8 y
      s.queueChange h (.carve r1 (some (twinRec r1)) h)
    | _, _ => s.answer h opRefused rjNoId 0 []

def State.opFlows (s : State) (p : List Byte) (h : BitVec 256) (b : List Byte) : State :=
  let x := word32 b 0
  let es : List (BitVec 64) := (List.range ((b.length - 4) / 8)).map fun k => BitVec.ofNat 64 (bytesNat b (4 + 8 * k) 8)
  let v := s.viewAhead p
  match v.slices.find? fun r => decide (fieldNat r 71 64 = x) with
  | none => s.answer h opBad 0 0 []
  | some r =>
    if es.any flowReserved then s.answer h opBad 0 0 []
    else if flowsBad v r (mergeFlows (flowsOf v.flows x) es) then s.answer h opRefused rjPath 0 []
    else s.queueChange h (.flows x es h)

/-- A member holds a context of a slice; a member knows of its own module only (log 56). -/
def State.holdsSlice (s : State) (x : Nat) : Bool := s.ctxs.any fun e => e.2.live && decide (e.2.slice.toNat = x)

def State.opFree (s : State) (p : List Byte) (h : BitVec 256) (b : List Byte) : State :=
  let x := word32 b 0 % 2 ^ 8
  let force := bitAt (BitVec.ofNat 32 (word32 b 0)) 8
  let v := s.viewAhead p
  let goes (r : BitVec 256) : Bool := decide (fieldNat r 71 64 = x) || (decide (fieldNat r 79 72 = x) && decide (x ≠ 0))
  if !v.slices.any fun r => decide (fieldNat r 71 64 = x) then s.answer h opBad 0 0 []
  else if !force ∧ s.holdsSlice x then s.busy h
  else
    let s1 := s.queueChange h (.free x h)
    let s2 := s1.updSh fun w => { w with slices := w.slices.map fun r => if goes r then putField r 80 2 2 else r }
    if force then forEach (s2.wm.sh.slices.filter goes) (fun s r => s.tellSlice r 0) s2 else s2

/-- A command that changes the slices, where fewer than 16 changes wait. -/
def State.opChange (s : State) (h : BitVec 256) (f : List Byte → State) : State :=
  match s.flash.plan with
  | none => s.answer h opBad 0 0 []
  | some p => if 16 ≤ s.wm.sh.changes.length then s.busy h else f p

/-- An accepted operator command (R387, R388) as both members execute it. -/
def State.opExec (s : State) (h : BitVec 256) (b : List Byte) : State :=
  if !payloadOk h b then s.answer h opBad 0 0 []
  else
    let at_ (f : Nat → State) : State := match s.endIdx (word32 b 0) with
      | some m => f m
      | none => s.answer h opBad 0 0 []
    match ohCode h with
    | 0x01 =>
      if s.wm.sh.changing then s.busy h
      else
        match s.planReason b with
        | some k => s.answer h opRefused k 0 []
        | none => (s.takePlan b).done h []
    | 0x02 => s.answer h opOk 0 0 (s.flash.plan.getD [])
    | 0x03 =>
      match s.flash.plan with
      | none => s.answer h opRefused rjRevision 0 []
      | some p =>
        if word32 b 0 ≠ planRev p then s.answer h opRefused rjRevision 0 []
        else if s.wm.sh.changing then s.busy h
        else
          let q := acceptedPlan p s.wm.sh
          (s.takePlan q).done h q
    | 0x04 => s.answer h opOk 0 0 s.topoBytes
    | 0x05 => s.answer h opOk 0 0 ((s.wm.sh.findings.flatMap fun f => findingBytes f true)
        ++ (s.wm.sh.log.drop (word32 b 0)).flatMap fun f => findingBytes f false)
    | 0x06 => s.opChange h fun p => s.opCarve p h b
    | 0x07 => s.opChange h fun p => s.opFlows p h b
    | 0x08 => s.opChange h fun p => s.opFree p h b
    | 0x09 => s.answer h opOk 0 0 (s.wm.sh.slices.flatMap fun r => leBytes 32 r.toNat)
    | 0x0A => at_ fun m =>
      let e := s.endOf m
      let s1 := s.updSh fun w => { w with stayDetached := false, detaches := [] }
      let s2 := if e = s.ownEnd then s1.clearLatch
        else if s.wm.role = .active then s1.towMessage e (leBytes 32 h.toNat ++ b) else s1
      s2.done h []
    | 0x0B => at_ fun m =>
      let q := word32 b 0 / 2 ^ 9 % 8
      if q = 7 then s.answer h opBad 0 0 [] else (s.wmCommand m 0x0A (leBytes 1 q)).done h []
    | 0x0C => at_ fun m =>
      (if s.wm.role = .active then s.towCommand 0x06 (s.endOf m) (s.wm.epoch % 2 ^ 32 + word32 b 0 / 2 ^ 16 * 2 ^ 32) else s).done h []
    | 0x0D => at_ fun m =>
      (if s.wm.role = .active then s.towCommand 0x05 (s.endOf m) (s.wm.epoch % 2 ^ 32) else s).done h []
    | 0x0E => s.answer h opOk 0 0 s.wmStatus
    | 0x0F =>
      let s1 := s.updSh fun w => { w with budgets := (List.range 8).foldl (fun (t : Sparse Nat) r =>
        if word32 b r = 0 then t else sset 0 t r (word32 b r)) w.budgets }
      s1.done h s1.budgetBytes
    | _ => s.answer h opBad 0 0 []

/-! ### Inputs (R392) -/

/-- A PARTNER report (R368): the record and lanes at its port; the module that the record names is heard, with its state code. -/
def WmShared.notePartner (w : WmShared) (plan : Option (List Byte)) (e : End) (r : BitVec 1024) (q lanes : Nat) : WmShared :=
  let w1 := { w with positions := supd {} w.positions e.toNat fun o =>
    { o with records := sset 0 o.records q r, lanes := sset 0 o.lanes q lanes } }
  match plan with
  | none => w1
  | some p =>
    match (planFind p e).bind fun i => prNames p i q r with
    | some (m, _) =>
      if prGood r ∧ lanes ≠ 0 then
        match planAt p m with
        | some j => { w1 with positions := supd {} w1.positions (recEnd (planRec p j)).toNat fun o =>
            { o with code := BitVec.ofNat 8 (prState r), lastSeen := w.cycle } }
        | none => w1
      else w1
    | none => w1

/-- An agent's answer to a command that a member has outstanding: BUSY and a locked flow are tried again, every other answer ends it. A
locked flow drops the flow changes of the version being written (R382, R394); BAD to RT_SWITCH leaves the agent without the version, so
that it holds none of its packets (DEDUCED, log 57). -/
def State.noteAnswer (s : State) (m result seq : Nat) : State :=
  let w := s.wm.sh
  if seq = 0 then (if result = arOk then s.wmTaken m else s)
  else
    match w.outstanding.find? fun c => decide (c.agent = m ∧ c.seq = seq) with
    | none => s
    | some c =>
      let rest := w.outstanding.erase c
      let s1 := s.updSh fun w => { w with outstanding := rest }
      if result = arBusy then s.updSh fun w => { w with outstanding := rest ++ [{ c with again := true }] }
      else if result = arLocked then
        let fl (x : WmChange) : Bool := match x with
          | .flows _ _ _ => true
          | _ => false
        match s.flash.plan with
        | some p =>
          if w.writing ∧ w.building.any fl then
            let t := takeChanges p w s.holderIdx (s.view p) (w.building.filter fun x => !fl x)
            ((s1.dropChanges (w.building.filter fl) rjLocked).dropChanges t.2.1 rjChanged).build p t.2.2 t.1
          else s.updSh fun w => { w with outstanding := rest ++ [{ c with again := true }] }
        | none => s1
      else if result = arBad ∧ c.type = 0x04 then s1.updSh fun w => { w with drained := (m :: w.drained).eraseDups }
      else s1

/-- A command executed from the standby's copy that differed: the active's own goes again (R401). -/
def State.noteMismatch (s : State) (m seq : Nat) (byStandby : Bool) : State :=
  if !byStandby then s
  else
    match s.wm.sh.outstanding.find? fun c => decide (c.agent = m ∧ c.seq = seq) with
    | none => s
    | some c => (s.updSh fun w => { w with outstanding := w.outstanding.erase c }).wmCommand m c.type.toNat c.body

/-- One input of a management cycle (R392). -/
def State.wmApply (s : State) : WmInput → State
  | .partner e r q l => s.updSh fun w => w.notePartner s.flash.plan e r q.val l.toNat
  | .drained m v => s.updSh fun w => if v.toNat = w.version ∧ w.tick.isSome then { w with drained := (m.val :: w.drained).eraseDups } else w
  | .mismatch m q sb => s.noteMismatch m q.toNat sb
  | .state e c st d pr => s.updSh fun w => { w with
      perRail := (w.perRail.filter fun x => decide (x ≠ e.toNat)) ++ (if pr then [e.toNat] else [])
      positions := supd {} w.positions e.toNat fun o => { o with code := c, stage := st, demand := 5 * d.toNat, demandCycle := w.cycle } }
  | .path e _ q l => s.updSh fun w => { w with positions := supd {} w.positions e.toNat fun o => { o with lanes := sset 0 o.lanes q.val l.toNat } }
  | .present e c st => s.updSh fun w => w.notePresent e c st
  | .operator h b => s.opExec h b
  | .answer m r q => s.noteAnswer m r.toNat q.toNat

/-- An input as it comes in: the active applies it and lists it for its COPY; a standby keeps it for a cycle in which it coasts. -/
def State.wmTake (s : State) (i : WmInput) : State :=
  match s.wm.role with
  | .active =>
    let s1 := s.wmApply i
    { s1 with wm := { s1.wm with inputs := s1.wm.inputs ++ [i] } }
  | .none => s
  | .detached => s
  | _ => { s with wm := { s.wm with inputs := s.wm.inputs ++ [i] } }

/-! ### Operator rows (R386 to R389) -/

/-- A signed plan taken by a module that is not the active (R366), passed on in WM frames while no Watermaster is active. -/
def State.passPlan (s : State) (h : BitVec 256) (b : List Byte) (sig : BitVec 512) : State :=
  forEach (chunks 4096 (leBytes 32 h.toNat ++ b ++ leBytes 64 sig.toNat)) (fun s c => s.towMessage noEnd c) (s.putPlan b)

/-- A command at a module that is not the active (R366, R387): PLAN_LOAD where it holds no plan, and WM_STATUS; with no live lease a
PLAN_LOAD signed under the plan held is taken as well (DEDUCED, log 58). -/
def State.opElsewhere (s : State) (h : BitVec 256) (b : List Byte) (sig : BitVec 512) : State :=
  let no := s.opSay h opNotActive 0 s.activeEnd.toNat
  match ohCode h, s.flash.plan with
  | 0x01, none =>
    if !planOk b then s.opSay h opRefused rjFormat 0
    else if !signedBy b h b sig then s.opSay h opDenied 0x01 0
    else (if s.leaseLive then s.putPlan b else s.passPlan h b sig).opSay h opOk 0 0
  | 0x01, some p =>
    if !s.leaseLive ∧ planOk b ∧ s.newer b ∧ signedBy p h b sig then (s.passPlan h b sig).opSay h opNotActive 0 noEnd.toNat else no
  | 0x0E, some p => if signedBy p h b sig then s.sendReply (replyHdr h opOk 0 0 32) s.wmStatus else s.opSay h opDenied 0x01 0
  | 0x0E, none => s.opSay h opDenied 0x01 0
  | _, _ => no

/-- A command received for the Watermaster: of the known codes the row acts on its own alone; an unknown one is answered BAD_COMMAND. In the pause of an update the management complex answers
nothing (R530), nor before stage 2 has derived the keys that sign a reply (R386, R500) (DEDUCED, log 194). -/
def State.opRow (s : State) (code : Nat) (h : BitVec 256) (b : List Byte) (sig : BitVec 512) : State :=
  if !s.agentUp ∨ s.ids.isNone ∨ s.rst.warm ∨ s.hst.paused ∨ (ohCode h ≠ code ∧ 1 ≤ ohCode h ∧ ohCode h ≤ 0x0F) then s
  else if ohBad h b then s.opSay h opBad 0 0
  else if s.wm.role ≠ .active then s.opElsewhere h b sig
  else
    match s.flash.plan with
    | none => s.opSay h opDenied 0x01 0
    | some p =>
      let last := sget 0 s.wm.sh.keySeq (ohKey h)
      if !signedBy p h b sig then s.opSay h opDenied 0x01 0
      else if s.wm.queryWait.isSome then s.opSay h opBusy 0 0
      else if ohSeq h < last then s.opSay h opDenied 0x02 0
      else if ohSeq h = last ∧ last ≠ 0 then
        let k := sget (0, []) s.wm.sh.keyReply (ohKey h)
        if ohSeq k.1 = last ∧ !s.wm.replies.any (fun r => decide (r.hdr = k.1)) then s.sendReply k.1 k.2 else s
      else s.wmTake (.operator h b)

/-- PLAN_LOAD (R366, R367, R388). -/
def execPlanLoad (h : BitVec 256) (b : List (BitVec 8)) (sig : BitVec 512) : State → Host.Outcome State Fault Refusal :=
  act fun s => s.opRow 0x01 h b sig

/-- PLAN_GET (R388). -/
def execPlanGet (h : BitVec 256) (b : List (BitVec 8)) (sig : BitVec 512) : State → Host.Outcome State Fault Refusal :=
  act fun s => s.opRow 0x02 h b sig

/-- PLAN_ACCEPT (R374). -/
def execPlanAccept (h : BitVec 256) (b : List (BitVec 8)) (sig : BitVec 512) : State → Host.Outcome State Fault Refusal :=
  act fun s => s.opRow 0x03 h b sig

/-- TOPO_GET (R375). -/
def execTopoGet (h : BitVec 256) (b : List (BitVec 8)) (sig : BitVec 512) : State → Host.Outcome State Fault Refusal :=
  act fun s => s.opRow 0x04 h b sig

/-- FINDINGS_GET (R371). -/
def execFindingsGet (h : BitVec 256) (b : List (BitVec 8)) (sig : BitVec 512) : State → Host.Outcome State Fault Refusal :=
  act fun s => s.opRow 0x05 h b sig

/-- SLICE_CARVE (R376 to R380). -/
def execSliceCarve (h : BitVec 256) (b : List (BitVec 8)) (sig : BitVec 512) : State → Host.Outcome State Fault Refusal :=
  act fun s => s.opRow 0x06 h b sig

/-- SLICE_FLOWS (R382). -/
def execSliceFlows (h : BitVec 256) (b : List (BitVec 8)) (sig : BitVec 512) : State → Host.Outcome State Fault Refusal :=
  act fun s => s.opRow 0x07 h b sig

/-- SLICE_FREE (R384). -/
def execSliceFree (h : BitVec 256) (b : List (BitVec 8)) (sig : BitVec 512) : State → Host.Outcome State Fault Refusal :=
  act fun s => s.opRow 0x08 h b sig

/-- SLICE_LIST (R388). -/
def execSliceList (h : BitVec 256) (b : List (BitVec 8)) (sig : BitVec 512) : State → Host.Outcome State Fault Refusal :=
  act fun s => s.opRow 0x09 h b sig

/-- MODULE_CLEAR (R388, R463, R401) (DEDUCED, log 141). -/
def execModuleClear (h : BitVec 256) (b : List (BitVec 8)) (sig : BitVec 512) : State → Host.Outcome State Fault Refusal :=
  act fun s => s.opRow 0x0A h b sig

/-- PORT_RELEASE (R282, R388). -/
def execPortRelease (h : BitVec 256) (b : List (BitVec 8)) (sig : BitVec 512) : State → Host.Outcome State Fault Refusal :=
  act fun s => s.opRow 0x0B h b sig

/-- MODULE_RESET (R294, R388). -/
def execModuleReset (h : BitVec 256) (b : List (BitVec 8)) (sig : BitVec 512) : State → Host.Outcome State Fault Refusal :=
  act fun s => s.opRow 0x0C h b sig

/-- MODULE_FREEZE (R294, R388). -/
def execModuleFreeze (h : BitVec 256) (b : List (BitVec 8)) (sig : BitVec 512) : State → Host.Outcome State Fault Refusal :=
  act fun s => s.opRow 0x0D h b sig

/-- WM_STATUS (R387, R411). -/
def execWmStatus (h : BitVec 256) (b : List (BitVec 8)) (sig : BitVec 512) : State → Host.Outcome State Fault Refusal :=
  act fun s => s.opRow 0x0E h b sig

/-- BUDGET_SET (R437). -/
def execBudgetSet (h : BitVec 256) (b : List (BitVec 8)) (sig : BitVec 512) : State → Host.Outcome State Fault Refusal :=
  act fun s => s.opRow 0x0F h b sig

end Sys2Proof.Machine
end

