-- ==== Sys2Proof/Machine/WmRows.lean ====
section
/-! DEFINITION. What reaches a Watermaster member from agents, from the clock and from the other member (14 R392 to R404). -/

namespace Sys2Proof.Machine

/-- The member's management complex runs (R20): not frozen, not in a compute warm reset, not in an activate pause. -/
def State.memberUp (s : State) : Bool := s.agentUp && !s.rst.warm && !s.hst.paused

/-- A Watermaster message that comes in over the pair port: with another user of the port it is dropped and counted (R286) (DESIGN CHOICE, log 183). -/
def State.pairTake (s : State) (f : State → State) : State :=
  if !s.agentUp ∨ !s.fab.pairUp then s
  else if s.fab.pairUser ≠ 1 then { s with cnt := { s.cnt with pairDrop := satAdd 8 s.cnt.pairDrop 1 } }
  else if s.memberUp then f s else s

/-- A report as a member takes it: one whose envelope bears a higher epoch than the member's ends its role (R398). -/
def State.wmReport (s : State) (epoch : BitVec 32) (f : State → State) : State :=
  if !s.memberUp then s
  else
    let s0 : State := { s with wm := { s.wm with known := max s.wm.known epoch.toNat } }
    if s.wm.role ≠ .none ∧ s.wm.epoch < epoch.toNat then s0.demote else f s0

/-! ### Reports (R368, R392, R399) -/

/-- MISMATCH (R401): the standby detaches; the active sends its own copy again where the standby's was executed. -/
def execMismatch (agent : Sender (Fin 512)) (seq : BitVec 32) (executedByStandby : Bool) (_crc0 _crc1 : BitVec 32) :
    State → Host.Outcome State Fault Refusal := act fun s => s.wmReport agent.epoch fun s =>
  match s.wm.role with
  | .synced => s.detach 0x02
  | .coasting => s.detach 0x02
  | _ => s.wmTake (.mismatch agent.agent seq executedByStandby)

/-- PARTNER (R368, R370). -/
def execPartner (agent : Sender End) (record : BitVec 1024) (port : Fin 7) (lanes : BitVec 4) :
    State → Host.Outcome State Fault Refusal := act fun s => s.wmReport agent.epoch (·.wmTake (.partner agent.agent record port lanes))

/-- DRAINED at a member (R347, R348). -/
def execDrainedReport (agent : Sender (Fin 512)) (version : BitVec 16) : State → Host.Outcome State Fault Refusal :=
  act fun s => s.wmReport agent.epoch (·.wmTake (.drained agent.agent version))

/-- STATE at a member (R399, R406): with it comes the rail mode of the module, of its own module from PWR_MODE (R25 note j) (DESIGN CHOICE,
log 54). -/
def execStateReport (agent : Sender End) (code : BitVec 8) (stage : BitVec 32) (demand : PowerDemand) :
    State → Host.Outcome State Fault Refusal := act fun s => s.wmReport agent.epoch fun s =>
  s.wmTake (.state agent.agent code stage demand.demand (if agent.agent = s.ownEnd then s.fld 0x800000 0 1 = 1 else demand.perRail))

/-- PATH at a member (R282, R324). -/
def execPathReport (agent : Sender End) (unreachable : Option (Fin 512)) (port : Fin 7) (lanes : BitVec 4) :
    State → Host.Outcome State Fault Refusal := act fun s => s.wmReport agent.epoch (·.wmTake (.path agent.agent unreachable port lanes))

/-! ### Cycles (R392, R394) -/

/-- MANAGEMENT_CYCLE (R392): a new cycle has begun. The active ends the one before it and computes the new one; a candidate that joins asks
again until pieces come. A standby computes on COPY or on its midpoint. -/
def execManagementCycle : State → Host.Outcome State Fault Refusal :=
  act fun s =>
    if !s.memberUp then s
    else
      match s.wm.role with
      | .active => if s.wm.sh.cycle < s.cycleNow then s.activeCycle s.cycleNow else s
      | .joining => if s.wm.fullParts.isEmpty then s.pairMsg 0x03 [] else s
      | _ => s

/-- COMMAND_RESEND_TIMEOUT (R394): no answer for 10 cycles. -/
def execCommandResendTimeout (agent : Fin 512) (seq : BitVec 32) : State → Host.Outcome State Fault Refusal :=
  act fun s =>
    if !s.memberUp ∨ !(s.wm.role = .active || s.wm.role = .synced || s.wm.role = .coasting) then s
    else
      match s.wm.sh.outstanding.find? fun c => decide (c.agent = agent.val ∧ c.seq = seq.toNat ∧ c.seq ≠ 0) with
      | none => s
      | some c =>
        if s.wm.sh.cycle < c.cycle + 10 then s
        else (s.updSh fun w => { w with outstanding := w.outstanding.erase c }).wmCommand c.agent c.type.toNat c.body

/-- PAIR_COPY (R402, R403): the inputs of cycle n gathered; with the last of them the standby compares the digest of its own state after
that cycle, acknowledges, takes the inputs and computes the next cycle. -/
def execPairCopy (cycle : BitVec 64) (epoch : BitVec 32) (stateDigest _commandDigest : BitVec 64) (inputs : List WmInput) (last : Bool) :
    State → Host.Outcome State Fault Refusal := act fun s => s.pairTake fun s =>
  let n := cycle.toNat
  if !(s.wm.role = .synced || s.wm.role = .coasting) then s
  else
    let got := (if s.wm.copyCycle = some n then s.wm.copied else []) ++ inputs
    if !last then { s with wm := { s.wm with copied := got, copyCycle := some n } }
    else
      let s1 : State := { s with wm := { s.wm with copied := [], copyCycle := none, epoch := max s.wm.epoch epoch.toNat } }
      if n + 1 = s.wm.sh.cycle then
        (if stateDigest = s.wm.prevDigest then { s1 with wm := { s1.wm with role := .synced, coasts := 0 } } else s1.detach 0x01)
      else if n ≠ s.wm.sh.cycle then s1
      else if stateDigest ≠ s.wm.digest then s1.detach 0x01
      else
        let s2 : State := (({ s1 with wm := { s1.wm with role := .synced, coasts := 0 } }).pairMsg 0x02 (leBytes 8 n ++ leBytes 8 s.wm.digest.toNat))
        (forEach got (fun (s : State) i => s.wmApply i) s2).runCycle (n + 1)

/-- COPY_MIDPOINT (R392, R403): no COPY of cycle n at the midpoint of cycle n + 1: the standby coasts on its own inputs, for 32 cycles at
most. -/
def execCopyMidpoint : State → Host.Outcome State Fault Refusal :=
  act fun s =>
    let n := s.wm.sh.cycle
    if !s.memberUp ∨ !(s.wm.role = .synced || s.wm.role = .coasting) ∨ s.time.tick < 100000 * (n + 1) + 50000 then s
    else
      let s1 := (forEach s.wm.inputs (fun (s : State) i => s.wmApply i)
        { s with wm := { s.wm with role := .coasting, coasts := s.wm.coasts + 1 } }).runCycle (n + 1)
      if 31 ≤ s.wm.coasts then s1.detach 0x03 else s1

/-- COPY_ACK (R404): a matching digest releases the replies of the cycle; another leaves the active without a standby. -/
def execCopyAck (cycle stateDigest : BitVec 64) : State → Host.Outcome State Fault Refusal :=
  act fun s => s.pairTake fun s =>
    if s.wm.role ≠ .active ∨ !s.wm.standby ∨ cycle.toNat + 1 ≠ s.wm.sh.cycle then s
    else if stateDigest = s.wm.prevDigest then s.releaseReplies cycle.toNat
    else { s with wm := { s.wm with standby := false } }

/-- JOIN (R403): a full copy is asked for. -/
def execJoinReq : State → Host.Outcome State Fault Refusal :=
  act fun s => s.pairTake fun s =>
    if s.wm.role = .active ∧ !s.wm.sh.stayDetached then { s with wm := { s.wm with joinAsked := true } } else s

/-- FULL (R403): pieces of one cycle gathered; with all of them the whole state is applied. -/
def execFullCopy (cycle : BitVec 64) (index count : Nat) (piece : List (BitVec 8)) : State → Host.Outcome State Fault Refusal :=
  act fun s => s.pairTake fun s =>
    if s.wm.role ≠ .joining then s
    else
      let parts := (if s.wm.copyCycle = some cycle.toNat then s.wm.fullParts.filter (fun e => e.1 ≠ index) else []) ++ [(index, piece)]
      let s1 : State := { s with wm := { s.wm with fullParts := parts, copyCycle := some cycle.toNat } }
      if parts.length < count then s1
      else
        match Config.wmDecode ((sortBy (·.1) parts).flatMap (·.2)) with
        | none => { s1 with wm := { s1.wm with fullParts := [], copyCycle := none } }
        | some (plan, w) =>
          let s2 := match plan with
            | some p => if s.flash.plan = some p then s1 else s1.putPlan p
            | none => s1
          { s2 with wm := { s2.wm with
            role := .synced, sh := w, digest := Config.wmDigest w, prevDigest := 0, epoch := s.agent.epoch.toNat, fullParts := [],
            copyCycle := none, inputs := [], coasts := 0 } }

/-- DETACH (R401, R404): the active replies without a standby; the third detach within 600 s holds it detached. -/
def execDetach (_cause : BitVec 8) : State → Host.Outcome State Fault Refusal :=
  act fun s => s.pairTake fun s =>
    if s.wm.role ≠ .active then s
    else
      let c := s.wm.sh.cycle
      let ds := (s.wm.sh.detaches.filter fun d => decide (c < d + 600000)) ++ [c]
      let s1 := s.updSh fun w => { w with detaches := ds, stayDetached := decide (3 ≤ ds.length) }
      { s1 with wm := { s1.wm with standby := false } }

/-! ### Answers (R397, R398, R404) -/

/-- What a STATE_QUERY answer says of an agent: its version, pair user and fence entries. -/
def WmShared.noteState (w : WmShared) (m : Nat) (b : List Byte) : WmShared :=
  let n := bytesNat b 18 2
  let fs := (List.range n).map fun k => (bytesNat b (20 + 4 * k) 2, BitVec.ofNat 16 (bytesNat b (22 + 4 * k) 2))
  { w with
    version := max w.version (bytesNat b 16 2)
    users := sset 0 w.users m (bytesNat b 7 1)
    fences := fs.foldl (fun (t : Sparse (BitVec 16)) e => if bitAt e.2 0 then sset 0 t e.1 e.2 else t) w.fences }

/-- The answer of the last agent ends the wait of a new active. -/
def State.queryDone (s : State) : State :=
  if s.wm.queryLeft.isEmpty then { s with wm := { s.wm with queryWait := none } } else s

/-- STATE_QUERY_TIMEOUT (R404): at most 100 ms. -/
def execStateQueryTimeout : State → Host.Outcome State Fault Refusal :=
  act fun s =>
    match s.wm.queryWait with
    | some t => if s.memberUp ∧ t ≤ s.now then ({ s with wm := { s.wm with queryLeft := [] } }).queryDone else s
    | none => s

/-- LEASE_TAKE sent again to an agent with a higher epoch (R397). -/
def State.takeAgain (s : State) (m : Nat) (epoch : Nat) : State :=
  let f := max s.wm.known epoch + 1
  let body := leBytes 8 s.cycleNow
  let s1 : State := { s with wm := { s.wm with epoch := f, known := f } }
  s1.sendEnv (s.endOf m) (envelope 0x02 0 false 1 f 0 body) body

/-- AGENT_ANSWER (R397, R398, R404): a refusal for the epoch that a member holds, or any higher epoch, ends its role; a seeker that meets a
higher epoch tries again above it; other answers are inputs of the cycle. -/
def execAgentAnswer (agent : Fin 512) (env : BitVec 256) (body : List (BitVec 8)) : State → Host.Outcome State Fault Refusal :=
  act fun s =>
    let e := (eEpoch env).toNat
    let r := eResult env
    if !s.memberUp ∨ !eAnswer env then s
    else
      let s0 : State := { s with wm := { s.wm with known := max s.wm.known e } }
      match s.wm.role with
      | .active =>
        if s.wm.epoch < e ∨ r = arStale ∨ r = arNoLease then s0.demote
        else
          let s1 := s0.wmTake (.answer agent (BitVec.ofNat 8 r) (BitVec.ofNat 32 (eSeq env)))
          if eType env = 0x0D ∧ s1.wm.queryLeft.contains agent.val then
            (({ s1 with wm := { s1.wm with queryLeft := s1.wm.queryLeft.erase agent.val } }).updSh fun w => w.noteState agent body).queryDone
          else s1
      | .none =>
        if s.wm.seeking ∧ eType env = 0x02 ∧ r = arStale then s0.takeAgain agent e else s0
      | _ =>
        if s.wm.seeking ∧ eType env = 0x02 ∧ r = arStale then s0.takeAgain agent e
        else if s.wm.epoch < e ∨ r = arStale ∨ r = arNoLease then s0.demote
        else s0.wmTake (.answer agent (BitVec.ofNat 8 r) (BitVec.ofNat 32 (eSeq env)))

end Sys2Proof.Machine
end

