-- ==== Sys2Proof/Machine/Power.lean ====
section
/-! DEFINITION. The power controller (15): operating points, the cap and its actions, thermal limits, the regulator alert wire, and
droop. Temperatures are in units of 0.125 °C (R552). -/

namespace Sys2Proof.Machine

/-! ### Settings (R438 to R443) -/

/-- PWR_MODE.per_rail. -/
def State.perRail (s : State) : Bool := s.fld 0x800000 0 1 = 1

/-- PWR_CTRL as it acts: up_us and alert_hold_ms in ticks, hg_hold_ms in ticks, up_margin_w in W. -/
def State.upTicks (s : State) : Nat := usTicks (clamp 25 1000 (s.fld 0x800014 0 10))
def State.upMargin (s : State) : Nat := max 5 (s.fld 0x800014 10 8)
def State.hgHoldTicks (s : State) : Nat := msTicks (clamp 1 100 (s.fld 0x800014 18 7))
def State.alertHoldTicks (s : State) : Nat := msTicks (clamp 1 100 (s.fld 0x800014 25 7))

/-- PWR_DROOP.storm and PWR_THERM.throttle_c as they act. -/
def State.stormLimit (s : State) : Nat := max 1 (s.fld 0x800020 7 8)
def State.throttleC (s : State) : Nat := clamp 70 95 (s.fld 0x800030 0 7)

/-- The rated current of a rail (R576). -/
def ratedA (n : Nat) : Nat := [1250, 120, 160, 200, 40, 15].getD n 0

/-- PWR_RAIL_n.limit_a as it acts (R443). -/
def State.railLimit (s : State) (n : Nat) : Nat :=
  let v := s.fld (0x800100 + 4 * n) 0 12
  if v = 0 then ratedA n else min v (ratedA n)

/-- The cap C in W (R418, R419, R439). -/
def State.powerCap (s : State) : Nat :=
  if s.perRail then 1300
  else min 1300 (match s.agent.share with
    | some u => 5 * u
    | none => clamp 400 1300 (s.fld 0x800010 0 11))

/-! ### Levels (R421, R422) -/

/-- A state of the controller: operating point, trickle shed, Headgate held closed, issue and memory sixteenths (DESIGN CHOICE, log 145). -/
structure Level where
  op : Nat := 15
  shed : Bool := false
  hg : Bool := false
  issue : Nat := 16
  mem : Nat := 16
  deriving DecidableEq, Repr

/-- Compute down actions, 1 to 5 (R421). -/
def Level.downCompute (l : Level) : Option Level :=
  if !l.shed then some { l with shed := true }
  else if 9 < l.op then some { l with op := l.op - 1 }
  else if !l.hg then some { l with hg := true }
  else if 0 < l.op then some { l with op := l.op - 1 }
  else if 1 < l.issue then some { l with issue := l.issue - 1 }
  else none

/-- Down action 6. -/
def Level.downMem (l : Level) : Option Level := if 1 < l.mem then some { l with mem := l.mem - 1 } else none

/-- The next down action. -/
def Level.down (l : Level) : Option Level := l.downCompute.orElse fun _ => l.downMem

/-- The next up action (R422); canHg says that Headgate may reopen. -/
def Level.up (l : Level) (canHg : Bool) : Option Level :=
  if l.mem < 16 then some { l with mem := l.mem + 1 }
  else if l.issue < 16 then some { l with issue := l.issue + 1 }
  else if l.op < 9 then some { l with op := l.op + 1 }
  else if l.hg then (if canHg then some { l with hg := false } else none)
  else if l.shed then some { l with shed := false }
  else if l.op < 15 then some { l with op := l.op + 1 }
  else none

/-- The states below, in order of the down actions. -/
def Level.below : Nat → Level → List Level
  | 0, _ => []
  | n + 1, l =>
    match l.down with
    | none => []
    | some m => m :: Level.below n m

/-- The operating point decided on: a deferred step, a step up that waits for its voltage, or the one in force. -/
def State.opGoal (s : State) : Nat := s.pw.deferred.getD (s.pw.target.getD s.pw.op)

/-- The controller's present state. -/
def State.level (s : State) : Level :=
  { op := s.opGoal, shed := s.pw.shed, hg := s.tt.hgPower, issue := s.pw.issue, mem := s.pw.mem }

/-- A droop, or the 5 µs after the last one, defers changes of frequency (R431). -/
def State.deferring (s : State) : Bool :=
  !s.pw.droops.isEmpty || (decide (s.pw.lastDroop ≠ 0) && decide (s.now < s.pw.lastDroop + usTicks 5))

/-- An operating point decided on (R417, R431): a lower one takes its frequency at once; a higher one waits for its voltage; in a droop
it is deferred, in place of one deferred before. -/
def State.goOp (s : State) (o : Nat) : State :=
  if o = s.opGoal then s
  else if s.deferring then { s with pw := { s.pw with deferred := some o, target := none } }
  else if o ≤ s.pw.op then { s.setOp o with pw := { (s.setOp o).pw with target := none } }
  else { s with pw := { s.pw with target := some o } }

/-- OP9 or more at full issue. -/
def State.atFull (s : State) : Bool := decide (9 ≤ s.pw.op) && decide (s.pw.issue = 16)

/-- The time since which OP9 has been held at full issue starts anew where it was not held before (R422). -/
def State.noteFull (s before : State) : State :=
  if s.atFull ∧ !before.atFull then { s with pw := { s.pw with fullSince := s.now } } else s

/-- go_to of R424: every action between the present state and another, at once. -/
def State.goTo (s : State) (l : Level) : State :=
  if l = s.level then s
  else
    let s1 := s.goOp l.op
    let s2 : State := { s1 with
      pw := { s1.pw with shed := l.shed, issue := l.issue, mem := l.mem, lastStep := s.now }, tt := { s1.tt with hgPower := l.hg } }
    s2.noteFull s

/-- One down action. -/
def State.oneDown (s : State) : State :=
  match s.level.down with
  | some l => s.goTo l
  | none => s

/-! ### Sensors (R426, R552, R554) -/

/-- A reading as a signed number of eighths of a degree. -/
def tempOf (v : BitVec 12) : Int := v.toInt

/-- The valid readings of a range of sensors. -/
def State.readings (s : State) (lo hi : Nat) : List Int :=
  (s.pw.temps.filter fun e => decide (lo ≤ e.1) && decide (e.1 < hi) && bitAt e.2 12).map fun e => tempOf (e.2.truncate 12)

/-- A VCORE-island sensor reads above a temperature in °C. -/
def State.hotterThan (s : State) (c : Int) : Bool := (s.readings 0 16).any fun t => decide (8 * c < t)

/-- Coolant inlet above 40 °C or a board sensor above 100 °C (R554). -/
def State.cooling (s : State) : Bool :=
  (s.readings 62 63).any (fun t => decide (8 * 40 < t)) || (s.readings 48 64).any fun t => decide (8 * 100 < t)

/-- ALERT 0x04 stands while a thermal hold lasts or cooling fails. -/
def State.heatAlert (s : State) : State := if s.pw.thermalHold || s.cooling then s.alertOn 0x04 else s.alertOff 0x04

/-- A reading taken, with its extremes since cold reset (R552, R560). -/
def State.noteTemp (s : State) (n : Nat) (v : BitVec 12) : State :=
  let seen := bitAt (sget 0 s.pw.temps n) 12
  let pick (m : Sparse (BitVec 12)) (better : Int → Int → Bool) : Sparse (BitVec 12) :=
    if !seen ∨ better (tempOf v) (tempOf (sget 0 m n)) then sset 0 m n v else m
  { s with pw := { s.pw with
    temps := sset 0 s.pw.temps n (BitVec.ofNat 13 (v.toNat + 2 ^ 12)),
    tempMin := pick s.pw.tempMin (fun a b => decide (a < b)), tempMax := pick s.pw.tempMax (fun a b => decide (b < a)) } }

/-- A reading and its extremes since cold reset (R555, R556, R560): the reading, the least and the greatest. -/
def noteReading (now lo hi : Sparse Nat) (n v : Nat) : Sparse Nat × Sparse Nat × Sparse Nat :=
  let seen := now.any fun e => e.1 = n
  (sset 0 now n v, if !seen ∨ v < sget 0 lo n then sset 0 lo n v else lo, if !seen ∨ sget 0 hi n < v then sset 0 hi n v else hi)

/-- A voltage monitor read (R555). -/
def State.noteVolt (s : State) (n v : Nat) : State :=
  let x := noteReading s.mon.volts s.mon.voltMin s.mon.voltMax n v
  { s with mon := { s.mon with volts := x.1, voltMin := x.2.1, voltMax := x.2.2 } }

/-- A process monitor read (R556). -/
def State.noteRing (s : State) (n v : Nat) : State :=
  let x := noteReading s.mon.rings s.mon.ringMin s.mon.ringMax n v
  { s with mon := { s.mon with rings := x.1, ringMin := x.2.1, ringMax := x.2.2 } }

/-- A sensor is read: one of the compute part not while that is in reset (R552). -/
def State.sensorOn (s : State) (n : Nat) : Bool := !s.rst.warm || (decide (32 ≤ n) && decide (n < 40)) || decide (48 ≤ n)

/-- The readings of an interval taken (R552, R555, R556), and what follows from them: the end of a thermal hold (R426), and cooling (R554). -/
def State.takeReadings (s : State) (sm : PowerSample) : State :=
  let s1 := forEach (sm.readings.filter fun r => s.sensorOn r.1.val) (fun (s : State) r => s.noteTemp r.1.val r.2) s
  let s2 := forEach sm.rings (fun (s : State) r => s.noteRing r.1.val r.2) (forEach sm.volts (fun (s : State) r => s.noteVolt r.1.val r.2) s1)
  ({ s2 with pw := { s2.pw with sampled := s.time.tick / 256, thermalHold := s2.pw.thermalHold && s2.hotterThan (s2.throttleC - 2) } }
    : State).heatAlert

/-- The voltage of rail n in mV, by its regulator-output monitor (R555, R576). -/
def State.railMv (s : State) (n : Nat) : Nat := sget 0 s.mon.volts (25 + n)

/-! ### The sample interval (R412, R420, R424, R434, R436) -/

/-- The controller runs: from the end of stage 2 on (R477). -/
def State.controller (s : State) : Bool := s.compute && (s.boot.ended || decide (3 ≤ s.boot.stage)) && !s.boot.halted

/-- The domain of an event (R412). -/
def eventDomain : PowerEvent → PowerDomain
  | .issue => .compute
  | .kStep _ => .compute
  | .laneOp _ => .compute
  | .cellBank => .compute
  | .ticket => .fixed
  | .luma => .fixed
  | .shaped => .fixed
  | .meshFlit _ => .fixed
  | .memRead _ => .memory
  | .memWrite _ => .memory
  | .activate _ => .memory
  | .refresh _ => .memory
  | .laneSlot _ => .links
  | .byteSent _ => .links
  | .byteReceived _ => .links

/-- The rail that supplies what leaks in a domain (R576) (DESIGN CHOICE, log 192). -/
def domainRail : PowerDomain → Nat
  | .links => 2
  | .memory => 3
  | .compute => 0
  | .fixed => 0

/-- The rail that supplies what an event counts (R576): cell memory stands on VSRAM. -/
def eventRail (e : PowerEvent) : Nat := if e = .cellBank then 1 else domainRail (eventDomain e)

/-- The hottest sensor of a domain, in eighths of a degree (R554) (DESIGN CHOICE, log 192). -/
def State.domainTemp (s : State) (d : PowerDomain) : Int :=
  let ts := match d with
    | .links => s.readings 32 40
    | .memory => s.readings 16 32
    | .compute => s.readings 0 16
    | .fixed => s.readings 40 48
  ts.foldl max (ts.headD 0)

/-- A domain's share of the estimate in µW (R413): dynamic power of the foreground and of the trickle thread, leakage, conversion loss. -/
structure Share where
  fg : Nat := 0
  trickle : Nat := 0
  leak : Nat := 0
  loss : Nat := 0
  deriving DecidableEq, Repr

def Share.total (x : Share) : Nat := x.fg + x.trickle + x.leak + x.loss

/-- A share of its parts, with the conversion loss of the power they take. -/
def shareOf (d : PowerDomain) (fg trickle leak : Nat) : Share :=
  { fg := fg, trickle := trickle, leak := leak, loss := Config.conversionLoss d (fg + trickle + leak) }

/-- The dynamic power of a domain in µW: each counter times its weight, scaled by the square of the rail voltage over V9 (R413). -/
def State.dynamicOf (s : State) (sm : PowerSample) (d : PowerDomain) (trickle : Bool) : Nat :=
  sumOf ((sm.counts.filter fun x => decide (eventDomain x.1 = d ∧ x.2.1 = trickle)).map fun x =>
    x.2.2 * Config.eventWeight x.1 * (s.railMv (eventRail x.1)) ^ 2 / (Config.vcoreMv 9) ^ 2)

/-- A domain's share in an interval (R413). -/
def State.share (s : State) (sm : PowerSample) (d : PowerDomain) : Share :=
  shareOf d (s.dynamicOf sm d false) (s.dynamicOf sm d true) (Config.leakage d (s.railMv (domainRail d)) (s.domainTemp d))

/-- The shares of an interval in µW: links, memory, compute, fixed. -/
def State.sharesOf (s : State) (sm : PowerSample) : List Nat :=
  [.links, .memory, .compute, .fixed].map fun d => (s.share sm d).total

/-- A sum of shares as the estimate gives it: in mW, with the trim factor (R414). -/
def State.trimmed (s : State) (uw : Nat) : Nat := uw * s.pw.trimNum / 1000000

/-- What the frequency and voltage of a level scale foreground dynamic power by (R424): V² above OP9, f × V² at and below it, and the share of
clocks that the issue throttle leaves (R423). -/
def levelScale (op issue : Nat) : Nat := (Config.vcoreMv op) ^ 2 * min 1600 (opMhz op) * issue

/-- predict(s) of R424 in µW, before the trim: the compute share at a level, and memory at its throttle; links and fixed as they are. Trickle
power goes with action 1, and scales as the foreground's otherwise (DESIGN CHOICE, log 192). -/
def State.predict (s : State) (sm : PowerSample) (l : Level) : Nat :=
  let c := s.share sm .compute
  let m := s.share sm .memory
  let scaled (w : Nat) : Nat := w * levelScale l.op l.issue / levelScale s.pw.op s.pw.issue
  let c1 := shareOf .compute (scaled c.fg) (if l.shed then 0 else scaled c.trickle)
    (Config.leakage .compute (Config.vcoreMv l.op) (s.domainTemp .compute))
  let m1 := shareOf .memory (if l.mem = s.pw.mem then m.fg else Config.memoryAt m.fg s.pw.mem l.mem) 0 m.leak
  (s.share sm .links).total + (s.share sm .fixed).total + c1.total + m1.total

/-- The rail currents of an interval in mA, with their trims (R434). -/
def State.railCurrents (s : State) (xs : List Nat) : List Nat :=
  (List.range 6).map fun n =>
    Config.railMilliamps n (xs.getD 0 0) (xs.getD 1 0) (xs.getD 2 0) (xs.getD 3 0) * s.pw.railTrim.getD n 1000 / 1000

/-- The average of some figures. -/
def meanOf (xs : List Nat) : Nat := sumOf xs / max 1 xs.length

/-- The estimate of an interval formed and noted: E, its shares, and the averages over the last 1 ms, which is 390 intervals (R412, R413)
(DESIGN CHOICE, log 192). -/
def State.noteEstimate (s : State) (sm : PowerSample) : State :=
  let xs := s.sharesOf sm
  let e := s.trimmed (sumOf xs)
  let rs := s.railCurrents xs
  let h := (s.pw.hist ++ [(e, rs)]).drop (s.pw.hist.length - 389)
  { s with pw := { s.pw with
    est := e, shares := xs.map s.trimmed, hist := h, est1ms := meanOf (h.map (·.1))
    railAvg := (List.range 6).map fun n => meanOf (h.map fun x => x.2.getD n 0) } }

/-- The last 10 cycles' highest 1 ms averages, with whether a down action was in force (R436). -/
def State.noteDemand (s : State) (avg : Nat) : State :=
  let c := s.cycleNow
  let l := s.level
  let down := l.shed || l.hg || decide (l.op < 15) || decide (l.issue < 16) || decide (l.mem < 16)
  let kept := s.pw.demand.filter fun d => decide (c < d.1 + 10)
  let this := match kept.find? fun d => d.1 = c with
    | some d => (c, max d.2.1 avg, d.2.2 || down)
    | none => (c, avg, down)
  { s with pw := { s.pw with demand := kept.filter (fun d => d.1 ≠ c) ++ [this] } }

/-- The demand of a STATE report in units of 5 W (R436). -/
def State.demandUnits (s : State) : Nat :=
  let m := maxOf (s.pw.demand.map fun d => d.2.1)
  min 260 (if s.pw.demand.any fun d => d.2.2 then ceilDiv (11 * m) 50000 else ceilDiv m 5000)

/-- The rails over their limits, as a mask (R434). -/
def State.overRails (s : State) (avgs : List Nat) : Nat :=
  sumOf ((List.range 6).map fun n => if 1000 * s.railLimit n < avgs.getD n 0 then 2 ^ n else 0)

/-- Per-rail current mode (R434): compute gives way to VCORE and VSRAM, memory to VDDQ and VPP; VSER and AUX take no action. -/
def State.railActions (s : State) (mask : Nat) : State :=
  let l := s.level
  let a := if mask.testBit 0 ∨ mask.testBit 1 then l.downCompute.getD l else l
  s.goTo (if mask.testBit 3 ∨ mask.testBit 4 then a.downMem.getD a else a)

/-- The decision of R424, with the rail limits of per-rail current mode after the limits of the module (R434). -/
def State.decide_ (s : State) (sm : PowerSample) : State :=
  let c := 1000 * s.powerCap
  let e := s.pw.est
  let a := s.pw.est1ms
  let up := 1000 * s.upMargin
  let run := if c < e then s.pw.overRun + 1 else 0
  let mask := if s.perRail then s.overRails s.pw.railAvg else 0
  let s1 : State := { s with pw := { s.pw with overRun := run, railOver := BitVec.ofNat 6 mask } }
  if 1500000 < e ∨ c < a ∨ 3906 ≤ run then
    let ls := Level.below 64 s.level
    let fit := ls.find? fun l => decide (s.trimmed (s.predict sm l) ≤ c)
    let s2 := s1.goTo (match fit with
      | some l => l
      | none => ls.getLast?.getD s.level)
    { s2 with pw := { s2.pw with capNotMet := fit.isNone } }
  else if mask &&& 27 ≠ 0 then s1.railActions mask
  else
    let s2 : State := { s1 with pw := { s1.pw with capNotMet := false } }
    let canHg := s.atFull && decide (s.pw.fullSince + s.hgHoldTicks ≤ s.now)
    if s.pw.thermalHold ∨ s.now < s.pw.noUpUntil ∨ c < a + up ∨ s.now < s.pw.lastStep + s.upTicks then s2
    else
      match s.level.up canHg with
      | some l => if s.trimmed (s.predict sm l) + up ≤ c then s2.goTo l else s2
      | none => s2

/-- What a sample renews before the decision (R412, R426): the readings, the estimate, the demand. -/
def State.takeSample (s : State) (sm : PowerSample) : State :=
  let s1 := (s.takeReadings sm).noteEstimate sm
  s1.noteDemand s1.pw.est1ms

/-- POWER_SAMPLE (R412, R424, R552): an interval of 256 ticks has closed. The readings are renewed; once the controller runs, it reads its
counters and decides unless the alert governs (DESIGN CHOICE, log 151). -/
def execPowerSample (sample : PowerSample) : State → Host.Outcome State Fault Refusal :=
  act fun s =>
    if s.frz.frozen ∨ s.rst.cold ∨ s.pw.sampled = s.time.tick / 256 then s
    else if !s.controller then s.takeReadings sample
    else
      let s1 := s.takeSample sample
      if s1.pw.alert then s1 else s1.decide_ sample

/-- A trim factor in permille by R414, from a measured and an estimated figure, and whether it is an estimator fault: outside 0.90 to 1.10 it
is held at the nearer limit; inside, how the 16 ms filter forms it is not stated, and it is a free value between the limits (log 3). -/
def trimOf (measured estimated : Nat) (free : BitVec 8) : Nat × Bool :=
  if 10 * measured < 9 * estimated then (900, true)
  else if 11 * estimated < 10 * measured then (1100, true)
  else (900 + free.toNat % 201, false)

/-- TRIM_UPDATE (R414, R434): the input power measured against the 1 ms average of E, and in per-rail current mode each regulator's current
telemetry against its rail's average. -/
def execTrimUpdate (measured : SupplyReading) : State → Host.Outcome State Fault Refusal :=
  act fun s =>
    if !s.controller ∨ s.pw.est1ms = 0 then s
    else
      let f := s.free 8
      let t := trimOf (measured.inputMv * measured.inputMa / 1000) s.pw.est1ms f.2
      let s1 : State := { f.1 with pw := { f.1.pw with trimNum := t.1, estFault := t.2 } }
      if !s.perRail then s1
      else forEach (List.range 6) (fun (s : State) n =>
        if s.pw.railAvg.getD n 0 = 0 then s
        else
          let f := s.free 8
          let t := trimOf (measured.railMa.getD n 0) (s.pw.railAvg.getD n 0) f.2
          { f.1 with pw := { f.1.pw with railTrim := f.1.pw.railTrim.set n t.1, estFault := f.1.pw.estFault || t.2 } }) s1

/-- VOLTAGE_REACHED (R417, R431): a step up takes its frequencies, unless a droop defers them. -/
def execVoltageReached : State → Host.Outcome State Fault Refusal :=
  act fun s =>
    match s.pw.target with
    | none => s
    | some o =>
      if !s.compute then s
      else if s.deferring then { s with pw := { s.pw with deferred := some o } }
      else ({ s.setOp o with pw := { (s.setOp o).pw with target := none } } : State).noteFull s

/-! ### Heat (R426, R427) -/

/-- THERMAL_THROTTLE (R426): above throttle_c, one down action every up_us, and a hold that bars up actions. -/
def execThermalThrottle : State → Host.Outcome State Fault Refusal :=
  act fun s =>
    if !s.controller ∨ !s.hotterThan s.throttleC then s
    else
      let s1 := ({ s with pw := { s.pw with thermalHold := true } } : State).heatAlert
      if s.now < s.pw.lastStep + s.upTicks then s1 else s1.oneDown

/-- The state with a rail set. -/
def State.setRail (s : State) (r : Rail) (v : RailSt) : State :=
  { s with sup := { s.sup with rails := s.sup.rails.map fun e => if e.1 = r then (r, v) else e } }

/-- A sensor of the agent region (R554). -/
def agentSensor (n : Nat) : Bool := decide (32 ≤ n) && decide (n < 40)

/-- THERMAL_TRIP (R427, R462, R564): a die sensor at 105 °C or more. -/
def execThermalTrip (sensor : Fin 64) (temp : BitVec 12) : State → Host.Outcome State Fault Refusal :=
  act fun s =>
    if tempOf temp < 8 * 105 ∨ 48 ≤ sensor.val ∨ s.rst.cold then s
    else if agentSensor sensor then
      if s.frz.frozen then { s with pw := { s.pw with agentTrip := true }, frz := { s.frz with agentLost := true } }
      else
        let s1 := s.oosEvent.startCold true false
        { s1 with pw := { s1.pw with agentTrip := true } }
    else if s.frz.frozen then
      ({ s with pw := { s.pw with thermalTrip := true }, frz := { s.frz with computeLost := true } }).setRail .vcore .off
    else if s.pw.thermalTrip then s
    else
      let s1 := ({ s with pw := { s.pw with thermalTrip := true } }).oosEvent
      (s1.startWarm 0x05 false).setRail .vcore .off

/-! ### The alert wire (R428, R429) -/

/-- The wire is low: ALERT_N, or AUX as second alert input (R573). -/
def State.alertLow (s : State) : Bool := !s.sup.alertN || (s.fld 0x20 0 2 = 2 && !s.sup.aux)

/-- ALERT 0x02 stands while the wire is low or a reading is out of range (R429, R580). -/
def State.railAlert (s : State) : State := if s.alertLow || !s.sup.rangeBad.isEmpty then s.alertOn 0x02 else s.alertOff 0x02

/-- The wire after a change of an input: falling, every cell to OP0, trickle shed, Headgate closed, without droop deferral; rising, the
hold begins. While frozen it is counted only (R564). -/
def State.wire (s before : State) : State :=
  if s.alertLow = before.alertLow then s
  else if s.frz.frozen then (if s.alertLow then { s with frz := { s.frz with alerts := s.frz.alerts + 1 } } else s)
  else if s.alertLow then
    let s1 := s.setOp 0
    ({ s1 with
      pw := { s1.pw with alert := true, alertHold := none, alertCount := s.pw.alertCount + 1, target := none, deferred := none,
                         shed := true, lastStep := s.now }
      tt := { s1.tt with hgPower := true } }).railAlert
  else ({ s with pw := { s.pw with alertHold := some (s.now + s.alertHoldTicks) } }).railAlert

/-- ALERT_N_FALL (R428, R429). -/
def execAlertNFall : State → Host.Outcome State Fault Refusal :=
  act fun s => if s.rst.cold then s else ({ s with sup := { s.sup with alertN := false } } : State).wire s

/-- ALERT_N_RISE (R429). -/
def execAlertNRise : State → Host.Outcome State Fault Refusal :=
  act fun s => if s.rst.cold then s else ({ s with sup := { s.sup with alertN := true } } : State).wire s

/-- ALERT_HOLD_EXPIRY (R429): the controller climbs again. -/
def execAlertHoldExpiry : State → Host.Outcome State Fault Refusal :=
  act fun s =>
    match s.pw.alertHold with
    | some t => if s.frz.frozen ∨ s.now < t then s else { s with pw := { s.pw with alert := false, alertHold := none } }
    | none => s

/-! ### Droop (R430 to R432) -/

/-- A physical cell's clock runs, and its supply detector with it: after stage 4 those of the map (R56, R561). -/
def State.islandRuns (s : State) (p : Nat) : Bool := !s.maps.cellsDone || (sget {} s.maps.phys p).clocked

/-- The cell group of a physical cell (R58); 16 for one that no logical number stands for. -/
def State.groupOf (s : State) (p : Nat) : Nat := if s.maps.cells.contains p then s.maps.cells.idxOf p / 8 else 16

/-- DROOP_START (R430 to R432): changes of frequency wait and a falling voltage halts; a storm takes one down action and bars up actions for
10 ms. -/
def execDroopStart (p : Fin 136) : State → Host.Outcome State Fault Refusal :=
  act fun s =>
    if !s.compute ∨ !s.islandRuns p ∨ s.pw.droops.contains p.val then s
    else
      let ts := (s.pw.storm.filter fun t => decide (s.now < t + msTicks 1)) ++ [s.now]
      let s1 : State := { s with pw := { s.pw with
        droops := s.pw.droops ++ [p.val], voltageHalted := true, storm := ts
        droopLog := (s.pw.droopLog.filter fun d => decide (s.now < d.1 + msTicks 1000)) ++ [(s.now, s.groupOf p)] } }
      if s.stormLimit < ts.length ∧ s.controller then
        let s2 := s1.oneDown
        { s2 with pw := { s2.pw with storm := [], storms := s2.pw.storms + 1, noUpUntil := s.now + msTicks 10 } }
      else s1

/-- DROOP_END (R430, R431). -/
def execDroopEnd (p : Fin 136) : State → Host.Outcome State Fault Refusal :=
  act fun s =>
    if !s.compute ∨ !s.pw.droops.contains p.val then s
    else
      let ds := s.pw.droops.erase p.val
      { s with pw := { s.pw with droops := ds, lastDroop := if ds.isEmpty then max 1 s.now else s.pw.lastDroop } }

/-- DROOP_DEFER_EXPIRY (R431): 5 µs after the last droop, the deferred step is carried out in full. -/
def execDroopDeferExpiry : State → Host.Outcome State Fault Refusal :=
  act fun s =>
    if !s.compute ∨ !s.pw.droops.isEmpty ∨ s.pw.lastDroop = 0 ∨ s.now < s.pw.lastDroop + usTicks 5 then s
    else
      let s1 : State := { s with pw := { s.pw with lastDroop := 0, voltageHalted := false, deferred := none } }
      match s.pw.deferred with
      | none => s1
      | some o =>
        if o ≤ s.pw.op ∨ s.pw.target = some o then ({ s1.setOp o with pw := { (s1.setOp o).pw with target := none } } : State).noteFull s
        else { s1 with pw := { s1.pw with target := some o } }

end Sys2Proof.Machine
end

