-- ==== Sys2Proof/Machine/Supply.lean ====
section
/-! DEFINITION. Supplies and pins (22 R570 to R580, 21 R558, R562, R567): the hot-swap stage, the rail sequence, readings out of range,
RESET_N, FREEZE_N and AUX. -/

namespace Sys2Proof.Machine

/-- The state of a rail. -/
def State.rail (s : State) (r : Rail) : RailSt := (lfind s.sup.rails r).getD .off

/-- The rail that starts after another (R578). -/
def nextRail : Rail → Option Rail
  | .aux => some .vser
  | .vser => some .vpp
  | .vpp => some .vsram
  | .vsram => some .vcore
  | .vcore => some .vddq
  | .vddq => none

/-- The index of a rail (R576). -/
def railIndex : Rail → Nat
  | .vcore => 0
  | .vsram => 1
  | .vser => 2
  | .vddq => 3
  | .vpp => 4
  | .aux => 5

/-- A cause holds the cold reset (R572). -/
def State.coldHeld (s : State) : Bool := s.rst.byThermal || s.rst.byResetN || s.rst.byFreeze

/-- The sequence goes on after aux once no cause holds the cold reset (R572, R578 step 1). -/
def State.releaseCold (s : State) : State :=
  if s.rst.cold ∧ !s.coldHeld ∧ s.sup.hotSwap ∧ s.rail .aux = .good ∧ s.rail .vser = .off then
    s.setRail .vser .ramping
  else s

/-- Every rail but aux off (R579). -/
def State.railsOff (s : State) : State :=
  { s with sup := { s.sup with rails := s.sup.rails.map fun e => if e.1 = .aux then e else (e.1, .off) } }

/-- The cold reset ends as stage 0 begins (R571, R578 step 6): the position pins are sampled. -/
def State.endCold (s : State) : State :=
  { s with rst := { s.rst with cold := false }, tow := { s.tow with slot := s.sup.slotId, rack := s.sup.rackId } }

/-- HOT_SWAP_CLOSE (R577): at 50.0 V or more, and aux ramps. -/
def execHotSwapClose (inputMv : Nat) : State → Host.Outcome State Fault Refusal :=
  act fun s =>
    if s.sup.hotSwap ∨ inputMv < 50000 then s
    else ({ s with sup := { s.sup with hotSwap := true } } : State).setRail .aux .ramping

/-- HOT_SWAP_OPEN (R577, R579): a loss of the 54 V input; every rail is off, and the module starts again from power-on. -/
def execHotSwapOpen : State → Host.Outcome State Fault Refusal :=
  act fun s =>
    if !s.sup.hotSwap then s
    else
      let s1 := if s.rst.cold then s else s.startCold false false
      { s1 with
        frz := {}, rst := { s1.rst with cold := true, byFreeze := false, byThermal := false }
        sup := { s1.sup with hotSwap := false, rangeBad := [], rails := s1.sup.rails.map fun e => (e.1, .off) } }

/-- RAIL_POWER_GOOD (R578): the next rail starts; after aux only where nothing holds the cold reset, and after VDDQ stage 0 begins. -/
def execRailPowerGood (rail : Rail) : State → Host.Outcome State Fault Refusal :=
  act fun s =>
    if s.rail rail ≠ .ramping then s
    else
      let s1 := s.setRail rail .good
      match rail, nextRail rail with
      | .aux, _ => ({ s1 with rst := { s1.rst with byResetN := !s1.sup.resetN } } : State).releaseCold
      | _, some n => s1.setRail n .ramping
      | _, none => s1.endCold

/-- RAIL_POWER_GOOD_TIMEOUT (R578 to R580, R479): the rail is switched off, no later one starts, and stage 0 ends with FAILED, the rail's
index in detail; the agent runs where VSER and aux are good. -/
def execRailPowerGoodTimeout (rail : Rail) : State → Host.Outcome State Fault Refusal :=
  act fun s =>
    if s.rail rail ≠ .ramping then s
    else
      let s1 := s.setRail rail .failed
      let s2 : State := { s1 with boot := { s1.boot with stage := 0, phase := .ended, halted := true, failedStage := true } }
      if rail = .aux then s1
      else if rail = .vser then s2.stageReport 0 6 (railIndex rail)
      else
        let s3 := s2.endCold
        ({ s3 with tow := { s3.tow with agentOn := true, culvertOpen := true } }).sendPresent.stageReport 0 6 (railIndex rail)

/-- RAIL_OUT_OF_RANGE (R580): a reading out of range for 10 ms in service. -/
def execRailOutOfRange (point : RailPoint) : State → Host.Outcome State Fault Refusal :=
  act fun s =>
    if s.rst.cold ∨ s.frz.frozen ∨ s.sup.rangeBad.contains point then s
    else ({ s with sup := { s.sup with rangeBad := s.sup.rangeBad ++ [point] } } : State).railAlert

/-- RAIL_BACK_IN_RANGE (R580): back for 10 ms. -/
def execRailBackInRange (point : RailPoint) : State → Host.Outcome State Fault Refusal :=
  act fun s =>
    if s.rst.cold ∨ s.frz.frozen ∨ !s.sup.rangeBad.contains point then s
    else ({ s with sup := { s.sup with rangeBad := s.sup.rangeBad.erase point } } : State).railAlert

/-- THERMAL_HOLD_END (R427): every die sensor reads 85 °C or less; VCORE comes back, or the cold reset is no longer held. -/
def execThermalHoldEnd : State → Host.Outcome State Fault Refusal :=
  act fun s =>
    if s.frz.frozen ∨ (s.readings 0 48).any (fun t => decide (8 * 85 < t)) then s
    else if s.rst.cold then
      (({ s with rst := { s.rst with byThermal := false }, pw := { s.pw with agentTrip := false } }) : State).releaseCold
    else if s.pw.thermalTrip then
      ({ s with pw := { s.pw with thermalTrip := false } } : State).setRail .vcore .good
    else s

/-- RESET_N low for 10 µs (R572): a cold reset, held while the pin is low; it ends a freeze (R567). -/
def execResetN : State → Host.Outcome State Fault Refusal :=
  act fun s =>
    let s0 : State := { s with sup := { s.sup with resetN := false } }
    if !s.sup.hotSwap then s0
    else if s.rst.cold then ({ s0 with rst := { s0.rst with byResetN := true } } : State).railsOff
    else s0.startCold false true

/-- RESET_N_RISE (R572). -/
def execResetNRise : State → Host.Outcome State Fault Refusal :=
  act fun s =>
    ({ s with sup := { s.sup with resetN := true }, rst := { s.rst with byResetN := false } } : State).releaseCold

/-- FREEZE_N low for 100 ns (R562). -/
def execFreezeN : State → Host.Outcome State Fault Refusal :=
  act fun s => ({ s with sup := { s.sup with freezeN := false } } : State).freezeNow 0x01

/-- FREEZE_N_RISE (R567): a cold reset asked for while it was low starts. -/
def execFreezeNRise : State → Host.Outcome State Fault Refusal :=
  act fun s =>
    ({ s with sup := { s.sup with freezeN := true }, rst := { s.rst with byFreeze := false } } : State).releaseCold

/-- AUX_PIN_CHANGE (R550, R558, R573): the level that gates profiling, or the second alert input. -/
def execAuxPinChange (level : Bool) : State → Host.Outcome State Fault Refusal :=
  act fun s =>
    let s1 : State := { s with sup := { s.sup with aux := level } }
    if s.rst.cold then s1 else s1.wire s

end Sys2Proof.Machine
end

