-- ==== Sys2Proof/Machine/Boot.lean ====
section
/-! DEFINITION. Staged bring-up (17 R474 to R493, 05 R130 to R135, 03 R55 to R59). The first event of a stage's row begins the stage with
START; a later one ends it with what the stage saw of the hardware. -/

namespace Sys2Proof.Machine

/-! ### Steps of a stage (R475, R477) -/

def rcStart : Nat := 0
def rcPass : Nat := 1
def rcReduced : Nat := 2
def rcBelow : Nat := 3
def rcUnitBad : Nat := 4
def rcWaiting : Nat := 5
def rcFailed : Nat := 6
def rcHeld : Nat := 7

/-- Bring-up goes on: neither frozen nor in a reset nor halted, and stage n has its turn (R477, R479, R493). -/
def State.stageTurn (s : State) (n : Nat) : Bool := s.compute && !s.boot.halted && decide (s.boot.stage = n)

/-- A stage begins. -/
def State.stageBegin (s : State) (n : Nat) : State :=
  ({ s with boot := { s.boot with phase := .started, startedAt := s.now, waitMask := 0 } } : State).stageReport n rcStart 0

/-- A stage ends and the next has its turn. -/
def State.stageEnd (s : State) (n result detail : Nat) : State :=
  let s1 := if result = rcBelow then s.alertOn 0x05 else s
  ({ s1 with boot := { s1.boot with stage := n + 1, phase := .pending } } : State).stageReport n result detail

/-- UNIT_BAD reports in order. -/
def State.unitsBad (s : State) (n : Nat) (ds : List Nat) : State := forEach ds (fun s d => s.stageReport n rcUnitBad d) s

/-- WAITING, whenever the set of things awaited changes. -/
def State.waitFor (s : State) (n mask : Nat) : State :=
  if mask = s.boot.waitMask then s
  else
    let s1 : State := { s with boot := { s.boot with waitMask := mask, phase := .waiting } }
    if mask = 0 then s1 else s1.stageReport n rcWaiting mask

/-- What an event of stage n does: it begins the stage, or goes on with it. -/
def State.stageRow (s : State) (n : Nat) (begin_ go : State → State) : State :=
  if !s.stageTurn n then s
  else
    match s.boot.phase with
    | .pending => begin_ (s.stageBegin n)
    | _ => go s

/-- A stage that could not be completed: stages 0 to 2 halt, stages 3 to 5 lead to a compute warm reset (R478). -/
def State.stageFailed (s : State) (n detail : Nat) : State :=
  let s1 := ({ s with boot := { s.boot with failedStage := true, phase := .ended, halted := decide (n < 3) } } : State).stageReport n rcFailed detail
  if n < 3 then s1 else s1.requestReset .compute 0x06 [] true false

/-- The agent domain leaves cold reset at the end of stage 0 (R479): where its Towpath transceiver has passed its loopback test the relays
open, and its first frame is a PRESENT (R295). -/
def State.agentOut (s : State) (loopbackOk : Bool) : State :=
  if s.tow.agentOn then s
  else
    let s1 : State := { s with tow := { s.tow with agentOn := true, culvertOpen := loopbackOk } }
    if loopbackOk then s1.sendPresent else s1

/-- The recommended range of rail n in mV, VCORE at the OP0 voltage (R576, R578). -/
def railRange (n : Nat) : Nat × Nat :=
  [(605, 635), (780, 820), (880, 920), (485, 515), (1750, 1850), (3200, 3400)].getD n (0, 0)

/-- What a voltage monitor reads nominally, in mV, and the rail that it measures at the die or the package (R555). -/
def voltNominal (n : Nat) : Nat :=
  if n = 0 then 54000 else if n < 9 then 620 else if n < 11 then 800 else if n < 13 then 900 else if n < 21 then 500 else if n < 23 then 1800
  else if n = 23 then 3300 else if n = 24 then 1800 else [620, 800, 900, 500, 1800, 3300].getD (n - 25) 600
def dieRail (n : Nat) : Option Nat :=
  if n = 0 then none else if n < 9 then some 0 else if n < 11 then some 1 else if n < 13 then some 2 else if n < 21 then some 3
  else if n < 23 then some 4 else if n = 23 then some 5 else none

/-- What stage 0 reads of a voltage monitor and of a temperature sensor. -/
def sweepVolt (seen : StageSeen) (n : Nat) : Nat := ((seen.volts.find? fun x => x.1.val = n).map (·.2)).getD (voltNominal n)
def sweepTemp (seen : StageSeen) (n : Nat) : Option (BitVec 12) := ((seen.temps.find? fun x => x.1.val = n).map (·.2)).getD (some (8 * 25))

/-- A reading outside a range. -/
def outside (r : Nat × Nat) (v : Nat) : Bool := decide (v < r.1) || decide (r.2 < v)

/-- The detail of the first fault of the sweep, in the order of the table of R580; the reference monitor, which has no row there, counts with the
die-side monitors (R555) (DESIGN CHOICE, log 197). -/
def sweepFault (seen : StageSeen) : Option Nat :=
  let v := sweepVolt seen
  let dieBad (n : Nat) : Bool := match dieRail n with
    | some r => decide (100 * v n < 97 * v (25 + r))
    | none => decide (n = 31) && outside (597, 603) (v n)
  let tempBad (n : Nat) : Bool := match sweepTemp seen n with
    | some t => decide (tempOf t < -160) || decide (1000 < tempOf t)
    | none => true
  ((List.range 6).filter (fun n => outside (railRange n) (v (25 + n)))
    ++ (if outside (1750, 1850) (v 24) then [6] else []) ++ (if outside (51000, 57000) (v 0) then [7] else [])
    ++ ((List.range 64).filter tempBad).map (0x100 + ·) ++ ((List.range 32).filter dieBad).map (0x200 + ·)).head?

/-- STAGE_0_POWER_SWEEP (R477, R479, R493, R580). -/
def execStage0PowerSweep (seen : StageSeen) : State → Host.Outcome State Fault Refusal :=
  act fun s => s.stageRow 0 (fun s => if s.pw.thermalTrip then s.waitFor 0 1 else s) fun s =>
    if s.pw.thermalTrip then s.waitFor 0 1
    else
      match sweepFault seen with
      | none => (s.agentOut seen.loopbackOk).stageEnd 0 rcPass 0
      | some v =>
        if !s.tow.agentOn ∧ (v = 2 ∨ v = 5 ∨ v = 6) then
          let s1 := (s.stageFailed 0 v).railsOff
          { s1 with rst := { s1.rst with cold := true } }
        else (s.agentOut seen.loopbackOk).stageFailed 0 v

/-- Step 1 of R525 (DESIGN CHOICE, log 46). -/
def hdrFormBad (h : List Byte) : Bool :=
  let f := hdrField h
  decide (f 31 0 ≠ 0x5746554B) || decide (f 63 48 ≠ 1) || decide (f 103 103 ≠ 0) || decide (f 111 107 ≠ 0) || decide (f 4095 1472 ≠ 0)
    || ((h.drop 3885).any fun b => b ≠ 0) || decide (f 105 104 = 0) || decide (f 287 256 % 4096 ≠ 0) || decide (50327552 < f 287 256)
    || decide (f 319 288 % 16 ≠ 0) || decide (f 319 288 < 16) || decide (50331648 < f 319 288)
    || (decide (f 703 320 = 0) && decide (f 105 104 ≠ 3))

/-- Steps 2 to 4 of R525: the code of the first that fails (DESIGN CHOICE, log 45). -/
def State.hdrCode (s : State) (h : List Byte) : Option Nat :=
  if hdrField h 47 32 ≠ 0x8130 then some 0x2
  else if !imageSigned h then some 0x3
  else if hdrField h 102 96 < s.fw.minSvn then some 0x4
  else none

/-- Why the image in a flash slot does not verify (R3, R480): an empty slot has no header. -/
def State.slotFails (s : State) (seen : StageSeen) (b : Bool) : Option Nat :=
  let i := if b then s.fw.slot1 else s.fw.slot0
  if if b then seen.flashBad.2 else seen.flashBad.1 then some 0x5
  else if !i.present ∨ hdrFormBad i.hdr then some 0x1
  else s.hdrCode i.hdr

/-- STAGE_1_ROM_BOOT (R480, R495): with both slots failing, the cause is that of the slot tried first (DESIGN CHOICE, log 193). -/
def execStage1RomBoot (seen : StageSeen) : State → Host.Outcome State Fault Refusal :=
  act fun s => s.stageRow 1 id fun s =>
    let a := s.fw.trial.getD s.fw.activeSlot
    let boot (b other : Bool) : State :=
      { s with boot := { s.boot with slot := b, otherSlot := other }, fw := { s.fw with running := b } }
    match s.slotFails seen a, s.slotFails seen !a with
    | none, _ => (boot a false).stageEnd 1 rcPass a.toNat
    | some _, none => (boot (!a) true).stageEnd 1 rcReduced ((!a).toNat + 2)
    | some k, some _ => s.stageFailed 1 k

/-- STAGE_2_FUSES (R477, R478, R500): bad fuse CRCs leave it without an end but FAILED; its detail is not stated, and 0xFFFF is given (DESIGN
CHOICE, log 59). The power controller starts with its end. -/
def execStage2Fuses (seen : StageSeen) : State → Host.Outcome State Fault Refusal :=
  act fun s => s.stageRow 2 id fun s =>
    if seen.fuseCrcOk then
      ({ s with
        ids := some (idKeysOf Config.uds)
        pw := { s.pw with trimNum := 1000, railTrim := List.replicate 6 1000, hist := [], lastStep := s.now } } : State).stageEnd 2 rcPass 0
    else s.stageFailed 2 0xFFFF

/-! ### Stage 3 (R130 to R135, R481) -/

/-- Physical channels that the fuses mark bad, by themselves or with their controller's mover (R481). -/
def fusedChannels : List Nat := Config.fuseBadChannels ++ Config.fuseBadMovers.flatMap fun m => (List.range 8).map fun k => 8 * m + k

/-- What package i answered (R130 step 1); none where it did not. -/
def seenPackage (seen : StageSeen) (i : Nat) : Option PackageSeen := seen.packages.getD i (some {})

/-- The package of a channel answers and reports 24 GiB (R130 step 1). -/
def packageOk (seen : StageSeen) (c : Nat) : Bool := (seenPackage seen (c / 8)).any fun p => p.gib = 24

/-- The saved values of a channel may stand in place of training (R131): on the warm path, or where vendor and revision match and the package
is within 15 °C of its temperature then. -/
def State.savedFits (s : State) (seen : StageSeen) (c : Nat) : Bool :=
  match lfind s.flash.trained c, seenPackage seen (c / 8) with
  | some t, some p => s.boot.warm || (t.vendor = p.vendor && t.revision = p.revision
      && decide ((p.temp.toInt - t.temp.toInt).natAbs ≤ 8 * 15))
  | _, _ => false

/-- A channel is trained in full: its saved values do not fit, or fail the read check (R131). -/
def State.trainsFull (s : State) (seen : StageSeen) (c : Nat) : Bool := !s.savedFits seen c || seen.readBad.any fun x => x.val = c

/-- The sources that condemn a channel: bit 0 fuse, 1 mode register, 2 training, 3 patterns, 4 fault record. -/
def State.channelMask (s : State) (seen : StageSeen) (c : Nat) : Nat :=
  let inSeen (l : List (Fin 256)) : Bool := s.trainsFull seen c && l.any fun x => x.val = c
  (fusedChannels.contains c).toNat + (!packageOk seen c).toNat * 2 + (inSeen seen.trainBad).toNat * 4 + (inSeen seen.patternBad).toNat * 8
    + (s.flash.faultChannels.contains c).toNat * 16

/-- The training values in flash after stage 3: those of each live channel that was trained in full are new (R131). -/
def State.savedTraining (s : State) (seen : StageSeen) (live : List Nat) : List (Nat × Training) :=
  let full := live.filter fun c => s.trainsFull seen c
  (s.flash.trained.filter fun e => !full.contains e.1) ++ full.map fun c =>
    let p := (seenPackage seen (c / 8)).getD {}
    let v := (seen.trained.find? fun e => e.1.val = c).map (·.2)
    (c, { values := v.getD [], vendor := p.vendor, revision := p.revision, serial := Config.serial, temp := p.temp })

/-- Pages of the capacity. -/
def State.pageCount (s : State) : Nat := s.capacity / pageSize

/-- The page ownership table after a compute warm reset (R134): pages held under key slot 0 are free and retained, all others enter
scrubbing. -/
def State.rebuildPages (s : State) : Sparse Page :=
  (List.range s.pageCount).map fun n =>
    let p := s.page n
    let held := (p.state = .owned || p.state = .shared) && p.keySlot = 0
    (n, if held then ({ retained := true } : Page) else { state := .scrubbing, lastSlot := if p.keySlot = 0 then p.lastSlot else p.keySlot })

/-- LPDDR6 zeroed, every line with tag key_slot 0 and key_gen 0, every page free (R130 step 5, R134). -/
def State.zeroLpddr (s : State) : State :=
  { s with mem := sclear s.mem 0 cellRegion, tags := [], pages := [] }

/-- STAGE_3_LPDDR6_TRAINING (R130, R131, R134, R135, R148, R481, R492). -/
def execStage3Lpddr6Training (seen : StageSeen) : State → Host.Outcome State Fault Refusal :=
  act fun s => s.stageRow 3 id fun s =>
    let bad := (List.range 256).filter fun c => decide (s.channelMask seen c ≠ 0)
    let live := (List.range 256).filter fun c => decide (s.channelMask seen c = 0)
    let s1 := s.unitsBad 3 (bad.map fun c => c + s.channelMask seen c * 2 ^ 8)
    let s2 : State := { s1 with
      maps := { s1.maps with live := live, badChannels := bad, memDone := true }
      flash := { s1.flash with trained := s.savedTraining seen live } }
    let s3 := if s.boot.warm ∧ live = s.maps.oldLive then { s2 with pages := s2.rebuildPages } else s2.zeroLpddr
    s3.stageEnd 3 (if 4 < bad.length then rcBelow else if bad.isEmpty then rcPass else rcReduced) (live.length + min 5 bad.length * 2 ^ 9)

/-! ### Stage 4 (R55, R59, R482 to R486, R492) -/

/-- The sources that condemn a physical cell before wave 0: bit 0 fuse, 1 fused maximum, 2 fault record. -/
def State.cellMask (s : State) (p : Nat) : Nat :=
  (Config.fuseBadCells.contains p).toNat + (decide (Config.fmaxMhz p < 1600)).toNat * 2 + (s.flash.faultCells.contains p).toNat * 4

/-- Stage 4 takes its fast form on a warm path whose image is that of the self-test record (R492). -/
def State.fastForm (s : State) : Bool := s.boot.warm && decide (s.flash.selftestDigest = some s.runImage.digest)

/-- WAVE_RELEASE (R483): wave w 200 µs × w after wave 0, in order. -/
def execWaveRelease (wave : Fin 9) : State → Host.Outcome State Fault Refusal :=
  act fun s =>
    if s.stageTurn 4 ∧ s.boot.phase ≠ .pending ∧ s.boot.waves = wave.val ∧ s.boot.waveAt + usTicks (200 * wave.val) ≤ s.now then
      { s with boot := { s.boot with waves := wave.val + 1 } }
    else s

/-- What stage 4 does with the physical cells (R56): those of the map are clocked and released; spares stay stopped and held, and bad ones are
cut from VCORE too. -/
def physCells (mapped bad : List Nat) : Sparse PhysCell :=
  (List.range 136).foldl (fun m p =>
    sset {} m p (if mapped.contains p then { clocked := true, held := false } else { powered := !bad.contains p })) []

/-- Logical cells stand before good physical ones again: what failed in service ends (R57, R87). -/
def State.cellsFresh (s : State) : State :=
  { s with cells := s.cells.foldl (fun m e => sset {} m e.1 { e.2 with failed := false, inReset := false }) [] }

/-- STAGE_4_CELLS (R482, R485, R486): the map, once the last wave has ended. -/
def execStage4Cells (seen : StageSeen) : State → Host.Outcome State Fault Refusal :=
  act fun s => s.stageRow 4
    (fun s => { s with boot := { s.boot with waves := 0, waveAt := s.now, fastCells := s.fastForm } })
    fun s =>
      if s.boot.waves < 9 then s
      else
        let fast := s.boot.fastCells
        let failed (p : Nat) : Bool := (s.cellMask p = 0 && seen.cellBad.any fun x => x.val = p) || (fast && s.flash.selftestBad.contains p)
        let mask (p : Nat) : Nat := s.cellMask p + (failed p).toNat * 8
        let all := List.range 136
        let good := all.filter fun p => decide (mask p = 0)
        let bad := all.filter fun p => decide (mask p ≠ 0)
        let spares := if good.length < 128 then 0 else good.length - 128
        let decode := (List.range 16).filter fun e => Config.fuseBadDecode.contains e || s.flash.faultDecode.contains e || seen.decodeBad.any fun x => x.val = e
        let ferry := Config.fuseFerryBad || seen.ferryBad
        let s1 := s.unitsBad 4 (bad.map (fun p => p + mask p * 2 ^ 8) ++ decode.map (fun e => 0x1000 + e) ++ if ferry then [0x2000] else [])
        let s2 : State := { s1 with
          maps := { s1.maps with
            cells := good.take 128, phys := physCells (good.take 128) bad, badCells := bad.map fun p => (p, BitVec.ofNat 4 (mask p)), good := good.length, spares := spares, cellsDone := true }
          boot := { s1.boot with decodeBad := decode, ferryBad := ferry, fastUsed := fast, stage4Done := true }
          flash := if fast then s1.flash
            else { s1.flash with selftestDigest := some s.runImage.digest, selftestBad := bad.filter failed } }
        s2.cellsFresh.stageEnd 4 (if good.length < 128 ∨ ferry then rcBelow else if bad.isEmpty then rcPass else rcReduced) (good.length + spares * 2 ^ 8)

/-- STAGE_5_MESH (R486, R488). -/
def execStage5Mesh (seen : StageSeen) : State → Host.Outcome State Fault Refusal :=
  act fun s => s.stageRow 5 id fun s =>
    let bad := sortBy id ((Config.fuseBadMesh ++ seen.meshBad.map (·.toNat)).eraseDups)
    let s1 := s.unitsBad 5 bad
    ({ s1 with boot := { s1.boot with meshBad := !bad.isEmpty } } : State).stageEnd 5 (if bad.isEmpty then rcPass else rcBelow) 0

/-! ### Stages 6 to 9 (R488 to R491) -/

/-- A port has trained, or has no cable to train over. -/
def State.portTried (s : State) (q : Nat) : Bool := !s.cabled q || decide ((s.port q).nextExchange ≠ 0) || (s.port q).held

/-- STAGE_6_PORTS (R488, R297): on the cold path every port with a cable trains; the stage ends with that and the tick count set. A pair
port that is down makes it REDUCED (DEDUCED, log 60). -/
def execStage6Ports (_seen : StageSeen) : State → Host.Outcome State Fault Refusal :=
  act fun s => s.stageRow 6
    (fun s =>
      let s1 := s.unitsBad 6 (sortBy id Config.fuseBadLanes.eraseDups)
      let s2 := if s.boot.warm then s1
        else forEach (List.range 7) (fun s q => if s.cabled q then s.updPort q fun p => { p with training := true } else s) s1
      if s2.time.tickSet then s2 else s2.waitFor 6 0x8000)
    fun s =>
      let s1 := s.waitFor 6 (if s.time.tickSet then 0 else 0x8000)
      if !s.time.tickSet ∨ !(s.boot.warm || (List.range 7).all s.portTried) then s1
      else
        let d := sumOf ((List.range 6).map fun q => if (s.port q).lanes < 8 then 2 ^ q else 0) + (!s.fab.pairUp).toNat * 2 ^ 6
        s1.stageEnd 6 (if d = 0 then rcPass else rcReduced) d

/-- STAGE_7_LINKS (R489): the Hawser link and the Ethernet ports tried once; addresses by DHCP, or from flash after 3 s. -/
def execStage7Links (seen : StageSeen) : State → Host.Outcome State Fault Refusal :=
  act fun s => s.stageRow 7 id fun s =>
    let eth := seen.ethUp.1 || seen.ethUp.2
    if eth ∧ !seen.dhcpOk ∧ !s.boot.dhcpFlash then s
    else
      let s1 := if 4 ≤ seen.hawserLanes ∧ !s.hst.up then s.trained (decide (seen.hawserLanes = 8)) seen.adapterPort else s
      let s2 : State := { s1 with
        ethUp := sset false (sset false s1.ethUp 0 seen.ethUp.1) 1 seen.ethUp.2
        ethAddr := if s.boot.dhcpFlash then s.flash.addr else sset 0 (sset 0 s1.ethAddr 0 seen.dhcpAddr.1) 1 seen.dhcpAddr.2
        hst := if s1.hst.up then s1.hst else { s1.hst with retryAt := s.now } }
      let d := s2.hst.up.toNat + seen.ethUp.1.toNat * 2 + seen.ethUp.2.toNat * 4 + s.boot.dhcpFlash.toNat * 8
      s2.stageEnd 7 (if d % 8 = 7 then rcPass else rcReduced) d

/-- DHCP_TIMEOUT (R489): no answer in 3 s; the addresses come from flash. -/
def execDhcpTimeout : State → Host.Outcome State Fault Refusal :=
  act fun s =>
    if s.stageTurn 7 ∧ s.boot.phase ≠ .pending ∧ s.boot.startedAt + msTicks 3000 ≤ s.now then
      { s with boot := { s.boot with dhcpFlash := true } }
    else s

/-- The module knows itself unplanned (R369, R373): its plan has no record for its position, or another serial (DEDUCED, log 61). -/
def State.unplanned (s : State) : Bool :=
  match s.flash.plan with
  | none => false
  | some p =>
    match planFind p s.ownEnd with
    | none => true
    | some i => let v := fieldNat (planRec p i) 191 64; decide (v ≠ 0) && decide (v ≠ Config.serial.toNat)

/-- Its router holds a version with a valid destination entry for the module itself. -/
def State.ownRoute (s : State) : Bool :=
  match s.self with
  | some m => bitAt (sget (0 : BitVec 32) (s.bank s.epoch).dest m) 0
  | none => false

/-- What stage 8 waits for (R490). -/
def State.joinWaits (s : State) : Nat := s.flash.plan.isNone.toNat + (!s.leaseLive).toNat * 2 + (!s.ownRoute).toNat * 4

/-- Bring-up stops until an operator acts (R490). -/
def State.hold8 (s : State) (quar : Bool) (detail : Nat) : State :=
  ({ s with boot := { s.boot with heldLatch := !quar, heldQuar := quar, ended := true, phase := .waiting } } : State).stageReport 8 rcHeld detail

/-- One look at the conditions of stage 8 (R490, R491). -/
def State.join (s : State) : State :=
  if s.flash.oosLatched then (if s.boot.heldLatch then s else (s.alertOn 0x03).hold8 false 0x10)
  else if s.unplanned then (if s.boot.heldQuar then s else s.hold8 true 0x08)
  else
    let s1 : State := if s.boot.heldQuar then { s with boot := { s.boot with heldQuar := false, ended := false } } else s
    let s2 := s1.waitFor 8 s1.joinWaits
    if s1.leaseLive ∧ s1.ownRoute then s2.stageEnd 8 rcPass 0 else s2

/-- STAGE_8_JOIN (R490, R491): the latch is read first; then PRESENT and partner records go out, and the stage waits. -/
def execStage8Join (_seen : StageSeen) : State → Host.Outcome State Fault Refusal :=
  act fun s =>
    (s.stageRow 8 (fun s =>
      if s.flash.oosLatched then s.join
      else (forEach (List.range 7) (fun s q => if (s.port q).lanes = 0 then s else s.sendRecord q) s.sendPresent).join) State.join).announce s

/-- STAGE_9_IN_SERVICE (R487, R491): a module at or above floor enters service and Headgate opens; one below floor never does. -/
def execStage9InService (_seen : StageSeen) : State → Host.Outcome State Fault Refusal :=
  act fun s =>
    (s.stageRow 9 (fun s =>
      let low := s.belowFloor
      let s1 := if low then s.alertOn 0x05 else s.alertOff 0x05
      let s2 : State := { s1 with
        boot := { s1.boot with ended := true, phase := .ended }, tt := { s1.tt with hgOpen := !low } }
      s2.stageReport 9 (if low then rcBelow else rcPass) 0) id).announce s

/-- The limits of stages 0 to 5 in ms (R478). -/
def stageLimit (n : Nat) : Nat := [1000, 5000, 1000, 10000, 10000, 1000].getD n 0

/-- STAGE_LIMIT_EXPIRY (R478): a stage 0 to 5 that passes its limit ends with FAILED, detail 0xFFFF. -/
def execStageLimitExpiry : State → Host.Outcome State Fault Refusal :=
  act fun s =>
    let n := s.boot.stage
    if s.stageTurn n ∧ n < 6 ∧ s.boot.phase = .started ∧ s.boot.startedAt + msTicks (stageLimit n) ≤ s.now then
      (if n = 0 then s.agentOut true else s).stageFailed n 0xFFFF
    else s

end Sys2Proof.Machine
end

