-- ==== Sys2Proof/Machine/FwUpdate.lean ====
section
/-! DEFINITION. Delta firmware update (19 R522 to R538): headers, the difference stream and its rebuild, activation and its pause,
confirmation and fallback, and the update state on the pair port. -/

namespace Sys2Proof.Machine

/-! ### The image header (R524, R525) -/

/-- The code of the first failing check of a header (R525). -/
def State.headerFails (s : State) (h : List Byte) : Option Nat :=
  if hdrFormBad h then some 0x1
  else
    match s.hdrCode h with
    | some c => some c
    | none =>
      if hdrField h 106 106 = 1 ∧ hdrField h 255 128 ≠ Config.serial.toNat then some 0x6
      else if hdrField h 703 320 ≠ 0 ∧ hdrField h 703 320 ≠ s.runImage.digest.toNat then some 0x7
      else none

/-! ### The difference stream (R526) -/

/-- The output of a difference stream over a base image, with what was written so far; none where it breaks a rule. -/
def applyStream : Nat → List Byte → List Byte → Bool → List Byte → Option (List Byte)
  | 0, _, _, _, _ => none
  | n + 1, base, st, full, out =>
    let f := bytesField (st.take 16)
    let op := f 7 0
    let len := f 95 64
    let src := f 127 96
    let rest := st.drop 16
    if st.length < 16 ∨ f 63 16 ≠ 0 ∨ (op ≠ 3 ∧ f 15 8 ≠ 0) ∨ (op ≠ 1 ∧ src ≠ 0) then none
    else if op = 4 then (if len = 0 ∧ rest.isEmpty then some out else none)
    else if len = 0 then none
    else if op = 1 then
      if full ∨ base.length < src + len then none else applyStream n base rest full (out ++ (base.drop src).take len)
    else if op = 2 then
      let padded := (len + 15) / 16 * 16
      if rest.length < padded ∨ ((rest.take padded).drop len).any (fun b => b ≠ 0) then none
      else applyStream n base (rest.drop padded) full (out ++ rest.take len)
    else if op = 3 then applyStream n base rest full (out ++ List.replicate len (BitVec.ofNat 8 (f 15 8)))
    else none

/-- The image that a header and its rebuilt bytes make. -/
def imageOf (h : List Byte) (bytes : List Byte) : FwImage :=
  { present := true, hdr := h, bytes := bytes }

/-- The rebuild of R529: the image, or the code of the step that fails. A flash error shows in step 3 (DEDUCED, log 72). -/
def State.rebuilt (s : State) (flashOk : Bool) : Except Nat FwImage :=
  let h := s.fw.header
  let st := joinGot s.fw.blocks
  if (sha384Nat st).toNat ≠ hdrField h 1471 1088 then .error 0x8
  else
    match applyStream (st.length + 1) s.runImage.bytes st (decide (hdrField h 703 320 = 0)) [] with
    | none => .error 0xA
    | some bs =>
      if bs.length ≠ hdrField h 287 256 then .error 0xA
      else if !flashOk then .error 0x5
      else if (sha384Nat bs).toNat ≠ hdrField h 1087 704 then .error 0x9
      else .ok (imageOf h bs)

/-! ### FW_BLOCK (R527 to R529) -/

/-- The update changed, its new state told to the partner (R531). -/
def State.setFw (s : State) (f : Update → Update) : State := ({ s with fw := f s.fw }).tellUpdate s

/-- Any session and any staged image are discarded; the slot that held the staged image is empty. -/
def Update.discard (u : Update) : Update :=
  let had := u.state = .receiving ∨ u.state = .staged
  let v : Update := { u with state := .idle, header := [], blocks := [], lastResult := if had then 3 else u.lastResult,
                             lastCode := if had then 0 else u.lastCode }
  if u.state = .staged then v.emptyOther else v

/-- Blocks of the stream that the header announces. -/
def Update.blocksTotal (u : Update) : Nat := ceilDiv (hdrField u.header 319 288) 65536

/-- Blocks of the stream still missing. -/
def Update.blocksMissing (u : Update) : Nat := u.blocksTotal - u.blocks.length

/-- The kind of a FW_BLOCK. -/
def fwKind (d : Line) : Nat := fieldNat d 193 192

/-- The field errors of FW_BLOCK under R255. -/
def fwBlockBad (d : Line) : Option Nat :=
  lowestBad [(128, fieldNat d 191 128 % 64 ≠ 0), (192, fwKind d = 3), (194, fieldNat d 223 194 ≠ 0),
    (224, if fwKind d = 1 then fieldNat d 255 224 % 65536 ≠ 0 else fieldNat d 255 224 ≠ 0),
    (256, (fwKind d = 0 && fieldNat d 287 256 ≠ 4096) || (fwKind d = 2 && fieldNat d 287 256 ≠ 0)), (288, fieldNat d 511 288 ≠ 0)]

/-- The rows of R528 that turn a FW_BLOCK away. -/
def State.fwTurned (s : State) (d : Line) : Option Done :=
  let off := fieldNat d 255 224
  let delta := hdrField s.fw.header 319 288
  if s.fw.state = .rebuilding ∨ s.fw.state = .activating ∨ s.fw.state = .awaiting then some { status := stBusy }
  else if fwKind d ≠ 1 then none
  else if s.fw.state ≠ .receiving then some { status := stRejected }
  else if delta ≤ off then some (badBit 224)
  else if fieldNat d 287 256 ≠ min 65536 (delta - off) then some (badBit 256)
  else none

/-- A header read (R525, R528). -/
def State.takeHeader (s : State) (sq slot : Nat) (d : Line) (h : List Byte) : State :=
  match s.headerFails h with
  | some c => (s.setFw fun u => { u with lastCode := BitVec.ofNat 8 c }).endDesc sq slot d { status := stSecDenied, detail := c }
  | none =>
    let s1 := s.setFw fun u => { u.discard with state := .receiving, header := h }
    s1.endDesc sq slot d { status := stOk, r0 := s1.fw.blocksTotal }

/-- A stream block read: written to the staging region, and where none is missing the rebuild runs. -/
def State.takeBlock (s : State) (sq slot : Nat) (d : Line) (bs : List Byte) : State :=
  let off := fieldNat d 255 224
  let s1 : State := { s with fw := { s.fw with blocks := (s.fw.blocks.filter fun b => b.1 ≠ off) ++ [(off, bs)] } }
  if s1.fw.blocksMissing = 0 then (s1.setFw fun u => { u with state := .rebuilding }).updJob sq slot fun _ => .rebuild
  else s1.endDesc sq slot d { status := stOk, r0 := s1.fw.blocksMissing }

/-- The bytes of a FW_BLOCK read: its outcome is decided as the update then stands (DEDUCED, log 73). -/
def State.fwBlockData (s : State) (sq slot : Nat) (d : Line) (bs : List Byte) : State :=
  match s.fwTurned d with
  | some r => s.endDesc sq slot d r
  | none => if fwKind d = 0 then s.takeHeader sq slot d bs else s.takeBlock sq slot d bs

/-- FW_BLOCK as it starts (R528). -/
def State.fwBlockStart (s : State) (sq slot : Nat) (d : Line) : State :=
  match fwBlockBad d with
  | some b => s.complete sq slot d (badBit b)
  | none =>
    match s.fwTurned d with
    | some r => s.complete sq slot d r
    | none =>
      if fwKind d = 2 then (s.setFw Update.discard).complete sq slot d { status := stOk }
      else s.startGather sq slot d (fieldNat d 191 128) (fieldNat d 287 256)

/-- FW_BLOCK with kind header (R525, R528); the reserved kind is answered here too. -/
def execFwBlockHeader (sq : Fin 256) : State → Host.Outcome State Fault Refusal :=
  act fun s => s.startRow sq 0x13 (fun d => fwKind d = 0 || fwKind d = 3) fun s slot d => s.fwBlockStart sq slot d

/-- FW_BLOCK with kind stream block (R528). -/
def execFwBlockStream (sq : Fin 256) : State → Host.Outcome State Fault Refusal :=
  act fun s => s.startRow sq 0x13 (fun d => fwKind d = 1) fun s slot d => s.fwBlockStart sq slot d

/-- FW_BLOCK with kind abort (R528). -/
def execFwBlockAbort (sq : Fin 256) : State → Host.Outcome State Fault Refusal :=
  act fun s => s.startRow sq 0x13 (fun d => fwKind d = 2) fun s slot d => s.fwBlockStart sq slot d

/-- The descriptor whose rebuild, or whose activate, is under way ends. -/
def State.endKind (s : State) (k : JobKind) (r : Done) : State :=
  match s.jobs.find? fun j => decide (j.kind = k) with
  | none => s
  | some j => s.finish j.sq j.slot r

/-- REBUILD_COMPLETE (R529). -/
def execRebuildComplete (flashOk : Bool) : State → Host.Outcome State Fault Refusal :=
  act fun s =>
    if s.fw.state ≠ .rebuilding then s
    else
      match s.rebuilt flashOk with
      | .error c =>
        (s.setFw fun u => { u.emptyOther with state := .idle, header := [], blocks := [], lastResult := 3, lastCode := BitVec.ofNat 8 c }).endKind
          .rebuild { status := stSecDenied, detail := c }
      | .ok img =>
        (s.setFw fun u =>
          let v : Update := if u.running then { u with slot0 := img } else { u with slot1 := img }
          { v with state := .staged, header := [], blocks := [], withUcode := bitAt img.sections 1 }).endKind .rebuild { status := stOk }

/-! ### FW_ACTIVATE and its pause (R530 to R532) -/

/-- The partner's update state: idle after 300 ms of silence, or with its link down (R531). -/
def State.partnerFw (s : State) : Nat :=
  if !s.fab.pairUp ∨ s.fw.partnerAt + msTicks 300 ≤ s.now then 0 else s.fw.partnerState.toNat

/-- No timetable instance is admitted or armed, no LAUNCH_OPEN and no trickle entry runs (R530). -/
def State.quiesced (s : State) : Bool :=
  s.tt.instances.isEmpty && s.tt.running.isEmpty && (s.jobs.all fun j => match j.kind with
    | .launch _ _ _ _ _ => false
    | _ => true)

/-- The staged image fails steps 2 to 4 of R525 or its target digest. -/
def State.stagedFails (s : State) : Option Nat :=
  let i := s.otherImage
  match s.hdrCode i.hdr with
  | some c => some c
  | none => if (sha384Nat i.bytes).toNat ≠ hdrField i.hdr 1087 704 then some 0x9 else none

/-- FW_ACTIVATE as it starts (R530). On the active Watermaster renewals stop, and the pause waits for the standby's epoch (R25 note
k). -/
def State.fwActivate (s : State) (sq slot : Nat) (d : Line) : State :=
  let kind := fieldNat d 129 128
  let off := decide (s.fw.state = .staged) && decide ((kind = 2) ≠ s.fw.withUcode)
  let partnerBusy := decide (s.partnerFw = 4) || decide (s.partnerFw = 5)
  match lowestBad [(128, kind = 0 || kind = 3 || off), (130, fieldNat d 511 130 ≠ 0)] with
  | some b => s.complete sq slot d (badBit b)
  | none =>
    if s.fw.state ≠ .staged then s.complete sq slot d { status := stRejected }
    else if s.rst.replay.isSome then s.complete sq slot d { status := stBusy, detail := 1 }
    else if partnerBusy ∧ (s.fab.pairUser = 1 ∨ (kind = 2 ∧ s.twin)) then s.complete sq slot d { status := stBusy, detail := 2 }
    else if kind = 2 ∧ !s.quiesced then s.complete sq slot d { status := stBusy, detail := 3 }
    else
      match s.stagedFails with
      | some c =>
        (s.setFw fun u => { u.emptyOther with state := .idle, lastResult := 3, lastCode := BitVec.ofNat 8 c }).complete sq slot d
          { status := stSecDenied, detail := c }
      | none =>
        let s1 := s.startJob sq slot d .activate
        let s2 := s1.setFw fun u => { u with
          state := .activating, stateBefore := BitVec.ofNat 8 s.stateCode, hawserWasUp := s.hst.up,
          hadRole := decide (s.wm.role ≠ .none), ucodeBad := false, falling := false }
        if s.wm.role = .active then { s2 with fw := { s2.fw with pauseWait := true } } else s2.beginPause

/-- FW_ACTIVATE (R530). -/
def execFwActivate (sq : Fin 256) : State → Host.Outcome State Fault Refusal :=
  act fun s => s.startRow sq 0x14 (fun _ => true) fun s slot d => s.fwActivate sq slot d

/-! ### What gathered host data does -/

/-- The bytes of a gathering descriptor are all read: what its opcode does with them. -/
def State.gathered (s : State) (sq slot : Nat) : State :=
  match s.job sq slot with
  | none => s
  | some j =>
    match j.kind with
    | .gather need _ _ got =>
      let bs := joinGot got
      if bs.length < need then s
      else
        match fieldNat j.desc 7 0 with
        | 0x03 => s.loadProgram sq slot j.desc bs
        | 0x16 => if s.hst.paused then s else s.createDone sq slot j.desc (hostWindows bs)
        | 0x10 => if s.hst.paused then s else s.askInstall sq slot j.desc bs
        | 0x13 => if s.hst.paused then s else s.fwBlockData sq slot j.desc bs
        | _ => s
    | _ => s

/-- ACTIVATE_PAUSE_END (R532): the image runs, cells whose microcode did not match twice are recorded as failed, and what waited goes on;
the step records of periods that ended in it are written; a pause that falls back ends with the old image (R536). -/
def execActivatePauseEnd (badCells : List (Fin 128)) : State → Host.Outcome State Fault Refusal :=
  act fun s =>
    if !s.hst.paused then s
    else
      let s1 : State := { s with hst := { s.hst with paused := false }, tt := { s.tt with hgPause := false } }
      let s2 :=
        if s.fw.falling then s1.setFw fun u => u.fellBack u.lastCode
        else
          let bad := if s.fw.withUcode then badCells else []
          let s0 := forEach bad (fun s c => s.failCell c.val) s1
          let s3 := s0.setFw fun u =>
            let v : Update := { u with state := .awaiting, running := u.trial.getD u.running, ucodeBad := !bad.isEmpty,
                                       confirmUntil := s.now + msTicks (1000 * clamp 30 300 (s.fld 0xB00010 0 9)) }
            { v with oldFormat := decide (v.slot0.fmt ≠ v.slot1.fmt) }
          s3.endKind .activate { status := stOk, r0 := (s.now - s.fw.pauseAt) / usTicks 1, r1 := s3.runImage.version.toNat }
      let s4 := forEach (s2.jobs.map fun j => (j.sq, j.slot)) (fun s j => s.gathered j.1 j.2) s2
      ((((s4.nextRemoval (s4.removeQueue.length + 1)).settleAll).pumpReplay).fetch).announce s

/-! ### Confirmation and fallback (R534 to R536) -/

/-- The row of R22 that a state code stands in; quarantine holds a module in no row of its own. -/
def rowOf (code : Nat) : Nat :=
  match code with
  | 4 => 2
  | 5 => 3
  | 3 => 4
  | 2 => 5
  | _ => 6

/-- The state is that before the pause, or a later row of R22. -/
def State.stateHealthy (s : State) : Bool := decide (rowOf s.fw.stateBefore.toNat ≤ rowOf s.stateCode)

/-- The Hawser link is up if it was. -/
def State.hawserHealthy (s : State) : Bool := !s.fw.hawserWasUp || (s.hst.up && !s.hst.inReset)

/-- A member that held a role is SYNCED or holds the lease. -/
def State.roleHealthy (s : State) : Bool := !s.fw.hadRole || decide (s.wm.role = .synced) || decide (s.wm.role = .active)

/-- CONFIRMATION (R534, R535): in its window, with every condition met, the trial slot becomes the active one. -/
def execConfirmation : State → Host.Outcome State Fault Refusal :=
  act fun s =>
    if s.fw.state ≠ .awaiting ∨ s.fw.confirmUntil < s.now ∨ s.frz.frozen ∨ s.rst.cold ∨ s.rst.warm then s
    else if !s.stateHealthy ∨ !s.hawserHealthy ∨ s.fw.ucodeBad ∨ !s.roleHealthy then s
    else s.setFw fun u => { u.emptyOther with
      state := .idle, activeSlot := u.running, trial := none, minSvn := max u.minSvn (if u.running then u.slot1.svn else u.slot0.svn),
      lastResult := 1, lastCode := 0, oldFormat := false }

/-- The module falls back with a cause: through a pause, or with microcode through a compute warm reset that boots the old slot. -/
def State.fallBack (s : State) (code : BitVec 8) : State :=
  if s.fw.withUcode then (s.setFw fun u => u.fellBack code).requestReset .compute 0x06 [] true false
  else
    let s1 := s.setFw fun u => { u with state := .activating, falling := true, lastResult := 2, lastCode := code, pauseAt := s.now }
    ({ s1 with hst := { s1.hst with paused := true }, tt := { s1.tt with hgPause := true } } : State).announce s

/-- CONFIRM_WINDOW_EXPIRY (R536): the window ends unconfirmed, or a check fails that cannot clear: a state that only a reset leaves, or
microcode that does not match. The cause is the check that fails at that moment (DEDUCED, log 64). -/
def execConfirmWindowExpiry : State → Host.Outcome State Fault Refusal :=
  act fun s =>
    let over_ := decide (s.fw.confirmUntil ≤ s.now)
    if s.fw.state ≠ .awaiting ∨ s.frz.frozen ∨ s.rst.cold ∨ s.rst.warm then s
    else if !s.stateHealthy then s.fallBack 0x11
    else if s.fw.ucodeBad then s.fallBack 0x13
    else if !over_ then s
    else if !s.hawserHealthy then s.fallBack 0x12
    else s.fallBack 0x10

/-! ### FW_STATUS (R538) -/

/-- The 128-byte report. -/
def State.fwStatusBytes (s : State) : List Byte :=
  let u := s.fw
  let r := s.runImage
  let o := s.otherImage
  let rec_ := decide (u.state = .receiving)
  let left := if u.state = .awaiting then ceilDiv (u.confirmUntil - s.now) (msTicks 1000) else 0
  leBytes 128 (u.state.code + u.running.toNat * 2 ^ 3 + u.lastResult.toNat * 2 ^ 4 + u.lastCode.toNat * 2 ^ 8
    + (decide (u.state = .staged) && u.withUcode).toNat * 2 ^ 16 + r.version.toNat * 2 ^ 32 + r.svn % 2 ^ 7 * 2 ^ 64
    + u.minSvn % 2 ^ 7 * 2 ^ 72 + o.version.toNat * 2 ^ 96 + o.svn % 2 ^ 7 * 2 ^ 128
    + (if rec_ then u.blocksMissing % 2 ^ 16 else 0) * 2 ^ 144 + (if rec_ then u.blocksTotal % 2 ^ 16 else 0) * 2 ^ 160
    + left % 2 ^ 16 * 2 ^ 176 + r.fmt % 2 ^ 16 * 2 ^ 192 + o.fmt % 2 ^ 16 * 2 ^ 208 + r.digest.toNat * 2 ^ 256 + o.digest.toNat * 2 ^ 640)

/-- FW_STATUS (R538). -/
def execFwStatus (sq : Fin 256) : State → Host.Outcome State Fault Refusal :=
  act fun s => s.startRow sq 0x15 (fun _ => true) fun s slot d =>
    match lowestBad [(128, fieldNat d 191 128 % 64 ≠ 0), (192, fieldNat d 207 192 < 128), (208, fieldNat d 511 208 ≠ 0)] with
    | some b => s.complete sq slot d (badBit b)
    | none => s.reportOut sq slot d (fieldNat d 191 128) s.fwStatusBytes 128 0

/-! ### UPDATE_STATE (R531) -/

/-- UPDATE_STATE from the pair partner: a message of another form is ignored. -/
def execUpdateState (msg : BitVec 128) : State → Host.Outcome State Fault Refusal :=
  act fun s =>
    if s.agentUp ∧ s.fab.pairUp ∧ fieldNat msg 7 0 = 0x10 ∧ fieldNat msg 127 11 = 0 ∧ fieldNat msg 10 8 ≤ 5 then
      { s with fw := { s.fw with partnerState := BitVec.ofNat 3 (fieldNat msg 10 8), partnerAt := s.now } }
    else s

/-- UPDATE_STATE_TIMER: every 100 ms while the update is not idle. -/
def execUpdateStateTimer : State → Host.Outcome State Fault Refusal :=
  act fun s => if s.agentUp ∧ s.fw.state ≠ .idle ∧ s.fw.nextUpdate ≤ s.now then s.sendUpdate else s

end Sys2Proof.Machine
end

