-- ==== Sys2Proof/Machine/Console.lean ====
section
/-! DEFINITION. Monitors, the service console, read-out and JTAG, LEDs and test points (21 R554 to R561, R563 to R569; 18 R510, R511). -/

namespace Sys2Proof.Machine

/-! ### Replies of the console (R559)

The spec gives what each command shows and not the words of its lines; those are the model's (DESIGN CHOICE, log 65). -/

/-- The console is served while aux is present. -/
def State.consoleUp (s : State) : Bool := decide (s.rail .aux = .good)

/-- The lines of a reply, its last line, and the prompt. -/
def State.replyWith (s : State) (lines : List String) (last : String) : State :=
  { s with uart := s.uart ++ lines ++ [last, "ktm> "] }

/-- The reply ERR with a code and words. -/
def State.replyErr (s : State) (code : Nat) : State :=
  s.replyWith [] (match code with
    | 1 => "ERR 01 unknown command"
    | 2 => "ERR 02 bad argument"
    | 3 => "ERR 03 refused in confidential mode"
    | 4 => "ERR 04 refused in this state"
    | 5 => "ERR 05 confirmation missing"
    | _ => "ERR 06 busy")

/-- A command that only shows lines. -/
def showLines (f : State → List String) : State → Host.Outcome State Fault Refusal :=
  act fun s => if s.consoleUp then s.replyWith (f s) "OK" else s

/-- A name and a number. -/
def item (name : String) (v : Nat) : String := name ++ " " ++ toString v

/-- A name and a truth value. -/
def flag (name : String) (b : Bool) : String := name ++ (if b then " yes" else " no")

/-- A register by its offset, as two words. -/
def State.regLine (s : State) (off : Nat) : String := hex 6 off ++ " " ++ hexWord (s.readReg off).toNat

/-! ### What the commands show (R554 to R558, R560) -/

/-- The commands of R560. -/
def helpLines : List String :=
  ["help", "ver", "stage", "stage log", "state", "temp", "volt", "proc", "power", "rails", "ports", "fab", "mem", "eng", "cells",
   "selftest cell p", "selftest decode e", "selftest mem c", "dump addr len", "oos clear confirm", "reset warm confirm",
   "reset cold confirm", "freeze confirm", "readout", "led test"]

/-- The readings shown: those latched at the freeze while the module is frozen (R560). -/
def State.shownMon (s : State) : Monitors := if s.frz.frozen then s.frz.snapMon else s.mon

/-- A monitor's reading with its extremes; nothing where none has been taken. -/
def showReading (name : String) (now lo hi : Sparse Nat) (n : Nat) : String :=
  item name n ++ if sget 0 now n = 0 then " none"
    else " " ++ toString (sget 0 now n) ++ " min " ++ toString (sget 0 lo n) ++ " max " ++ toString (sget 0 hi n)

/-- ver. -/
def State.verLines (s : State) : List String :=
  ["serial " ++ hex 32 Config.serial.toNat, "slot 0 " ++ hexWord s.fw.slot0.version.toNat, "slot 1 " ++ hexWord s.fw.slot1.version.toNat,
   item "svn" s.runImage.svn, item "min_svn" s.fw.minSvn, "GEN_ID " ++ hexWord (s.readReg 0).toNat]

/-- stage log. -/
def State.stageLogLines (s : State) : List String := (List.range 64).map fun i => stageLine (sget 0 s.boot.log i).toNat

/-- The state of R22 in words. -/
def State.stateName (s : State) : String :=
  if s.frz.frozen then "frozen"
  else if s.rst.cold then "cold reset"
  else
    match s.stateCode with
    | 0x04 => "compute warm reset"
    | 0x05 => "firmware activate pause"
    | 0x03 => "out of service (latched)"
    | 0x02 => "below floor"
    | 0x06 => "bring-up"
    | _ => "in service"

/-- state: the state of R22, what the agent holds, and the alerts. -/
def State.stateLines (s : State) : List String :=
  [s.stateName, flag "lease" s.leaseLive, item "epoch" s.agent.epoch.toNat, item "holder" s.agent.holder.toNat,
   item "plan" (match s.flash.plan with
     | some p => planRev p
     | none => 0), item "slice" s.ownSlice] ++ s.tow.alerts.map fun a => "ALERT " ++ hex 2 a.toNat

/-- temp: every sensor with its least and greatest reading since cold reset. A board reading above its limit shows cooling (R554). -/
def State.tempLines (s : State) : List String :=
  let ts := if s.frz.frozen then s.frz.snapTemps else s.pw.temps
  (List.range 64).map fun n =>
    let v := sget (0 : BitVec 13) ts n
    let t := tempOf (v.truncate 12)
    let hot := bitAt v 12 && decide (48 ≤ n) && (decide (8 * 100 < t) || (n = 62 && decide (8 * 40 < t)))
    item "sensor" n ++ (if bitAt v 12 then " " ++ toString t ++ " min " ++ toString (tempOf (sget 0 s.pw.tempMin n)) ++ " max "
      ++ toString (tempOf (sget 0 s.pw.tempMax n)) else " none") ++ if hot then " cooling" else ""

/-- The reference check of the voltage monitors: 0.600 V within 3 mV (R555). -/
def State.monSuspect (s : State) : Bool :=
  let r := sget 0 s.shownMon.volts 31
  decide (r ≠ 0) && (decide (r < 597) || decide (603 < r))

/-- volt. -/
def State.voltLines (s : State) : List String :=
  let m := s.shownMon
  (List.range 32).map fun n => showReading "monitor" m.volts m.voltMin m.voltMax n ++ if s.monSuspect then " suspect" else ""

/-- proc: beside the frequency fused for each, scaled to the operating point and the hottest island; a monitor more than 5% below it is slow (R556)
(DESIGN CHOICE, log 197). -/
def State.procLines (s : State) : List String :=
  let m := s.shownMon
  (List.range 24).map fun n =>
    let f := Config.ringFused n s.pw.op (s.domainTemp .compute)
    let v := sget 0 m.rings n
    showReading "ring" m.rings m.ringMin m.ringMax n ++ " fused " ++ toString f ++ if decide (v ≠ 0) && decide (100 * v < 95 * f) then " slow" else ""

/-- The greatest valid reading of a range of sensors. -/
def State.hottest (s : State) (lo hi : Nat) : String :=
  match s.readings lo hi with
  | [] => "none"
  | t :: ts => toString (ts.foldl max t)

/-- Where the cap comes from (R418). -/
def State.capSource (s : State) : String :=
  if s.perRail then "rail"
  else if s.powerCap = 1300 then "1,300 W"
  else
    match s.agent.share with
    | some _ => "share"
    | none => "boot"

/-- power: the report of chapter 15. -/
def State.powerLines (s : State) : List String :=
  [item "E" (s.pw.est / 1000), item "A" (s.pw.est1ms / 1000)] ++ s.pw.shares.zipIdx.map (fun x => item (item "domain" x.2) (x.1 / 1000)) ++
  [item "cap" s.powerCap ++ " " ++ s.capSource, item "op" s.pw.op ++ " " ++ item "issue" s.pw.issue ++ " " ++ item "memory" s.pw.mem,
   flag "trickle shed" s.pw.shed, flag "Headgate held closed" s.tt.hgPower, item "trim" s.pw.trimNum, flag "estimator fault" s.pw.estFault,
   "islands " ++ s.hottest 0 16, "compute " ++ s.hottest 16 32, "agent " ++ s.hottest 32 40, "mesh " ++ s.hottest 40 48, "board " ++ s.hottest 48 64,
   flag "thermal hold" s.pw.thermalHold, flag "trip" (s.pw.thermalTrip || s.pw.agentTrip), flag "ALERT_N low" !s.sup.alertN,
   item "alerts" s.pw.alertCount, item "storms" s.pw.storms, flag "cap not met" s.pw.capNotMet, item "rails over limit" s.pw.railOver.toNat] ++
  (List.range 16).map fun g =>
    item (item "droops of group" g) (s.pw.droopLog.filter fun d => decide (s.now < d.1 + msTicks 1000 ∧ d.2 = g)).length

/-- The readings that R569 expects at a test point, in mV: from, to. -/
def State.testPoint (s : State) (r : Rail) : Nat × Nat :=
  if r ≠ .aux ∧ s.rail r = .off then (0, 50)
  else
    match r with
    | .aux => (3200, 3400)
    | .vser => (880, 920)
    | .vsram => (780, 820)
    | .vcore => (Config.vcoreMv s.pw.op - 15, Config.vcoreMv s.pw.op + 15)
    | .vddq => (485, 515)
    | .vpp => (1750, 1850)

/-- The regulator-output monitor of a rail (R555, R576). -/
def railMon (r : Rail) : Nat := 25 + railIndex r

/-- rails: every test point beside its monitor. -/
def State.railLines (s : State) : List String :=
  let line (name : String) (lo hi mon : Nat) : String :=
    name ++ " " ++ toString lo ++ " to " ++ toString hi ++ " monitor " ++ toString (sget 0 s.shownMon.volts mon)
  line "TP_54V" 51000 57000 0 :: line "TP_AUX18" 1750 1850 24 ::
    [("TP_AUX33", Rail.aux), ("TP_VSER", .vser), ("TP_VSRAM", .vsram), ("TP_VCORE", .vcore), ("TP_VDDQ", .vddq), ("TP_VPP", .vpp)].map
      fun x => line x.1 (s.testPoint x.2).1 (s.testPoint x.2).2 (railMon x.2)

/-- ports: lanes, lane set, cable, partner, held. -/
def State.portLines (s : State) : List String :=
  (List.range 7).map fun n =>
    let p := s.port n
    item "port" n ++ " " ++ item "lanes" p.lanes ++ " set " ++ hex 2 p.mask.toNat ++ " " ++ item "cm" p.cableCm ++ " partner "
      ++ hex 32 (fieldNat p.partner 191 64) ++ " " ++ item "at" (fieldNat p.partner 236 234) ++ " " ++ flag "held" p.held

/-- The counts that fab, mem and eng show (R557). -/
def fabOffsets : List Nat :=
  (List.range 56).map (fun i => 0x702100 + 4 * i) ++ [0x702040, 0x702044, 0x702048, 0x70204C, 0x700048, 0x70004C]
    ++ (List.range 6).flatMap (fun i => [0x701000 + 16 * i, 0x701004 + 16 * i]) ++ [0x702024]
def memOffsets : List Nat := (List.range 32).map fun i => 0x200100 + 4 * i
def engOffsets : List Nat := [0x500050, 0x500054, 0x600040, 0x900040, 0x400040, 0x900050, 0x900054, 0x900058, 0x90005C, 0x900030]

/-- cells: the map, the spares, and the bad cells with their source masks. -/
def State.cellLines (s : State) : List String :=
  s.maps.cells.zipIdx.map (fun x => item "logical" x.2 ++ " " ++ item "physical" x.1)
    ++ ((List.range 136).filter fun p => s.maps.cellsDone && !s.maps.cells.contains p && s.maps.badCells.all fun b => b.1 ≠ p).map (item "spare")
    ++ s.maps.badCells.map fun b => item "bad" b.1 ++ " mask " ++ hex 1 b.2.toNat

/-- CONSOLE_HELP. -/
def execConsoleHelp : State → Host.Outcome State Fault Refusal := showLines fun _ => helpLines

/-- CONSOLE_VER. -/
def execConsoleVer : State → Host.Outcome State Fault Refusal := showLines State.verLines

/-- CONSOLE_STAGE. -/
def execConsoleStage : State → Host.Outcome State Fault Refusal := showLines fun s => [stageLine s.boot.report.toNat]

/-- CONSOLE_STAGE_LOG. -/
def execConsoleStageLog : State → Host.Outcome State Fault Refusal := showLines State.stageLogLines

/-- CONSOLE_STATE. -/
def execConsoleState : State → Host.Outcome State Fault Refusal := showLines State.stateLines

/-- CONSOLE_TEMP. -/
def execConsoleTemp : State → Host.Outcome State Fault Refusal := showLines State.tempLines

/-- CONSOLE_VOLT. -/
def execConsoleVolt : State → Host.Outcome State Fault Refusal := showLines State.voltLines

/-- CONSOLE_PROC. -/
def execConsoleProc : State → Host.Outcome State Fault Refusal := showLines State.procLines

/-- CONSOLE_POWER. -/
def execConsolePower : State → Host.Outcome State Fault Refusal := showLines State.powerLines

/-- CONSOLE_RAILS. -/
def execConsoleRails : State → Host.Outcome State Fault Refusal := showLines State.railLines

/-- CONSOLE_PORTS. -/
def execConsolePorts : State → Host.Outcome State Fault Refusal := showLines State.portLines

/-- CONSOLE_FAB. -/
def execConsoleFab : State → Host.Outcome State Fault Refusal := showLines fun s => fabOffsets.map s.regLine

/-- CONSOLE_MEM. -/
def execConsoleMem : State → Host.Outcome State Fault Refusal := showLines fun s => memOffsets.map s.regLine

/-- CONSOLE_ENG. -/
def execConsoleEng : State → Host.Outcome State Fault Refusal := showLines fun s => engOffsets.map s.regLine

/-- CONSOLE_CELLS. -/
def execConsoleCells : State → Host.Outcome State Fault Refusal := showLines State.cellLines

/-! ### Service self-tests (R561) -/

/-- No context other than 0 exists. -/
def State.noContexts (s : State) : Bool := s.ctxs.all fun e => !e.2.live || decide (e.1 = 0)

/-- The logical cell on a physical one. -/
def State.logicalOf (s : State) (p : Nat) : Option Nat := (s.maps.cells.zipIdx.find? fun x => x.1 = p).map (·.2)

/-- A self-test of physical cell p is allowed. -/
def State.cellTestable (s : State) (p : Nat) : Bool :=
  let free := s.belowFloor || s.flash.oosLatched || s.noContexts
  !Config.fuseBadCells.contains p && (free || match s.logicalOf p with
    | some c => (s.cell c).failed
    | none => s.maps.cellsDone && s.maps.badCells.all fun b => b.1 ≠ p)

/-- What a self-test leaves in memory is not stated: free values (DESIGN CHOICE, log 66). -/
def State.scramble (s : State) (as_ : List Nat) : State :=
  forEach as_ (fun (s : State) a =>
    let f := s.free 8
    { f.1 with mem := sset 0 f.1.mem a f.2 }) s

/-- A self-test with its result; refused in confidential mode and while frozen, and on a unit that carries work (DESIGN CHOICE, log 76). -/
def selfTest (ok : State → Bool) (run fail : State → State) (pass : Bool) : State → Host.Outcome State Fault Refusal :=
  act fun s =>
    if !s.consoleUp then s
    else if s.confMode then s.replyErr 3
    else if s.frz.frozen ∨ s.rst.cold ∨ s.rst.warm ∨ !ok s then s.replyErr 4
    else if pass then (run s).replyWith ["pass"] "OK"
    else ({ fail (run s) with selftestFailed := true } : State).replyWith ["fail"] "OK"

/-- One number added to a list that lacks it. -/
def addNew (l : List Nat) (x : Nat) : List Nat := if l.contains x then l else l ++ [x]

/-- CONSOLE_SELFTEST_CELL (R561): the stage 4 self-test on physical cell p. -/
def execConsoleSelftestCell (p : Fin 136) (pass : Bool) : State → Host.Outcome State Fault Refusal :=
  selfTest (fun s => s.cellTestable p)
    (fun s => match s.logicalOf p with
      | some c => s.scramble ((List.range 0x200000).map fun a => cellAddr c a)
      | none => s)
    (fun s => { s with flash := { s.flash with faultCells := addNew s.flash.faultCells p } }) pass

/-- CONSOLE_SELFTEST_DECODE (R561): the known-answer test on decode engine e. -/
def execConsoleSelftestDecode (e : Fin 16) (pass : Bool) : State → Host.Outcome State Fault Refusal :=
  selfTest (fun s => s.streams.all fun x => x.engine ≠ e.val) id
    (fun s => { s with flash := { s.flash with faultDecode := addNew s.flash.faultDecode e } }) pass

/-- CONSOLE_SELFTEST_MEM (R561): the patterns of R130 on physical channel ch. -/
def execConsoleSelftestMem (ch : Fin 256) (pass : Bool) : State → Host.Outcome State Fault Refusal :=
  selfTest (fun s => s.noContexts || !s.maps.live.contains ch.val)
    (fun s => if s.maps.live.contains ch.val then s.scramble ((List.range s.capacity).filter fun a => channelOf s.maps.live a = ch.val) else s)
    (fun s => { s with flash := { s.flash with faultChannels := addNew s.flash.faultChannels ch } }) pass

/-! ### dump (R560) -/

/-- A line of bytes in hex. -/
def hexBytes (bs : List Byte) : String := bs.foldl (fun t b => t ++ hex 2 b.toNat) ""

/-- The bytes of a dump: a byte of a line with a memory error is shown as two dashes, so that no bad data leaves unmarked (R138). The form of the
mark is the model's (DESIGN CHOICE, log 173). -/
def hexMarked (bs : List (Option Byte)) : String := bs.foldl (fun t b => t ++ (match b with
  | some b => hex 2 b.toNat
  | none => "--")) ""

/-- LPDDR6 bytes read for the console, which holds no key: lines go through R124 as for key slot 0, zeros stand for a tag mismatch, and none for
a memory error. -/
def State.dumpLines (s : State) (a len : Nat) : State × List (Option Byte) :=
  (linesOf a len).foldl (fun r ln =>
    let n := min (a + len) (ln + 64) - max a ln
    match r.1.readLine 0 0 false ln with
    | (s', .data bs) => (s', r.2 ++ (((bs.take (a + len - ln)).drop (a - ln)).map some))
    | (s', .bad) => (s', r.2 ++ List.replicate n none)
    | (s', .stale) => (s', r.2 ++ List.replicate n (some 0))) (s, [])

/-- The bytes that dump shows; none where the address is no cell memory, LPDDR6 or register. Registers are shown as REG_RD gives them. -/
def State.dumpBytes (s : State) (a len : Nat) : Option (State × List (Option Byte)) :=
  if a + len ≤ s.capacity ∨ (inCells a && decide (a + len ≤ 0xF00010000000)) then some (s.dumpLines a len)
  else if regionOf a = .regs ∧ a % 4 = 0 ∧ len % 4 = 0 ∧ a + len ≤ 0xFF0004000000 then
    some (s, (List.range (len / 4)).flatMap fun i => (leBytes 4 (s.readReg (a - 0xFF0000000000 + 4 * i)).toNat).map some)
  else none

/-- CONSOLE_DUMP (R510, R560): refused while frozen, and in confidential mode but for registers. -/
def execConsoleDump (addr : BitVec 48) (len : Nat) : State → Host.Outcome State Fault Refusal :=
  act fun s =>
    if !s.consoleUp then s
    else if s.confMode ∧ regionOf addr.toNat ≠ .regs then s.replyErr 3
    else if s.frz.frozen ∨ s.rst.cold then s.replyErr 4
    else
      match s.dumpBytes addr.toNat len with
      | none => s.replyErr 2
      | some (t, bs) => t.replyWith ((chunks 32 bs).map hexMarked) "OK"

/-! ### Commands that act (R560, R463, R562, R567) -/

/-- A command that needs its last word to be confirm. -/
def confirmed (confirm : Bool) (f : State → State) : State → Host.Outcome State Fault Refusal :=
  act fun s => if !s.consoleUp then s else if !confirm then s.replyErr 5 else f s

/-- CONSOLE_OOS_CLEAR (R463): refused while frozen. -/
def execConsoleOosClear (confirm : Bool) : State → Host.Outcome State Fault Refusal :=
  confirmed confirm fun s => if s.frz.frozen then s.replyErr 4 else (s.clearLatch).replyWith [] "OK"

/-- CONSOLE_RESET_WARM (R445, R462): cause firmware, one event; refused while frozen. -/
def execConsoleResetWarm (confirm : Bool) : State → Host.Outcome State Fault Refusal :=
  confirmed confirm fun s =>
    if s.frz.frozen ∨ s.rst.cold then s.replyErr 4 else (s.requestReset .compute 0x06 [] true false).replyWith [] "OK"

/-- CONSOLE_RESET_COLD (R461, R567): it ends a freeze. -/
def execConsoleResetCold (confirm : Bool) : State → Host.Outcome State Fault Refusal :=
  confirmed confirm fun s => if s.rst.cold then s.replyWith [] "OK" else (s.startCold false false).replyWith [] "OK"

/-- CONSOLE_FREEZE (R562): no effect while frozen. -/
def execConsoleFreeze (confirm : Bool) : State → Host.Outcome State Fault Refusal :=
  confirmed confirm fun s => (s.freezeNow 0x03).replyWith [] "OK"

/-- CONSOLE_LED_TEST (R560): each of the four LEDs is lit for 1 s, then the pattern returns. -/
def execConsoleLedTest : State → Host.Outcome State Fault Refusal :=
  act fun s => if s.consoleUp then ({ s with ledTestEnd := s.now + 4 * msTicks 1000 } : State).replyWith [] "OK" else s

/-! ### Read-out (R511, R563, R565) -/

/-- Bytes cut or padded with zeros to a size. -/
def fit (n : Nat) (bs : List Byte) : List Byte := bs.take n ++ List.replicate (n - bs.length) 0

/-- Section 1, 64 bytes. The order of fields inside a section is the model's (DESIGN CHOICE, log 67). -/
def State.section1 (s : State) : List Byte :=
  fit 64 (leBytes 16 Config.serial.toNat ++ leBytes 4 s.runImage.version.toNat ++ leBytes 4 s.frz.cause.toNat ++ leBytes 8 s.frz.tick
    ++ leBytes 1 s.frz.conf.toNat)

/-- Section 2, 256 bytes: the log holds all of them, and GEN_BOOT follows in section 5. -/
def State.section2 (s : State) : List Byte := fit 256 ((List.range 64).flatMap fun i => leBytes 4 (sget 0 s.boot.log i).toNat)

/-- One cell fault record (R117). -/
def faultBytes (f : FaultRec) : List Byte :=
  leBytes 1 f.ctx.toNat ++ leBytes 1 f.cell ++ leBytes 1 (match f.thread with
    | .fg => 0
    | .tr => 1) ++ leBytes 1 f.code.toNat ++ leBytes 4 f.bundle ++ leBytes 8 f.detail.toNat

/-- Section 3, 4 KiB: RST_LAST, RST_OOS, the fault record, the last 16 cell fault records. -/
def State.section3 (s : State) : List Byte :=
  fit 4096 (leBytes 16 s.rstLast ++ leBytes 4 s.rstOos ++ fit 136 (s.flash.faultCells.flatMap fun p => leBytes 1 p)
    ++ fit 256 (s.flash.faultChannels.flatMap fun p => leBytes 1 p) ++ fit 16 (s.flash.faultDecode.flatMap fun p => leBytes 1 p)
    ++ s.faultRecs.flatMap faultBytes)

/-- Section 4, 1 KiB: the snapshot of every monitor. -/
def State.section4 (s : State) : List Byte :=
  fit 1024 ((List.range 64).flatMap (fun n => leBytes 2 (sget (0 : BitVec 13) s.frz.snapTemps n).toNat)
    ++ (List.range 32).flatMap (fun n => leBytes 4 (sget 0 s.frz.snapMon.volts n))
    ++ (List.range 24).flatMap fun n => leBytes 4 (sget 0 s.frz.snapMon.rings n))

/-- The offsets of the RO registers of the map (20 R548). -/
def roOffsets : List Nat :=
  [0x000000, 0x000010, 0x000014, 0x000080, 0x000084] ++ (List.range 64).map (fun i => 0x000200 + 4 * i)
    ++ [0x100000, 0x100020, 0x200000, 0x200010] ++ (List.range 32).map (fun i => 0x200100 + 4 * i)
    ++ [0x300000] ++ (List.range 128).map (fun i => 0x300100 + 4 * i)
    ++ [0x400040, 0x400050, 0x500040, 0x500050, 0x500054, 0x600020, 0x600040, 0x700040, 0x700048, 0x70004C, 0x700050, 0x700054, 0x700058]
    ++ (List.range 6).flatMap (fun i => [0x701000 + 16 * i, 0x701004 + 16 * i])
    ++ [0x701080, 0x702024, 0x702040, 0x702044, 0x702048, 0x70204C] ++ (List.range 56).map (fun i => 0x702100 + 4 * i)
    ++ [0x900030, 0x900040, 0x900050, 0x900054, 0x900058, 0x90005C, 0xA00000, 0xA00040] ++ (List.range 16).map (fun i => 0xA00100 + 4 * i)
    ++ [0xB00000] ++ (List.range 64).map (fun i => 0xC00100 + 4 * i) ++ (List.range 512).map (fun i => 0xC01000 + 4 * i)
    ++ [0xD00000, 0xD00004, 0xE00000]

/-- Section 5, 16 KiB: every RO register. -/
def State.section5 (s : State) : List Byte := fit 16384 (roOffsets.flatMap fun o => leBytes 4 (s.readReg o).toNat)

/-- Section 6, 64 KiB: headers of packets in router buffers and in the re-send store, lease state, table version and old_count. -/
def State.section6 (s : State) : List Byte :=
  let hs := s.fab.vcs.flatMap (fun e => e.2.map fun b => b.pkt.hdr)
    ++ (s.fab.src ++ s.fab.trees).flatMap fun e => e.2.unacked.map fun u => u.2.1.hdr
  fit 65536 (leBytes 4 s.leaseSt ++ leBytes 4 s.fab.version.toNat ++ leBytes 4 s.oldHeld ++ hs.flatMap fun h => leBytes 64 h.toNat)

/-- The summary sections in their order; one whose region has lost its state says so in its place (R564). With frozen_conf set the headers of
section 6 stay in, since R511 lists what read-out then covers (DEDUCED, log 67). -/
def State.readout (s : State) : List (List Byte) :=
  [s.section1, s.section2, s.section3, s.section4, s.section5] ++ if s.frz.agentLost || s.frz.conf then [] else [s.section6]

/-- What read-out says of lost state (R564). -/
def State.lostLines (s : State) : List String :=
  (if s.frz.computeLost then ["compute state lost"] else []) ++ if s.frz.agentLost then ["agent state lost"] else []

/-- A line of the UART read-out: 32 bytes and their CRC-32C. -/
def readoutLine (bs : List Byte) : String := hexBytes bs ++ " " ++ hex 8 (crc32c bs).toNat

/-- CONSOLE_READOUT (R565): frozen only. -/
def execConsoleReadout : State → Host.Outcome State Fault Refusal :=
  act fun s =>
    if !s.consoleUp then s
    else if !s.frz.frozen then s.replyErr 4
    else
      let bs := s.readout.flatten
      s.replyWith ((chunks 32 bs).map readoutLine ++ s.lostLines ++ ["END " ++ toString bs.length]) "OK"

/-- The registers of one thread. -/
def ThreadSt.regBytes (t : ThreadSt) : List Byte :=
  (List.range 32).flatMap (fun i => leBytes 256 (sget 0 t.v i).toNat) ++ (List.range 32).flatMap (fun i => leBytes 8 (sget 0 t.a i).toNat)
    ++ (List.range 8).flatMap fun i => leBytes 16 (sget 0 t.p i).toNat

/-- An accumulator bank as EWA records. -/
def Bank.bytes (b : Bank) : List Byte := (List.range 8192).flatMap fun i => leBytes 16 (sget ({} : Acc) b.acc i).record.toNat

/-- The code of a ticket's state and class (R203, R204). -/
def TicketState.code : TicketState → Nat
  | .free => 0
  | .issued => 1
  | .parked => 2
  | .sent => 3
  | .combining => 4
def TicketClass.code : TicketClass → Nat
  | .timetabled => 0
  | .open_ => 1
  | .overflow => 2

/-- A ticket as its 32 bytes (R203). -/
def Ticket.bytes (t : Ticket) : List Byte :=
  leBytes 32 (t.state.code + t.cls.code * 2 ^ 3 + t.ctx.toNat * 2 ^ 5 + t.tgen.toNat * 2 ^ 11 + t.bank.toNat * 2 ^ 19
    + t.cmode.toNat * 2 ^ 20 + t.k % 8 * 2 ^ 21 + t.expert % 2 ^ 14 * 2 ^ 24 + t.home % 512 * 2 ^ 38 + t.homeCell % 128 * 2 ^ 47
    + t.instance_ % 1024 * 2 ^ 54 + t.originCell % 128 * 2 ^ 64 + t.aux % 2 ^ 21 * 2 ^ 71 + t.step % 2 ^ 16 * 2 ^ 96
    + t.rlen % 2 ^ 17 * 2 ^ 112 + t.rmask.toNat * 2 ^ 129 + t.sync % 2 ^ 13 * 2 ^ 146 + t.syncEn.toNat * 2 ^ 159
    + t.due % 2 ^ 32 * 2 ^ 160 + t.park % 2 ^ 48 * 2 ^ 192)

/-- A sync object of the store, 8 bytes. -/
def SyncObj.bytes (o : SyncObj) : List Byte :=
  leBytes 8 (o.count.toNat % 2 ^ 32 + o.ctx.toNat * 2 ^ 32 + o.valid.toNat * 2 ^ 40 + o.fabricAbort.toNat * 2 ^ 41 + o.aborted.toNat * 2 ^ 42)

/-- A mailbox, 256 bytes. -/
def Mbox.bytes (m : Mbox) : List Byte := (List.range 63).flatMap (fun i => leBytes 4 (sget 0 m.words i).toNat) ++ leBytes 4 (m.full.toNat + m.drop.toNat * 2)

/-- Section 7: cell memories, instruction memories, cell registers, banks, tickets, the sync store and the mailboxes. -/
def State.section7 (s : State) : List Byte :=
  let cs := List.range 128
  memGet s.mem cellRegion 0x10000000
    ++ cs.flatMap (fun c => (List.range 4096).flatMap fun i => leBytes 32 (sget 0 (s.cell c).imem i).toNat)
    ++ cs.flatMap (fun c => fit 32768 ((s.cell c).fg.regBytes ++ (s.cell c).tr.regBytes
      ++ (List.range 4).flatMap fun i => leBytes 4 (sget 0 (s.cell c).win i).toNat))
    ++ cs.flatMap (fun c => (s.cell c).bank0.bytes ++ (s.cell c).bank1.bytes ++ (s.cell c).bank2.bytes)
    ++ (List.range 1048576).flatMap (fun i => (sget ({} : Ticket) s.fry.tickets i).bytes)
    ++ (List.range 8192).flatMap (fun i => (sget ({} : SyncObj) s.sync i).bytes)
    ++ [Box.h, .f, .k].flatMap fun b => (List.range 16).flatMap fun n => (s.mbox b n).bytes

/-- JTAG_READOUT (R565, R566): every section in order, the full one only where frozen_conf is 0 and the compute state is kept. Of a
module that is not frozen nothing is read out (DEDUCED, log 68). -/
def execJtagReadout : State → Host.Outcome State Fault Refusal :=
  act fun s =>
    if !s.consoleUp ∨ !s.frz.frozen then s
    else { s with jtag := s.readout.flatten ++ if s.frz.conf || s.frz.computeLost then [] else s.section7 }

/-- JTAG_DEBUG (R510, R566): run control opens while no confidential context exists and the module is not frozen with frozen_conf set;
else the instruction acts as BYPASS. -/
def execJtagDebug : State → Host.Outcome State Fault Refusal :=
  act fun s => if !s.consoleUp ∨ s.confMode ∨ s.debugLocked ∨ (s.frz.frozen ∧ s.frz.conf) then s else { s with debugOpen := true }

/-! ### Status LEDs (R568) -/

/-- The patterns of the LEDs. -/
inductive LedPattern where
  | off | slow | fast | double | solid
  deriving DecidableEq, Repr

/-- LED0 POWER: the detail of a stage 0 that halted names the rail (R580). -/
def State.led0 (s : State) : LedPattern :=
  if s.rail .aux ≠ .good then .off
  else if s.boot.halted && decide (s.boot.stage = 0) && (!s.sup.rangeBad.isEmpty || decide (fieldNat s.boot.report 31 16 ≤ 6)) then .slow
  else .solid

/-- LED1 STATE. -/
def State.led1 (s : State) : LedPattern :=
  if s.frz.frozen || s.boot.halted || s.rst.cold then .off
  else if s.flash.oosLatched then .double
  else if s.belowFloor then .fast
  else if s.boot.heldQuar || (!s.boot.ended && decide (1 ≤ s.boot.stage)) then .slow
  else if s.boot.ended then .solid
  else .off

/-- LED2 FABRIC. -/
def State.led2 (s : State) : LedPattern :=
  let low := (List.range 6).any fun q => decide ((s.port q).lanes < 8) || (s.port q).held
  if s.frz.frozen || s.rst.cold || decide (s.fab.version = 0) then .off
  else if s.boot.heldQuar then .fast
  else if low || (decide (s.fab.pairUser ≠ 0) && !s.fab.pairUp) then .slow
  else .solid

/-- LED3 ATTN. -/
def State.led3 (s : State) : LedPattern :=
  if s.frz.frozen then .solid
  else if s.boot.halted || s.boot.failedStage then .fast
  else if !s.tow.alerts.isEmpty || s.selftestFailed then .slow
  else .off

/-- What LED n shows: in the LED test one after another is lit. -/
def State.led (s : State) (n : Nat) : LedPattern :=
  if s.now < s.ledTestEnd then
    if (s.now + 4 * msTicks 1000 - s.ledTestEnd) / msTicks 1000 = n then .solid else .off
  else
    match n with
    | 0 => s.led0
    | 1 => s.led1
    | 2 => s.led2
    | _ => s.led3

end Sys2Proof.Machine
end

