-- ==== Sys2Proof/Machine/SetupWrites.lean ====
section
/-! DEFINITION. Writes of the host to set-up registers (20 R541 to R546, R248; 08 R216; 10 R304; 11 R330; 16 R470; 21 R550). -/

namespace Sys2Proof.Machine

/-- A write of the host to a register offset: it reaches the module only over the Hawser link (R589). A write of RST_CMD is a command
(R470); one that changes the function of the AUX pin may change the alert wire (R573), and one of FRY_TKT_MIN the ticket-low signal (R206). -/
def State.hostWrite (s : State) (off : Nat) (v : BitVec 32) : State :=
  if !s.hostReach then s
  else if off = 0x900020 then commit s (s.rstCmd v)
  else
    let w := s.regWr off v
    let t := if off = 0x500010 then w.ticketSignal else w
    { t.wire s with setup := w.setup, setupErr := w.setupErr, rst := w.rst }

/-- The outcome of a register write: everything but the queue as the write leaves it. -/
def written (s t : State) : Host.Outcome State Fault Refusal := .next { t with pending := s.pending }

/-- REG_WR and REG_RD (R244, R248, R541, R544 to R546). -/
def execRegWr (offset : BitVec 32) (value : RegAccess) : State → Host.Outcome State Fault Refusal :=
  fun s =>
    match value with
    | .write v => written s (s.hostWrite offset.toNat v)
    | .read tag => .next (commit s (if s.hostReach then s.regRd tag offset.toNat else s))

/-- GEN_SETUP_LOCK (R543). -/
def execGenSetupLock (value : BitVec 32) : State → Host.Outcome State Fault Refusal :=
  fun s => written s (s.hostWrite 0x8 value)

/-- GEN_SETUP_ERR written: valid is cleared by writing 1 (R545). -/
def execGenSetupErrClear (value : BitVec 32) : State → Host.Outcome State Fault Refusal :=
  fun s => written s (s.hostWrite 0x10 value)

/-- GEN_AUX (R26, R550). -/
def execGenAux (value : BitVec 32) : State → Host.Outcome State Fault Refusal :=
  fun s => written s (s.hostWrite 0x20 value)

/-- FRY_TKT_MIN (R216). -/
def execFryTktMin (value : BitVec 32) : State → Host.Outcome State Fault Refusal :=
  fun s => written s (s.hostWrite 0x500010 value)

/-- FAB_FC (R330). -/
def execFabFc (value : BitVec 32) : State → Host.Outcome State Fault Refusal :=
  fun s => written s (s.hostWrite 0x702000 value)

/-- FAB_FC2 (R330). -/
def execFabFc2 (value : BitVec 32) : State → Host.Outcome State Fault Refusal :=
  fun s => written s (s.hostWrite 0x702004 value)

/-- Word 0 of ETH_Q_n (R290, R304, R545). -/
def execEthQEnable (q : Fin 32) (value : BitVec 32) : State → Host.Outcome State Fault Refusal :=
  fun s => written s (s.hostWrite (0xD00100 + 32 * q.val) value)

/-- Words 1 to 7 of ETH_Q_n (R304, R545); word 0 is ETH_Q_ENABLE's. -/
def execEthQWordWrite (q : Fin 32) (w : Fin 8) (value : BitVec 32) : State → Host.Outcome State Fault Refusal :=
  fun s =>
    if w.val = 0 then .fault .illFormedCommand
    else written s (s.hostWrite (0xD00100 + 32 * q.val + 4 * w.val) value)

end Sys2Proof.Machine
end

