-- ==== Sys2Proof/Machine/HostData.lean ====
section
/-! DEFINITION. Host reads: their data, their failures and the wait for the link (09 R244, R246, R251). -/

namespace Sys2Proof.Machine

/-- The outstanding read of a tag. -/
def State.readOf (s : State) (tag : Nat) : Option HostRead := s.hst.reads.find? fun r => r.tag = tag

/-- A read is no longer outstanding. -/
def State.readDone (s : State) (tag : Nat) : State :=
  { s with hst := { s.hst with reads := s.hst.reads.filter fun r => r.tag ≠ tag } }

/-- Replies to other reads of a command that has failed are dropped. -/
def State.readsSpent (s : State) (p : ReadFor → Bool) : State :=
  { s with hst := { s.hst with reads := s.hst.reads.map fun r => if p r.purpose then { r with purpose := .spent } else r } }

/-- Bytes at an offset of a gathering descriptor; once all are there it goes on. -/
def State.gatherData (s : State) (sq slot off : Nat) (bs : List Byte) : State :=
  let s1 := s.updJob sq slot fun k => match k with
    | .gather need asked base got => .gather need asked base (got ++ [(off, bs)])
    | k => k
  (s1.askJob 1024 sq slot).gathered sq slot

/-- A read of a gathering descriptor has failed, or the wait for the link is over: it completes with TIMEOUT. -/
def State.gatherFailed (s : State) (sq slot detail : Nat) : State :=
  (s.readsSpent fun p => match p with
    | .job q t _ => q = sq && t = slot
    | _ => false).finish sq slot { status := stTimeout, detail := detail }

/-- The data of a read reach what they were read for. -/
def State.readGood (s : State) (r : HostRead) (bs : List Byte) : State :=
  match r.purpose with
  | .fetch sq first _ => s.arrive sq first bs
  | .job sq slot off => s.gatherData sq slot off bs
  | .piece m sq slot p off => s.pieceData m sq slot p off bs
  | .cellDma c => s.dmaData c bs
  | .gone => { s with cnt := { s.cnt with rstStale := satAdd 8 s.cnt.rstStale 1 } }
  | .spent => s

/-- A read fails: the command it served completes with TIMEOUT and detail 1 (R246, R251), or its DMA command cannot finish (R80). -/
def State.readFailed (s : State) (r : HostRead) : State :=
  match r.purpose with
  | .fetch sq first count => s.fetchFailed sq first count 1
  | .job sq slot _ => s.gatherFailed sq slot 1
  | .piece m sq slot piece _ =>
    let s1 := s.readsSpent fun p => match p with
      | .piece n q t j _ => n = m && q = sq && t = slot && j = piece
      | _ => false
    match ((s1.mover m).cur.toList ++ (s1.mover m).pieces).find? fun c => c.sq = sq && c.slot = slot && c.piece = piece with
    | some c => s1.cmdEnds m c (stTimeout, 0, 1)
    | none => s1
  | .cellDma c => s.dmaReadFailed c
  | .gone => s
  | .spent => s

/-- The message types that the adapter sends (R244). -/
def adapterType (t : Nat) : Bool := decide (0x11 ≤ t) && decide (t ≤ 0x16)

/-- Read data matched by tag and generation (R244, R246). Data of no outstanding read, of a reserved err or of another length than was asked are
dropped and counted too (DESIGN CHOICE, log 69). -/
def State.rdData (s : State) (tag : BitVec 10) (gen : BitVec 8) (err : BitVec 2) (data : List Byte) : State :=
  if gen ≠ s.rst.hawserGen then s.hostStale
  else
    match s.readOf tag.toNat with
    | none => s.hostStale
    | some r =>
      if err = 1 then ((s.readDone r.tag).readFailed r)
      else if err ≠ 0 ∨ data.length ≠ r.len then s.hostStale
      else if s.rst.warm then s.readDone r.tag
      else (s.readDone r.tag).readGood r data

/-- HOST_RD_DATA (R244): a message with its type as the adapter sends it. One of a reserved type is dropped and counted; doorbells and
accesses to registers and mailboxes have rows of their own. -/
def execHostRdData (tag : BitVec 10) (gen : BitVec 8) (err : BitVec 2) (data : AdapterData) : State → Host.Outcome State Fault Refusal :=
  act fun s =>
    if !s.linkUp then s
    else if data.type = 0x11 then s.rdData tag gen err data.bytes
    else if adapterType data.type.toNat then s
    else s.hostStale

/-- HOST_RD_TIMEOUT (R246): no reply within rd_timeout_ms. While the link is down a read waits with its command (DEDUCED, log 77). -/
def execHostRdTimeout (tag : BitVec 10) : State → Host.Outcome State Fault Refusal :=
  act fun s =>
    match s.readOf tag.toNat with
    | none => s
    | some r => if s.linkUp ∧ r.at_ + s.rdTimeout ≤ s.now then (s.readDone r.tag).readFailed r else s

/-- A mover command of a ring and slot needs the host. -/
def State.moveNeedsHost (s : State) (sq slot : Nat) : Bool :=
  s.movers.any fun e => (e.2.cur.toList ++ e.2.queue ++ e.2.pieces).any fun c =>
    c.sq = sq && c.slot = slot && (c.srcSpace = 1 || c.dstSpace = 1)

/-- A started command that needs host memory and has waited for hold_ms. -/
def State.heldTooLong (s : State) (j : Job) : Bool :=
  !s.linkUp && decide (max s.hst.downAt j.start + s.holdTicks ≤ s.now)

/-- HOLD_MS_EXPIRY (R246, R251): a command that waits for the link beyond hold_ms completes with TIMEOUT and detail 2; its record is
held until the link is back. A fetch that waits so fails for every slot that it covers (DEDUCED, log 78). -/
def execHoldMsExpiry (sq : Fin 256) (slot : BitVec 16) : State → Host.Outcome State Fault Refusal :=
  act fun s =>
    match s.job sq slot.toNat with
    | some j =>
      if !s.heldTooLong j then s
      else
        match j.kind with
        | .gather need _ _ got => if (joinGot got).length < need then s.gatherFailed sq slot.toNat 2 else s
        | .move _ _ _ _ _ _ _ =>
          if s.moveNeedsHost sq slot.toNat then
            (s.readsSpent fun p => match p with
              | .piece _ q t _ _ => q = sq.val && t = slot.toNat
              | _ => false).copyLost sq slot.toNat (stTimeout, 0, 2)
          else s
        | .report _ _ _ _ => s.finish sq slot.toNat { status := stTimeout, detail := 2 }
        | _ => s
    | none =>
      match s.hst.reads.find? fun r => match r.purpose with
        | .fetch q first count => q = sq.val && decide (first ≤ slot.toNat) && decide (slot.toNat < first + count)
        | _ => false with
      | some r =>
        if s.linkUp ∨ s.now < max s.hst.downAt r.at_ + s.holdTicks then s
        else
          match r.purpose with
          | .fetch q first count => (s.readDone r.tag).fetchFailed q first count 2
          | _ => s
      | none => s

end Sys2Proof.Machine
end

