-- ==== Sys2Proof/Machine/Fixed.lean ====
section
/-! DEFINITION. Reciprocal, reciprocal square root, exp2 and log2 of FP32 (R75): the exact FP32 result, and a result within 2 ulp of it that
each part fixes for each input. -/

namespace Sys2Proof.Machine

/-! ### Distance between FP32 codes -/

/-- The magnitude of an FP32 code in units of 2^-149; Inf stands at 2^128. -/
def mag32 (c : Nat) : Nat :=
  let ex := c / 2 ^ 23 % 256
  if ex = 0 then c % 2 ^ 23 else (2 ^ 23 + c % 2 ^ 23) * 2 ^ (ex - 1)

/-- One ulp at an FP32 code, in units of 2^-149. -/
def ulp32 (c : Nat) : Nat := 2 ^ (max 1 (c / 2 ^ 23 % 256) - 1)

/-- A code that is no NaN, of the sign of an exact result and within 2 ulp of it (R75) (DEDUCED, log 23). -/
def near32 (exact c : Nat) : Bool :=
  decide (c / 2 ^ 31 = exact / 2 ^ 31) && decide (c % 2 ^ 31 ≤ 0x7F800000)
    && decide (mag32 c ≤ mag32 exact + 2 * ulp32 exact) && decide (mag32 exact ≤ mag32 c + 2 * ulp32 exact)

/-- The result for an input: what the part's fixed function gives, which lies within 2 ulp of the exact result (R75). -/
def fixed32 (f : BitVec 32 → BitVec 32) (exact a : Nat) : Nat :=
  let r := (f (BitVec.ofNat 32 a)).toNat
  if near32 exact r then r else exact

/-! ### Exact results of a finite input that is not zero -/

/-- 1 / ((-1)^neg m 2^e) as FP32. -/
def rcpExact (neg : Bool) (m : Nat) (e : Int) : Nat :=
  let q := 2 ^ 96 / m
  fFP32.round .nearest (.fin neg (2 * q + (decide (2 ^ 96 % m ≠ 0)).toNat) (-97 - e))

/-- The root of n found bit by bit from 2^(i - 1) down, on top of r. -/
def isqrt : Nat → Nat → Nat → Nat
  | 0, _, r => r
  | i + 1, n, r => if (r + 2 ^ i) * (r + 2 ^ i) ≤ n then isqrt i n (r + 2 ^ i) else isqrt i n r

/-- 1 / sqrt (m 2^e) as FP32. -/
def rsqExact (m : Nat) (e : Int) : Nat :=
  let m' := if e % 2 = 0 then m else 2 * m
  let e' := if e % 2 = 0 then e else e - 1
  let s := isqrt 97 (2 ^ 192 / m') 0
  fFP32.round .nearest (.fin false (2 * s + (decide (s * s * m' ≠ 2 ^ 192)).toNat) (-97 - e' / 2))

/-- ln 2 in units of 2^-192. -/
def ln2 : Nat := 4350955369971217654477563090224794165364344896676135745069

/-- The series of e^t from its term for k on: n terms in units of 2^-192, the term for k being x. -/
def expSeries : Nat → Nat → Nat → Nat → Nat
  | 0, _, _, _ => 0
  | n + 1, k, t, x => x + expSeries n (k + 1) t (x * t / 2 ^ 192 / (k + 1))

/-- 2^((-1)^neg m 2^e) as FP32. From 2^8 up the result is beyond the range on its side. -/
def expExact (neg : Bool) (m : Nat) (e : Int) : Nat :=
  if 8 ≤ e + (Nat.log2 m : Nat) then (if neg then 0 else fFP32.infCode false)
  else
    let x : Nat := if 0 ≤ e + 192 then m * 2 ^ (e + 192).toNat else 0
    let z : Int := if neg then -(x : Int) else x
    let i := z / 2 ^ 192
    let f := (z % 2 ^ 192).toNat
    fFP32.round .nearest (.fin false (expSeries 50 0 (f * ln2 / 2 ^ 192) (2 ^ 192)) (i - 192))

/-- Bits of log2 of g in units of 2^-256, for g in [1, 2), n of them on top of those found. -/
def log2Bits : Nat → Nat → Nat → Nat
  | 0, _, r => r
  | n + 1, g, r =>
    let y := g * g / 2 ^ 256
    if 2 ^ 257 ≤ y then log2Bits n (y / 2) (2 * r + 1) else log2Bits n y (2 * r)

/-- log2 (m 2^e) as FP32. -/
def logExact (m : Nat) (e : Int) : Nat :=
  let k := Nat.log2 m
  let l : Int := (e + k) * 2 ^ 110 + log2Bits 110 (m * 2 ^ 256 / 2 ^ k) 0
  let v := 2 * l + (decide (m ≠ 2 ^ k)).toNat
  fFP32.round .nearest (.fin (decide (v < 0)) v.natAbs (-111))

end Sys2Proof.Machine
end

