-- ==== Sys2Proof/Machine/Vector.lean ====
section
/-! DEFINITION. The VX slot (R50 to R52, R74 to R76, R102, R103). A V register is 2048 bits, FP32 lane i its bits [32 i + 31 : 32 i]. -/

namespace Sys2Proof.Machine

/-- Bits of a lane of a type. -/
def laneBits (ty : Nat) : Nat := if ty = 0 then 32 else 16

/-- The number format of a type. -/
def laneFmt (ty : Nat) : Fmt :=
  match ty with
  | 0 => fFP32
  | 1 => fBF16
  | _ => fFP16

/-- The lanes of a V register, by width. -/
def lanesOf (w : Nat) (v : BitVec 2048) : List Nat := (List.range (2048 / w)).map fun i => elemAt w v.toNat i

/-- A V register of lanes. -/
def ofLanes (w : Nat) (xs : List Nat) : BitVec 2048 := BitVec.ofNat 2048 (packElems w xs)

/-- The predicate bit of lane i, of w bits (R103). -/
def predBit (p : BitVec 128) (w i : Nat) : Bool := p.toNat.testBit (if w = 32 then 2 * i else i)

/-- Lanes written under the predicate: an unselected lane keeps its value, or becomes 0 with pz (R102). -/
def maskLanes (x : Nat) (p : BitVec 128) (w : Nat) (old new : List Nat) : List Nat :=
  if sf x 31 1 = 0 then new
  else (new.zip old).zipIdx.map fun e => if predBit p w e.2 then e.1.1 else if sf x 32 1 = 1 then 0 else e.1.2

def vxV (i : Issue) (r : Nat) : BitVec 2048 := sget 0 i.v r
def vxSrcA (i : Issue) (x : Nat) : BitVec 2048 := vxV i (sf x 13 5)
def vxSrcB (i : Issue) (x : Nat) : BitVec 2048 := vxV i (sf x 18 5)
def vxSrcC (i : Issue) (x : Nat) : BitVec 2048 := vxV i (sf x 23 5)
def vxPred (i : Issue) (x : Nat) : BitVec 128 := sget 0 i.p (sf x 28 3)
def vxImm (x : Nat) : Nat := sf x 33 23

/-- Lanes of width w written to vd under the predicate. -/
def State.putLanes (s : State) (c : Nat) (t : Thread) (i : Issue) (x w : Nat) (new : List Nat) : State :=
  let vd := sf x 8 5
  s.putV c t vd (ofLanes w (maskLanes x (vxPred i x) w (lanesOf w (vxV i vd)) new))

/-- A lane operation on two sources. -/
def State.lanes2 (s : State) (c : Nat) (t : Thread) (i : Issue) (x : Nat) (f : Nat → Nat → Nat) : State :=
  let w := laneBits (sf x 6 2)
  s.putLanes c t i x w (((lanesOf w (vxSrcA i x)).zip (lanesOf w (vxSrcB i x))).map fun e => f e.1 e.2)

/-- An arithmetic lane operation, computed exactly and rounded once to its type (R50). -/
def State.arith2 (s : State) (c : Nat) (t : Thread) (i : Issue) (x : Nat) (f : Val → Val → Val) : State :=
  let m := laneFmt (sf x 6 2)
  s.lanes2 c t i x fun a b => m.round .nearest (f (m.decode a) (m.decode b))

/-- A lane operation on one FP32 source. -/
def State.lanes1 (s : State) (c : Nat) (t : Thread) (i : Issue) (x : Nat) (f : Nat → Nat) : State :=
  s.putLanes c t i x 32 ((lanesOf 32 (vxSrcA i x)).map f)

/-- The row of a VX operation. -/
def vxRow (c : Nat) (t : Thread) (op : Nat) (f : State → Issue → Nat → State) : State → Host.Outcome State Fault Refusal :=
  act fun s => s.slotRow c t .vx op f

/-- VADD. -/
def execVadd (c : Fin 128) (t : Thread) : State → Host.Outcome State Fault Refusal :=
  vxRow c t 0x01 fun s i x => s.arith2 c t i x Val.add

/-- VSUB. -/
def execVsub (c : Fin 128) (t : Thread) : State → Host.Outcome State Fault Refusal :=
  vxRow c t 0x02 fun s i x => s.arith2 c t i x fun a b => a.add b.neg

/-- VMUL. -/
def execVmul (c : Fin 128) (t : Thread) : State → Host.Outcome State Fault Refusal :=
  vxRow c t 0x03 fun s i x => s.arith2 c t i x Val.mul

/-- VFMA: a x b + c, rounded once. -/
def execVfma (c : Fin 128) (t : Thread) : State → Host.Outcome State Fault Refusal :=
  vxRow c t 0x04 fun s i x =>
    let m := laneFmt (sf x 6 2)
    let w := laneBits (sf x 6 2)
    let cs := lanesOf w (vxSrcC i x)
    s.putLanes c t i x w ((((lanesOf w (vxSrcA i x)).zip (lanesOf w (vxSrcB i x))).zip cs).map fun e =>
      m.round .nearest (((m.decode e.1.1).mul (m.decode e.1.2)).add (m.decode e.2)))

/-- VMIN. -/
def execVmin (c : Fin 128) (t : Thread) : State → Host.Outcome State Fault Refusal :=
  vxRow c t 0x05 fun s i x => s.arith2 c t i x Val.minOf

/-- VMAX. -/
def execVmax (c : Fin 128) (t : Thread) : State → Host.Outcome State Fault Refusal :=
  vxRow c t 0x06 fun s i x => s.arith2 c t i x Val.maxOf

/-- The comparison of VCMP: eq, ne, lt, le (R102); ne holds with a NaN, as IEEE 754 has it. -/
def cmpVal (k : Nat) (a b : Val) : Bool :=
  match k with
  | 0 => a.eq b
  | 1 => !a.eq b
  | 2 => a.lt b
  | _ => a.lt b || a.eq b

/-- A predicate register from the bits of its 128 positions. -/
def ofBits (bs : List Bool) : BitVec 128 := BitVec.ofNat 128 (packElems 1 (bs.map Bool.toNat))

/-- A predicate register written under the predicate of the slot. -/
def maskPred (x : Nat) (p old new : BitVec 128) : BitVec 128 :=
  if sf x 31 1 = 0 then new else if sf x 32 1 = 1 then new &&& p else (new &&& p) ||| (old &&& ~~~p)

/-- VCMP: the bit of each lane; with 32-bit lanes the odd positions, of which the spec states nothing, take a free value of the operands (log 24). -/
def State.doVcmp (s : State) (c : Nat) (t : Thread) (i : Issue) (x : Nat) : State :=
  let ty := sf x 6 2
  let m := laneFmt ty
  let w := laneBits ty
  let r := sf (vxImm x) 0 3
  let rs := ((lanesOf w (vxSrcA i x)).zip (lanesOf w (vxSrcB i x))).map fun e =>
    cmpVal (sf (vxImm x) 3 3) (m.decode e.1) (m.decode e.2)
  if ty = 0 then
    let odd := (Config.vcmpOdd (sf (vxImm x) 3 3) (vxSrcA i x) (vxSrcB i x)).toNat
    let bits := ofBits ((rs.zipIdx).flatMap fun e => [e.1, odd.testBit e.2])
    s.putP c t r (maskPred x (vxPred i x) (sget 0 i.p r) bits)
  else s.putP c t r (maskPred x (vxPred i x) (sget 0 i.p r) (ofBits rs))

/-- VCMP (R102). -/
def execVcmp (c : Fin 128) (t : Thread) : State → Host.Outcome State Fault Refusal :=
  vxRow c t 0x07 fun s i x => s.doVcmp c t i x

/-- VSEL: P[pr] ? a : b, lane by lane. -/
def execVsel (c : Fin 128) (t : Thread) : State → Host.Outcome State Fault Refusal :=
  vxRow c t 0x08 fun s i x =>
    let w := laneBits (sf x 6 2)
    s.putV c t (sf x 8 5) (ofLanes w (((lanesOf w (vxSrcA i x)).zip (lanesOf w (vxSrcB i x))).zipIdx.map fun e =>
      if predBit (vxPred i x) w e.2 then e.1.1 else e.1.2))

/-- VAND. -/
def execVand (c : Fin 128) (t : Thread) : State → Host.Outcome State Fault Refusal :=
  vxRow c t 0x09 fun s i x => s.lanes2 c t i x Nat.land

/-- VOR. -/
def execVor (c : Fin 128) (t : Thread) : State → Host.Outcome State Fault Refusal :=
  vxRow c t 0x0A fun s i x => s.lanes2 c t i x Nat.lor

/-- VXOR. -/
def execVxor (c : Fin 128) (t : Thread) : State → Host.Outcome State Fault Refusal :=
  vxRow c t 0x0B fun s i x => s.lanes2 c t i x Nat.xor

/-- VIADD, wrapping in its lane. -/
def execViadd (c : Fin 128) (t : Thread) : State → Host.Outcome State Fault Refusal :=
  vxRow c t 0x0C fun s i x => s.lanes2 c t i x fun a b => (a + b) % 2 ^ laneBits (sf x 6 2)

/-- VCVT (R51, R103): from FP32 to a narrower format packed from byte 0, or from BF16 or FP16 exactly to FP32; a lane's predicate is
that of its FP32 lane, and what lies above the outputs is 0. -/
def execVcvt (c : Fin 128) (t : Thread) : State → Host.Outcome State Fault Refusal :=
  vxRow c t 0x0D fun s i x =>
    let code := sf (vxImm x) 0 4
    let ty := sf x 6 2
    let vd := sf x 8 5
    if ty = 0 then
      let w := elemBits code
      let old := (List.range 64).map fun k => elemAt w (vxV i vd).toNat k
      s.putV c t vd (ofLanes w (maskLanes x (vxPred i x) 32 old ((lanesOf 32 (vxSrcA i x)).map (cvtFrom32 code))))
    else
      s.putLanes c t i x 32 (((lanesOf 16 (vxSrcA i x)).take 64).map fun a => fFP32.round .nearest ((laneFmt ty).decode a))

/-- VQMX (R52, R103): two blocks of elements from byte 0, their scale codes at bytes 240 and 241; the predicate selects elements as
FP32 lanes, and the scale codes are always written (DEDUCED, log 25). -/
def execVqmx (c : Fin 128) (t : Thread) : State → Host.Outcome State Fault Refusal :=
  vxRow c t 0x0E fun s i x =>
    let code := sf (vxImm x) 0 4
    let vd := sf x 8 5
    let w := elemBits code
    let a := lanesOf 32 (vxSrcA i x)
    let b0 := quantBlock code (a.take 32)
    let b1 := quantBlock code (a.drop 32)
    let old := (List.range 64).map fun k => elemAt w (vxV i vd).toNat k
    let es := packElems w (maskLanes x (vxPred i x) 32 old (b0.2 ++ b1.2))
    s.putV c t vd (BitVec.ofNat 2048 (es + b0.1 * 2 ^ 1920 + b1.1 * 2 ^ 1928))

/-! ### Reciprocal and its kin (R75): special inputs as IEEE 754-2019 has them, any other a fixed function within 2 ulp of the exact result -/

/-- 1 / a. -/
def rcp32 (a : Nat) : Nat :=
  match fFP32.decode a with
  | .nan => fFP32.nanCode
  | .inf neg => fFP32.signed neg 0
  | .fin neg m e => if m = 0 then fFP32.infCode neg else fixed32 Config.vrcp (rcpExact neg m e) a

/-- 1 / sqrt a. -/
def rsq32 (a : Nat) : Nat :=
  match fFP32.decode a with
  | .nan => fFP32.nanCode
  | .inf neg => if neg then fFP32.nanCode else 0
  | .fin neg m e => if m = 0 then fFP32.infCode neg else if neg then fFP32.nanCode else fixed32 Config.vrsq (rsqExact m e) a

/-- 2^a. -/
def exp32 (a : Nat) : Nat :=
  match fFP32.decode a with
  | .nan => fFP32.nanCode
  | .inf neg => if neg then 0 else fFP32.infCode false
  | .fin neg m e => if m = 0 then 0x3F800000 else fixed32 Config.vexp2 (expExact neg m e) a

/-- log2 a. -/
def log32 (a : Nat) : Nat :=
  match fFP32.decode a with
  | .nan => fFP32.nanCode
  | .inf neg => if neg then fFP32.nanCode else fFP32.infCode false
  | .fin neg m e =>
    if m = 0 then fFP32.infCode true else if neg then fFP32.nanCode
    else if a = 0x3F800000 then 0 else fixed32 Config.vlog2 (logExact m e) a

/-- VRCP. -/
def execVrcp (c : Fin 128) (t : Thread) : State → Host.Outcome State Fault Refusal :=
  vxRow c t 0x0F fun s i x => s.lanes1 c t i x rcp32

/-- VRSQ. -/
def execVrsq (c : Fin 128) (t : Thread) : State → Host.Outcome State Fault Refusal :=
  vxRow c t 0x10 fun s i x => s.lanes1 c t i x rsq32

/-- VEXP2. -/
def execVexp2 (c : Fin 128) (t : Thread) : State → Host.Outcome State Fault Refusal :=
  vxRow c t 0x11 fun s i x => s.lanes1 c t i x exp32

/-- VLOG2. -/
def execVlog2 (c : Fin 128) (t : Thread) : State → Host.Outcome State Fault Refusal :=
  vxRow c t 0x12 fun s i x => s.lanes1 c t i x log32

/-- VRED (R76): the pairwise tree over 64 lanes, predicated-off lanes +0; lane 0 takes the sum, the others 0. -/
def execVred (c : Fin 128) (t : Thread) : State → Host.Outcome State Fault Refusal :=
  vxRow c t 0x13 fun s i x =>
    let xs := (lanesOf 32 (vxSrcA i x)).zipIdx.map fun e => if sf x 31 1 = 0 || predBit (vxPred i x) 32 e.2 then e.1 else 0
    s.putV c t (sf x 8 5) (BitVec.ofNat 2048 (tree32 6 xs))

/-- VMOVA: every 32-bit lane takes A[va][31:0]. -/
def execVmova (c : Fin 128) (t : Thread) : State → Host.Outcome State Fault Refusal :=
  vxRow c t 0x14 fun s i x => s.putLanes c t i x 32 (List.replicate 64 ((regA i.a (sf x 13 5)).toNat % 2 ^ 32))

/-- VEXT: A[vd] takes lane imm[5:0], zero-extended, whatever the predicate (R102; DESIGN CHOICE, log 168). -/
def execVext (c : Fin 128) (t : Thread) : State → Host.Outcome State Fault Refusal :=
  vxRow c t 0x15 fun s i x => s.putA c t (sf x 8 5) (BitVec.ofNat 64 (elemAt 32 (vxSrcA i x).toNat (sf (vxImm x) 0 6)))

/-- VPSET: the first imm[10:3] positions of P[imm[2:0]] set. -/
def execVpset (c : Fin 128) (t : Thread) : State → Host.Outcome State Fault Refusal :=
  vxRow c t 0x16 fun s i x =>
    let r := sf (vxImm x) 0 3
    s.putP c t r (maskPred x (vxPred i x) (sget 0 i.p r) (BitVec.ofNat 128 (2 ^ min 128 (sf (vxImm x) 3 8) - 1)))

end Sys2Proof.Machine
end

