-- ==== Sys2Proof/Machine/Dispatch.lean ====
section
/-! DEFINITION. The meaning of each command: one arm per constructor of Instr. -/

namespace Sys2Proof.Machine

def exec (i : Instr) (s : State) : Host.Outcome State Fault Refusal :=
  match i with
  | .nop sq => Sys2Proof.Machine.execNop sq s
  | .copy sq => Sys2Proof.Machine.execCopy sq s
  | .fill sq => Sys2Proof.Machine.execFill sq s
  | .programLoad sq => Sys2Proof.Machine.execProgramLoad sq s
  | .weightLoad sq => Sys2Proof.Machine.execWeightLoad sq s
  | .launchOpen sq => Sys2Proof.Machine.execLaunchOpen sq s
  | .trickleSubmitProgram sq => Sys2Proof.Machine.execTrickleSubmitProgram sq s
  | .trickleSubmitPrefetch sq => Sys2Proof.Machine.execTrickleSubmitPrefetch sq s
  | .timetableLoad sq => Sys2Proof.Machine.execTimetableLoad sq s
  | .timetableArm sq answers => Sys2Proof.Machine.execTimetableArm sq answers s
  | .streamAdmit sq answers => Sys2Proof.Machine.execStreamAdmit sq answers s
  | .streamRelease sq => Sys2Proof.Machine.execStreamRelease sq s
  | .syncSignalAdd sq => Sys2Proof.Machine.execSyncSignalAdd sq s
  | .syncSignalAllocate sq => Sys2Proof.Machine.execSyncSignalAllocate sq s
  | .syncSignalRelease sq => Sys2Proof.Machine.execSyncSignalRelease sq s
  | .syncWait sq => Sys2Proof.Machine.execSyncWait sq s
  | .syncWaitTimeout sq slot => Sys2Proof.Machine.execSyncWaitTimeout sq slot s
  | .phaseHint sq => Sys2Proof.Machine.execPhaseHint sq s
  | .ferryPlaceWrite sq => Sys2Proof.Machine.execFerryPlaceWrite sq s
  | .ferryPlaceSwap sq => Sys2Proof.Machine.execFerryPlaceSwap sq s
  | .ferryOpenOpen sq => Sys2Proof.Machine.execFerryOpenOpen sq s
  | .ferryOpenClose sq => Sys2Proof.Machine.execFerryOpenClose sq s
  | .keyInstall sq => Sys2Proof.Machine.execKeyInstall sq s
  | .tenantRemove sq => Sys2Proof.Machine.execTenantRemove sq s
  | .tenantRemoveWaitEnd => Sys2Proof.Machine.execTenantRemoveWaitEnd s
  | .attest sq => Sys2Proof.Machine.execAttest sq s
  | .fwBlockHeader sq => Sys2Proof.Machine.execFwBlockHeader sq s
  | .fwBlockStream sq => Sys2Proof.Machine.execFwBlockStream sq s
  | .fwBlockAbort sq => Sys2Proof.Machine.execFwBlockAbort sq s
  | .rebuildComplete flashOk => Sys2Proof.Machine.execRebuildComplete flashOk s
  | .fwActivate sq => Sys2Proof.Machine.execFwActivate sq s
  | .activatePauseEnd badCells => Sys2Proof.Machine.execActivatePauseEnd badCells s
  | .confirmation => Sys2Proof.Machine.execConfirmation s
  | .confirmWindowExpiry => Sys2Proof.Machine.execConfirmWindowExpiry s
  | .fwStatus sq => Sys2Proof.Machine.execFwStatus sq s
  | .contextCreate sq => Sys2Proof.Machine.execContextCreate sq s
  | .contextDestroy sq => Sys2Proof.Machine.execContextDestroy sq s
  | .fence sq => Sys2Proof.Machine.execFence sq s
  | .queryRegisters sq => Sys2Proof.Machine.execQueryRegisters sq s
  | .queryEscapeCounters sq => Sys2Proof.Machine.execQueryEscapeCounters sq s
  | .queryContextSummary sq => Sys2Proof.Machine.execQueryContextSummary sq s
  | .sqProducerIndex page value => Sys2Proof.Machine.execSqProducerIndex page value s
  | .cqConsumerIndex page value => Sys2Proof.Machine.execCqConsumerIndex page value s
  | .cqEventArm page value => Sys2Proof.Machine.execCqEventArm page value s
  | .hostRdData tag gen err data => Sys2Proof.Machine.execHostRdData tag gen err data s
  | .hostRdTimeout tag => Sys2Proof.Machine.execHostRdTimeout tag s
  | .holdMsExpiry sq slot => Sys2Proof.Machine.execHoldMsExpiry sq slot s
  | .cqEventTimer cq => Sys2Proof.Machine.execCqEventTimer cq s
  | .hawserLinkDown => Sys2Proof.Machine.execHawserLinkDown s
  | .hawserLinkTrained eight adapterPort => Sys2Proof.Machine.execHawserLinkTrained eight adapterPort s
  | .hawserLinkRetry => Sys2Proof.Machine.execHawserLinkRetry s
  | .flitReplay => Sys2Proof.Machine.execFlitReplay s
  | .regWr offset value => Sys2Proof.Machine.execRegWr offset value s
  | .genSetupLock value => Sys2Proof.Machine.execGenSetupLock value s
  | .genSetupErrClear value => Sys2Proof.Machine.execGenSetupErrClear value s
  | .genAux value => Sys2Proof.Machine.execGenAux value s
  | .fryTktMin value => Sys2Proof.Machine.execFryTktMin value s
  | .fabFc value => Sys2Proof.Machine.execFabFc value s
  | .fabFc2 value => Sys2Proof.Machine.execFabFc2 value s
  | .ethQEnable q value => Sys2Proof.Machine.execEthQEnable q value s
  | .ethQWordWrite q w value => Sys2Proof.Machine.execEthQWordWrite q w value s
  | .mboxWr box n offset value => Sys2Proof.Machine.execMboxWr box n offset value s
  | .mboxStatusRead box n read => Sys2Proof.Machine.execMboxStatusRead box n read s
  | .sqOpen n => Sys2Proof.Machine.execSqOpen n s
  | .sqClose n => Sys2Proof.Machine.execSqClose n s
  | .cqOpen n => Sys2Proof.Machine.execCqOpen n s
  | .cqClose n => Sys2Proof.Machine.execCqClose n s
  | .ping n => Sys2Proof.Machine.execPing n s
  | .ldl c t => Sys2Proof.Machine.execLdl c t s
  | .stl c t => Sys2Proof.Machine.execStl c t s
  | .lda c t => Sys2Proof.Machine.execLda c t s
  | .sta c t => Sys2Proof.Machine.execSta c t s
  | .ldp c t => Sys2Proof.Machine.execLdp c t s
  | .stp c t => Sys2Proof.Machine.execStp c t s
  | .mma c t => Sys2Proof.Machine.execMma c t s
  | .mdrain c t => Sys2Proof.Machine.execMdrain c t s
  | .mload c t => Sys2Proof.Machine.execMload c t s
  | .mclr c t => Sys2Proof.Machine.execMclr c t s
  | .mwin c t => Sys2Proof.Machine.execMwin c t s
  | .matrixQueueAdvance c => Sys2Proof.Machine.execMatrixQueueAdvance c s
  | .vadd c t => Sys2Proof.Machine.execVadd c t s
  | .vsub c t => Sys2Proof.Machine.execVsub c t s
  | .vmul c t => Sys2Proof.Machine.execVmul c t s
  | .vfma c t => Sys2Proof.Machine.execVfma c t s
  | .vmin c t => Sys2Proof.Machine.execVmin c t s
  | .vmax c t => Sys2Proof.Machine.execVmax c t s
  | .vcmp c t => Sys2Proof.Machine.execVcmp c t s
  | .vsel c t => Sys2Proof.Machine.execVsel c t s
  | .vand c t => Sys2Proof.Machine.execVand c t s
  | .vor c t => Sys2Proof.Machine.execVor c t s
  | .vxor c t => Sys2Proof.Machine.execVxor c t s
  | .viadd c t => Sys2Proof.Machine.execViadd c t s
  | .vcvt c t => Sys2Proof.Machine.execVcvt c t s
  | .vqmx c t => Sys2Proof.Machine.execVqmx c t s
  | .vrcp c t => Sys2Proof.Machine.execVrcp c t s
  | .vrsq c t => Sys2Proof.Machine.execVrsq c t s
  | .vexp2 c t => Sys2Proof.Machine.execVexp2 c t s
  | .vlog2 c t => Sys2Proof.Machine.execVlog2 c t s
  | .vred c t => Sys2Proof.Machine.execVred c t s
  | .vmova c t => Sys2Proof.Machine.execVmova c t s
  | .vext c t => Sys2Proof.Machine.execVext c t s
  | .vpset c t => Sys2Proof.Machine.execVpset c t s
  | .ali c t => Sys2Proof.Machine.execAli c t s
  | .aaddi c t => Sys2Proof.Machine.execAaddi c t s
  | .aadd c t => Sys2Proof.Machine.execAadd c t s
  | .aand c t => Sys2Proof.Machine.execAand c t s
  | .ashl c t => Sys2Proof.Machine.execAshl c t s
  | .ashr c t => Sys2Proof.Machine.execAshr c t s
  | .dma c t => Sys2Proof.Machine.execDma c t s
  | .dmaCommandComplete c => Sys2Proof.Machine.execDmaCommandComplete c s
  | .dmaCommandFault c => Sys2Proof.Machine.execDmaCommandFault c s
  | .pairWriteTimeout c => Sys2Proof.Machine.execPairWriteTimeout c s
  | .send c t => Sys2Proof.Machine.execSend c t s
  | .sendPayloadRead c => Sys2Proof.Machine.execSendPayloadRead c s
  | .ferry c t => Sys2Proof.Machine.execFerry c t s
  | .br c t => Sys2Proof.Machine.execBr c t s
  | .bz c t => Sys2Proof.Machine.execBz c t s
  | .bnz c t => Sys2Proof.Machine.execBnz c t s
  | .blt c t => Sys2Proof.Machine.execBlt c t s
  | .bge c t => Sys2Proof.Machine.execBge c t s
  | .twa c t => Sys2Proof.Machine.execTwa c t s
  | .twr c t => Sys2Proof.Machine.execTwr c t s
  | .tickWaitRelease c => Sys2Proof.Machine.execTickWaitRelease c s
  | .stepOp c t => Sys2Proof.Machine.execStepOp c t s
  | .settle c t => Sys2Proof.Machine.execSettle c t s
  | .settleRelease c t => Sys2Proof.Machine.execSettleRelease c t s
  | .srd c t => Sys2Proof.Machine.execSrd c t s
  | .sadd c t => Sys2Proof.Machine.execSadd c t s
  | .swait c t => Sys2Proof.Machine.execSwait c t s
  | .syncWaitRelease w => Sys2Proof.Machine.execSyncWaitRelease w s
  | .trap c t => Sys2Proof.Machine.execTrap c t s
  | .halt c t => Sys2Proof.Machine.execHalt c t s
  | .threadWorkEnd c t => Sys2Proof.Machine.execThreadWorkEnd c t s
  | .frequencySwitchEnd c => Sys2Proof.Machine.execFrequencySwitchEnd c s
  | .trickleStop c => Sys2Proof.Machine.execTrickleStop c s
  | .trickleDispatch c => Sys2Proof.Machine.execTrickleDispatch c s
  | .barrierHoldStart window => Sys2Proof.Machine.execBarrierHoldStart window s
  | .rampStep => Sys2Proof.Machine.execRampStep s
  | .cellEntryStart inst r => Sys2Proof.Machine.execCellEntryStart inst r s
  | .openLaunchPreempt c => Sys2Proof.Machine.execOpenLaunchPreempt c s
  | .transferStart inst r => Sys2Proof.Machine.execTransferStart inst r s
  | .transferEnd inst r => Sys2Proof.Machine.execTransferEnd inst r s
  | .entryFailed inst r => Sys2Proof.Machine.execEntryFailed inst r s
  | .instanceArmed inst => Sys2Proof.Machine.execInstanceArmed inst s
  | .armRelay relay inst => Sys2Proof.Machine.execArmRelay relay inst s
  | .memberReserve ctx setId inst phase lead => Sys2Proof.Machine.execMemberReserve ctx setId inst phase lead s
  | .memberCommit inst lead => Sys2Proof.Machine.execMemberCommit inst lead s
  | .memberDrop inst lead => Sys2Proof.Machine.execMemberDrop inst lead s
  | .memberAnswerTimeout inst member => Sys2Proof.Machine.execMemberAnswerTimeout inst member s
  | .memberStatus inst status => Sys2Proof.Machine.execMemberStatus inst status s
  | .stepRecordDeadline inst period => Sys2Proof.Machine.execStepRecordDeadline inst period s
  | .instanceFree inst => Sys2Proof.Machine.execInstanceFree inst s
  | .ferryTokenRecord c => Sys2Proof.Machine.execFerryTokenRecord c s
  | .ferryCloseRecord c => Sys2Proof.Machine.execFerryCloseRecord c s
  | .ferryResultRecord c => Sys2Proof.Machine.execFerryResultRecord c s
  | .resultChunk hdr payload => Sys2Proof.Machine.execResultChunk hdr payload s
  | .parkedTokenSend ticket => Sys2Proof.Machine.execParkedTokenSend ticket s
  | .overflowToken hdr payload => Sys2Proof.Machine.execOverflowToken hdr payload s
  | .refusal hdr payload => Sys2Proof.Machine.execRefusal hdr payload s
  | .overflowRetryTimer ticket => Sys2Proof.Machine.execOverflowRetryTimer ticket s
  | .overflowIdleTimer ctx entry => Sys2Proof.Machine.execOverflowIdleTimer ctx entry s
  | .overflowQueueRetry => Sys2Proof.Machine.execOverflowQueueRetry s
  | .ticketTimeout ticket => Sys2Proof.Machine.execTicketTimeout ticket s
  | .overflowTicketTimeout ticket => Sys2Proof.Machine.execOverflowTicketTimeout ticket s
  | .scrubPatrol line found => Sys2Proof.Machine.execScrubPatrol line found s
  | .pageZeroed page => Sys2Proof.Machine.execPageZeroed page s
  | .refresh ctl bank => Sys2Proof.Machine.execRefresh ctl bank s
  | .readRetrack ctl => Sys2Proof.Machine.execReadRetrack ctl s
  | .ethFrameReceive port fcsOk frame => Sys2Proof.Machine.execEthFrameReceive port fcsOk frame s
  | .ethTransmit q => Sys2Proof.Machine.execEthTransmit q s
  | .reorderGapTimeout stream => Sys2Proof.Machine.execReorderGapTimeout stream s
  | .decodeComplete stream engine => Sys2Proof.Machine.execDecodeComplete stream engine s
  | .shapingComplete stream => Sys2Proof.Machine.execShapingComplete stream s
  | .readyTick stream => Sys2Proof.Machine.execReadyTick stream s
  | .stallTimeout stream => Sys2Proof.Machine.execStallTimeout stream s
  | .packetRoute port vc arriving => Sys2Proof.Machine.execPacketRoute port vc arriving s
  | .reductionContribution port vc => Sys2Proof.Machine.execReductionContribution port vc s
  | .reductionTimeout entry => Sys2Proof.Machine.execReductionTimeout entry s
  | .reductionNoEntryTimeout port vc => Sys2Proof.Machine.execReductionNoEntryTimeout port vc s
  | .flowStateLcb port lcb => Sys2Proof.Machine.execFlowStateLcb port lcb s
  | .partnerRecordSegment port lcb => Sys2Proof.Machine.execPartnerRecordSegment port lcb s
  | .retrainRequest port lcb => Sys2Proof.Machine.execRetrainRequest port lcb s
  | .ackReceived src ack => Sys2Proof.Machine.execAckReceived src ack s
  | .ackTimer src => Sys2Proof.Machine.execAckTimer src s
  | .resendTimer dst => Sys2Proof.Machine.execResendTimer dst s
  | .pruneNotice tree seq module => Sys2Proof.Machine.execPruneNotice tree seq module s
  | .sluiceDecay => Sys2Proof.Machine.execSluiceDecay s
  | .portTraining port lanesPass delayPs => Sys2Proof.Machine.execPortTraining port lanesPass delayPs s
  | .laneLockLoss port lane => Sys2Proof.Machine.execLaneLockLoss port lane s
  | .fecBurst port codewords => Sys2Proof.Machine.execFecBurst port codewords s
  | .partnerExchangeTimer port => Sys2Proof.Machine.execPartnerExchangeTimer port s
  | .rtWrite env sender table first entries => Sys2Proof.Machine.execRtWrite env sender table first entries s
  | .rtSwitch env sender version at_ => Sys2Proof.Machine.execRtSwitch env sender version at_ s
  | .switchTick => Sys2Proof.Machine.execSwitchTick s
  | .drainedRepeat => Sys2Proof.Machine.execDrainedRepeat s
  | .censusDone env sender version => Sys2Proof.Machine.execCensusDone env sender version s
  | .censusPurge => Sys2Proof.Machine.execCensusPurge s
  | .fenceSet env sender module entry => Sys2Proof.Machine.execFenceSet env sender module entry s
  | .fenceClear env sender module entry => Sys2Proof.Machine.execFenceClear env sender module entry s
  | .leaseRenew env sender cycle => Sys2Proof.Machine.execLeaseRenew env sender cycle s
  | .leaseTake env sender cycle => Sys2Proof.Machine.execLeaseTake env sender cycle s
  | .leaseExpiry => Sys2Proof.Machine.execLeaseExpiry s
  | .leaseSeek => Sys2Proof.Machine.execLeaseSeek s
  | .sliceInfo env sender record => Sys2Proof.Machine.execSliceInfo env sender record s
  | .pairUser env sender user => Sys2Proof.Machine.execPairUser env sender user s
  | .agentPortRelease env sender port => Sys2Proof.Machine.execAgentPortRelease env sender port s
  | .budget env sender share => Sys2Proof.Machine.execBudget env sender share s
  | .planPush env sender offset total piece => Sys2Proof.Machine.execPlanPush env sender offset total piece s
  | .stateQuery env sender => Sys2Proof.Machine.execStateQuery env sender s
  | .heldCommandTimeout => Sys2Proof.Machine.execHeldCommandTimeout s
  | .mismatch agent seq executedByStandby crc0 crc1 => Sys2Proof.Machine.execMismatch agent seq executedByStandby crc0 crc1 s
  | .partner agent record port lanes => Sys2Proof.Machine.execPartner agent record port lanes s
  | .drainedReport agent version => Sys2Proof.Machine.execDrainedReport agent version s
  | .stateReport agent code stage demand => Sys2Proof.Machine.execStateReport agent code stage demand s
  | .pathReport agent unreachable port lanes => Sys2Proof.Machine.execPathReport agent unreachable port lanes s
  | .managementCycle => Sys2Proof.Machine.execManagementCycle s
  | .commandResendTimeout agent seq => Sys2Proof.Machine.execCommandResendTimeout agent seq s
  | .pairCopy cycle epoch stateDigest commandDigest inputs last => Sys2Proof.Machine.execPairCopy cycle epoch stateDigest commandDigest inputs last s
  | .copyMidpoint => Sys2Proof.Machine.execCopyMidpoint s
  | .copyAck cycle stateDigest => Sys2Proof.Machine.execCopyAck cycle stateDigest s
  | .joinReq => Sys2Proof.Machine.execJoinReq s
  | .fullCopy cycle index count piece => Sys2Proof.Machine.execFullCopy cycle index count piece s
  | .detach cause => Sys2Proof.Machine.execDetach cause s
  | .stateQueryTimeout => Sys2Proof.Machine.execStateQueryTimeout s
  | .updateState msg => Sys2Proof.Machine.execUpdateState msg s
  | .updateStateTimer => Sys2Proof.Machine.execUpdateStateTimer s
  | .planLoad hdr payload sig => Sys2Proof.Machine.execPlanLoad hdr payload sig s
  | .planGet hdr payload sig => Sys2Proof.Machine.execPlanGet hdr payload sig s
  | .planAccept hdr payload sig => Sys2Proof.Machine.execPlanAccept hdr payload sig s
  | .topoGet hdr payload sig => Sys2Proof.Machine.execTopoGet hdr payload sig s
  | .findingsGet hdr payload sig => Sys2Proof.Machine.execFindingsGet hdr payload sig s
  | .sliceCarve hdr payload sig => Sys2Proof.Machine.execSliceCarve hdr payload sig s
  | .sliceFlows hdr payload sig => Sys2Proof.Machine.execSliceFlows hdr payload sig s
  | .sliceFree hdr payload sig => Sys2Proof.Machine.execSliceFree hdr payload sig s
  | .sliceList hdr payload sig => Sys2Proof.Machine.execSliceList hdr payload sig s
  | .moduleClear hdr payload sig => Sys2Proof.Machine.execModuleClear hdr payload sig s
  | .portRelease hdr payload sig => Sys2Proof.Machine.execPortRelease hdr payload sig s
  | .moduleReset hdr payload sig => Sys2Proof.Machine.execModuleReset hdr payload sig s
  | .moduleFreeze hdr payload sig => Sys2Proof.Machine.execModuleFreeze hdr payload sig s
  | .wmStatus hdr payload sig => Sys2Proof.Machine.execWmStatus hdr payload sig s
  | .budgetSet hdr payload sig => Sys2Proof.Machine.execBudgetSet hdr payload sig s
  | .rollCall frame => Sys2Proof.Machine.execRollCall frame s
  | .presentTimer => Sys2Proof.Machine.execPresentTimer s
  | .alertRepeat code => Sys2Proof.Machine.execAlertRepeat code s
  | .stageRepeat => Sys2Proof.Machine.execStageRepeat s
  | .freeze frame => Sys2Proof.Machine.execFreeze frame s
  | .resetReqCold frame => Sys2Proof.Machine.execResetReqCold frame s
  | .resetReqWarm frame => Sys2Proof.Machine.execResetReqWarm frame s
  | .wm frame => Sys2Proof.Machine.execWm frame s
  | .ack frame => Sys2Proof.Machine.execAck frame s
  | .towpathForward frame => Sys2Proof.Machine.execTowpathForward frame s
  | .wmMessageResend msgId => Sys2Proof.Machine.execWmMessageResend msgId s
  | .towpathCommandResend seq => Sys2Proof.Machine.execTowpathCommandResend seq s
  | .frameMarker word => Sys2Proof.Machine.execFrameMarker word s
  | .refclkLoss => Sys2Proof.Machine.execRefclkLoss s
  | .referenceRecovery refFrame => Sys2Proof.Machine.execReferenceRecovery refFrame s
  | .powerSample sample => Sys2Proof.Machine.execPowerSample sample s
  | .trimUpdate measured => Sys2Proof.Machine.execTrimUpdate measured s
  | .voltageReached => Sys2Proof.Machine.execVoltageReached s
  | .alertNFall => Sys2Proof.Machine.execAlertNFall s
  | .alertHoldExpiry => Sys2Proof.Machine.execAlertHoldExpiry s
  | .droopStart p => Sys2Proof.Machine.execDroopStart p s
  | .droopEnd p => Sys2Proof.Machine.execDroopEnd p s
  | .droopDeferExpiry => Sys2Proof.Machine.execDroopDeferExpiry s
  | .thermalThrottle => Sys2Proof.Machine.execThermalThrottle s
  | .thermalTrip sensor temp => Sys2Proof.Machine.execThermalTrip sensor temp s
  | .thermalHoldEnd => Sys2Proof.Machine.execThermalHoldEnd s
  | .hotSwapClose inputMv => Sys2Proof.Machine.execHotSwapClose inputMv s
  | .hotSwapOpen => Sys2Proof.Machine.execHotSwapOpen s
  | .railPowerGood rail => Sys2Proof.Machine.execRailPowerGood rail s
  | .railPowerGoodTimeout rail => Sys2Proof.Machine.execRailPowerGoodTimeout rail s
  | .railOutOfRange point => Sys2Proof.Machine.execRailOutOfRange point s
  | .rstCmdCell value => Sys2Proof.Machine.execRstCmdCell value s
  | .rstCmdCellGroup value => Sys2Proof.Machine.execRstCmdCellGroup value s
  | .rstCmdMemoryChannelGroup value => Sys2Proof.Machine.execRstCmdMemoryChannelGroup value s
  | .rstCmdFerry value => Sys2Proof.Machine.execRstCmdFerry value s
  | .rstCmdIntake value => Sys2Proof.Machine.execRstCmdIntake value s
  | .rstCmdHawser value => Sys2Proof.Machine.execRstCmdHawser value s
  | .rstCmdComputeWarmReset value => Sys2Proof.Machine.execRstCmdComputeWarmReset value s
  | .cellWatchdog c => Sys2Proof.Machine.execCellWatchdog c s
  | .memControllerWatchdog ctl => Sys2Proof.Machine.execMemControllerWatchdog ctl s
  | .engineWatchdog engine => Sys2Proof.Machine.execEngineWatchdog engine s
  | .decodeWatchdog engine => Sys2Proof.Machine.execDecodeWatchdog engine s
  | .hawserWatchdog => Sys2Proof.Machine.execHawserWatchdog s
  | .heartbeatMiss => Sys2Proof.Machine.execHeartbeatMiss s
  | .resetHandshakeDone dom check => Sys2Proof.Machine.execResetHandshakeDone dom check s
  | .handshakeTimeout dom => Sys2Proof.Machine.execHandshakeTimeout dom s
  | .computeWarmReset cause => Sys2Proof.Machine.execComputeWarmReset cause s
  | .coldReset cause => Sys2Proof.Machine.execColdReset cause s
  | .abortReceive src payload => Sys2Proof.Machine.execAbortReceive src payload s
  | .abortResendTimer => Sys2Proof.Machine.execAbortResendTimer s
  | .stage0PowerSweep seen => Sys2Proof.Machine.execStage0PowerSweep seen s
  | .stage1RomBoot seen => Sys2Proof.Machine.execStage1RomBoot seen s
  | .stage2Fuses seen => Sys2Proof.Machine.execStage2Fuses seen s
  | .stage3Lpddr6Training seen => Sys2Proof.Machine.execStage3Lpddr6Training seen s
  | .stage4Cells seen => Sys2Proof.Machine.execStage4Cells seen s
  | .waveRelease wave => Sys2Proof.Machine.execWaveRelease wave s
  | .stage5Mesh seen => Sys2Proof.Machine.execStage5Mesh seen s
  | .stage6Ports seen => Sys2Proof.Machine.execStage6Ports seen s
  | .stage7Links seen => Sys2Proof.Machine.execStage7Links seen s
  | .dhcpTimeout => Sys2Proof.Machine.execDhcpTimeout s
  | .stage8Join seen => Sys2Proof.Machine.execStage8Join seen s
  | .stage9InService seen => Sys2Proof.Machine.execStage9InService seen s
  | .stageLimitExpiry => Sys2Proof.Machine.execStageLimitExpiry s
  | .consoleHelp => Sys2Proof.Machine.execConsoleHelp s
  | .consoleVer => Sys2Proof.Machine.execConsoleVer s
  | .consoleStage => Sys2Proof.Machine.execConsoleStage s
  | .consoleStageLog => Sys2Proof.Machine.execConsoleStageLog s
  | .consoleState => Sys2Proof.Machine.execConsoleState s
  | .consoleTemp => Sys2Proof.Machine.execConsoleTemp s
  | .consoleVolt => Sys2Proof.Machine.execConsoleVolt s
  | .consoleProc => Sys2Proof.Machine.execConsoleProc s
  | .consolePower => Sys2Proof.Machine.execConsolePower s
  | .consoleRails => Sys2Proof.Machine.execConsoleRails s
  | .consolePorts => Sys2Proof.Machine.execConsolePorts s
  | .consoleFab => Sys2Proof.Machine.execConsoleFab s
  | .consoleMem => Sys2Proof.Machine.execConsoleMem s
  | .consoleEng => Sys2Proof.Machine.execConsoleEng s
  | .consoleCells => Sys2Proof.Machine.execConsoleCells s
  | .consoleSelftestCell p pass => Sys2Proof.Machine.execConsoleSelftestCell p pass s
  | .consoleSelftestDecode e pass => Sys2Proof.Machine.execConsoleSelftestDecode e pass s
  | .consoleSelftestMem ch pass => Sys2Proof.Machine.execConsoleSelftestMem ch pass s
  | .consoleDump addr len => Sys2Proof.Machine.execConsoleDump addr len s
  | .consoleOosClear confirm => Sys2Proof.Machine.execConsoleOosClear confirm s
  | .consoleResetWarm confirm => Sys2Proof.Machine.execConsoleResetWarm confirm s
  | .consoleResetCold confirm => Sys2Proof.Machine.execConsoleResetCold confirm s
  | .consoleFreeze confirm => Sys2Proof.Machine.execConsoleFreeze confirm s
  | .consoleReadout => Sys2Proof.Machine.execConsoleReadout s
  | .consoleLedTest => Sys2Proof.Machine.execConsoleLedTest s
  | .freezeN => Sys2Proof.Machine.execFreezeN s
  | .resetN => Sys2Proof.Machine.execResetN s
  | .auxPinChange level => Sys2Proof.Machine.execAuxPinChange level s
  | .jtagReadout => Sys2Proof.Machine.execJtagReadout s
  | .jtagDebug => Sys2Proof.Machine.execJtagDebug s
  | .moverCommandComplete mover => Sys2Proof.Machine.execMoverCommandComplete mover s
  | .pairWindowWrite w => Sys2Proof.Machine.execPairWindowWrite w s
  | .agentAnswer agent env body => Sys2Proof.Machine.execAgentAnswer agent env body s
  | .alertNRise => Sys2Proof.Machine.execAlertNRise s
  | .freezeNRise => Sys2Proof.Machine.execFreezeNRise s
  | .resetNRise => Sys2Proof.Machine.execResetNRise s
  | .pairLinkChange up => Sys2Proof.Machine.execPairLinkChange up s
  | .ethernetLinkChange port up => Sys2Proof.Machine.execEthernetLinkChange port up s
  | .cagePresenceChange cage present => Sys2Proof.Machine.execCagePresenceChange cage present s
  | .leadSilenceRelease inst => Sys2Proof.Machine.execLeadSilenceRelease inst s
  | .railBackInRange point => Sys2Proof.Machine.execRailBackInRange point s
  | .deferredResetStart dom => Sys2Proof.Machine.execDeferredResetStart dom s

end Sys2Proof.Machine
end

