-- ==== Sys2Proof/Machine/Tick.lean ====
section
/-! DEFINITION. What the passing of one tick of the reference does by itself, with no command waiting (DESIGN CHOICE, log 2). -/

namespace Sys2Proof.Machine

/-- Elapsed time goes on, the tick count follows once it is set (R297), except for the ticks it is held back on a recovery of the
reference, at whose end it agrees with the reference again (R299). -/
def State.timePasses (s : State) : State :=
  let t := s.time
  if !t.tickSet then { s with time := { t with clock := t.clock + 1, live := t.live + 1 } }
  else if 0 < t.hold then
    let s1 : State := { s with time := { t with clock := t.clock + 1, live := t.live + 1, hold := t.hold - 1 } }
    if t.hold = 1 then s1.refBack else s1
  else { s with time := { t with clock := t.clock + 1, live := t.live + 1, tick := (t.tick + 1) % 2 ^ 64 } }

/-- Host reads that had no tag are asked for again (R244). -/
def State.askAgain (s : State) : State :=
  if !s.linkUp then s
  else
    let s1 := forEach (s.jobs.map fun j => (j.sq, j.slot)) (fun s j => s.askJob 1024 j.1 j.2) s
    let s2 := forEach (s1.movers.map (·.1)) (fun s m => s.askPiece 1024 m) s1
    forEach (s2.cells.map (·.1)) (fun s c => s.dmaAsk c) s2

/-- Descriptors fetched that fail their checks complete, and rings are fetched from (R251, R252). -/
def State.serveRings (s : State) : State :=
  if s.starts then (forEach (s.hst.sqs.map (·.1)) (fun s n => s.settleRing (s.sq n).ready.length n) s).fetch else s

/-- A packet at the head of an open or management VC that would leave over a port waits on OFF or a stale state there (R334)
(DESIGN CHOICE, log 79). -/
def State.waitsOff (s : State) (q : Nat) : Bool :=
  (List.range 7).any fun inp => [2, 3, 4, 5].any fun vc =>
    match s.vcBuf inp vc with
    | [] => false
    | b :: _ =>
      let h := b.pkt.hdr
      let d := s.destEntry (hEpoch h) (hDst h)
      let port := if hCls h = clsMgmt then fieldNat d 13 11 else fieldNat d 10 8
      decide (some (hDst h) ≠ s.self) && bitAt d 0 && (decide (port = q) || (hCls h = clsOpen && (s.adaptive (hEpoch h) (hDst h)).contains q))
        && decide (s.permit q (s.vcFor h q) = .off)

/-- The start of a link slot: each lane sends its marker (R278); in a free slot each port sends its flow-state LCB and behind it the link control
blocks that wait (R309), and one in which a packet waited on OFF or a stale state is counted (R334). A port with a foreign partner sends no more than
the partner exchange (R284) (DESIGN CHOICE, log 81). -/
def State.slotStarts (s : State) : State :=
  if !s.agentUp ∨ !s.time.tickSet ∨ s.time.tick % 4 ≠ 0 then s
  else
    forEach (List.range 6) (fun (s : State) q =>
      if !s.portOn q then s
      else
        let s1 : State := { s with fab := { s.fab with markOut := s.fab.markOut ++ s.markers q } }
        if !s1.lcbSlot q then s1
        else if (s1.port q).foreign then s1.flushLcbs q
        else
          let s2 := (s1.beginSlot q).flushLcbs q
          if s2.waitsOff q then s2.tel q fun t => { t with offSlots := t.offSlots + 1 } else s2) s

/-- The STATE report of the agent, every ten management cycles (R399, R436): its state code, last stage report and demand
(DESIGN CHOICE, log 80). -/
def State.stateReport (s : State) : State :=
  if s.agentUp ∧ s.time.tickSet ∧ s.time.tick % 1000000 = 0 then
    s.agentReport 0x44 (leBytes 1 s.stateCode ++ leBytes 4 s.boot.report.toNat ++ leBytes 2 s.demandUnits)
  else s

/-- The cells go on by themselves: bundles of NOPs issue, and an idle array begins what waits for it (R64, R65, R71, R115). -/
def State.cellsGoOn (s : State) : State :=
  forEach (s.cells.map (·.1)) (fun s c => ((s.ready c .fg).ready c .tr).settleArray c) s

/-- Work of the compute part that only waited: replays (R457), launches that waited for owned time to end (R266), periods of timetables
(R173), remote copies (R142), and packets that wait at injection or in the reduction table. -/
def State.computeGoesOn (s : State) : State :=
  if s.compute then (((((((((s.holdAllArgs).serveRings).askAgain).moversGoOn).pumpReplay).startLaunches).settleAll).settleCopies).cellsGoOn).ticketSignal else s

/-- One tick passes. Nothing goes on while the module is frozen or held in cold reset but time itself. -/
def State.idle (s : State) : State :=
  if s.frz.frozen ∨ s.rst.cold then { s with time := { s.time with clock := s.time.clock + 1, live := s.time.live + 1 } }
  else ((((((s.timePasses).computeGoesOn).pumpHeld).pumpInject).pumpReds).slotStarts).stateReport

/-- The outcome of a step with no command waiting: one tick passes, and set-up values keep as they keep under a command (R544). -/
def tick : State → Host.Outcome State Fault Refusal := act State.idle

end Sys2Proof.Machine
end

