-- ==== Sys2Proof/Safety.lean ====
section
/-! DEFINITION. The terms that claims are stated in: a step that goes on, the canonical form of set-up, and for each shape of command
the conditions under which it does its work. -/

namespace Sys2Proof.Machine

/-- The step answers a next state. -/
def goesOn (s : State) : Prop := ∃ t, step s = .next t

/-- The set-up words hold their canonical form: keys rise, and no word equal to its reset word is listed (R548). -/
def setupCanonical : Nat → List (Nat × BitVec 32) → Bool
  | _, [] => true
  | lo, (k, v) :: r => decide (lo ≤ k) && decide (v ≠ resetWord k) && setupCanonical (k + 1) r

/-! ### Descriptors (R252, R255) -/

/-- The descriptor d in its slot is the oldest fetched one of a ring that may start one now, and passes steps 1 to 5 of R255. -/
abbrev State.headStarts (s : State) (sq slot : Nat) (d : Line) (rest : List Fetched) : Prop :=
  s.starts = true ∧ s.heldBack sq = false ∧ (s.started sq).length < 1024 ∧ (s.sq sq).ready = { slot := slot, desc := d } :: rest
    ∧ s.precheck sq d = none

/-- The state in which the descriptor has left the fetched ones of its ring. -/
def State.taken (s : State) (sq : Nat) (rest : List Fetched) : State := s.updSq sq fun q => { q with ready := rest }

/-- What follows a start: descriptors behind it that fail their checks complete, and rings are fetched from (R251, R252). -/
def State.followed (s : State) (sq : Nat) : State := (s.settleRing (s.sq sq).ready.length sq).fetch

/-! ### Bundles (R88 to R91, R115) -/

/-- A thread stands at a bundle whose slot k holds the operation op, and the slot is still to take effect: u is the state with the bundle
in issue, i the registers as they stood at issue, x the slot's bits. -/
abbrev State.slotTurn (s : State) (c : Nat) (t : Thread) (k : Slot) (op : Nat) (u : State) (i : Issue) (x : Nat) : Prop :=
  (((s.ready c t).th c t).running = true ∨ ((s.ready c t).th c t).issue.isSome = true) ∧ slotOp ((s.ready c t).bundle c t) k = op
    ∧ (s.ready c t).beginIssue c t = some u ∧ (u.th c t).issue = some i ∧ (i.left >>> k.idx) &&& 1 = 1
    ∧ x = slotOf ((s.ready c t).bundle c t) k

/-- A thread stands at a bundle with the wait operation op and may issue: u is the state with its step base set, x the slot's bits. -/
abbrev State.waitTurn (s : State) (c : Nat) (t : Thread) (op : Nat) (u : State) (x : Nat) : Prop :=
  slotOp ((s.ready c t).bundle c t) .ct = op ∧ ((s.ready c t).th c t).issue = none ∧ ((s.ready c t).th c t).released = false
    ∧ (s.ready c t).canIssue c t = true ∧ x = slotOf ((s.ready c t).bundle c t) .ct
    ∧ u = (s.ready c t).updTh c t fun th => th.waitBase op s.time.tick

/-! ### Mailboxes (R270, R272) -/

/-- A request of a type stands in an H mailbox and is served: u has the mailbox free. -/
abbrev State.asks (s : State) (n type : Nat) (u : State) : Prop :=
  (s.mbox .h n).full = true ∧ fieldNat (sget 0 (s.mbox .h n).words 0) 7 0 = type ∧ s.frz.frozen = false ∧ s.rst.cold = false
    ∧ s.rst.warm = false ∧ s.hst.paused = false ∧ u = s.setMbox .h n { s.mbox .h n with full := false, drop := false }

/-- The payload of the request in an H mailbox, as a number. -/
def State.asked (s : State) (n : Nat) : Nat := leNat ((sgetRun 0 (s.mbox .h n).words 1 62).flatMap fun w => leBytes 4 w.toNat)

/-- The seq of the request in an H mailbox. -/
def State.askSeq (s : State) (n : Nat) : Nat := fieldNat (sget 0 (s.mbox .h n).words 0) 31 16

/-! ### Register writes and resets (R7, R444, R546) -/

/-- A set-up register holds a word, and every other register, the recorded errors, the queue, contexts and memory are as they were; the cells
too, but where the write falls the alert wire, which takes them to OP0 (R429). -/
abbrev State.stored (s t : State) (off : Nat) (w : BitVec 32) : Prop :=
  t.word off = w ∧ (∀ o, o ≠ off → t.word o = s.word o) ∧ t.setupErr = s.setupErr ∧ t.pending = s.pending ∧ t.ethq = s.ethq
    ∧ t.ctxs = s.ctxs ∧ (t.alertLow = s.alertLow → t.cells = s.cells) ∧ t.mem = s.mem

/-- A refusal is recorded (R545): set-up is as it was; the first refusal leaves its offset and code, and each one counts. -/
abbrev State.refusedWrite (s t : State) (off code : Nat) : Prop :=
  t.setup = s.setup ∧ t.ethq = s.ethq ∧ t.pending = s.pending ∧ t.setupErr.count = satAdd 16 s.setupErr.count 1 ∧ t.setupErr.valid = true
    ∧ (s.setupErr.valid = true → t.setupErr.offset = s.setupErr.offset ∧ t.setupErr.code = s.setupErr.code)
    ∧ (s.setupErr.valid = false → t.setupErr.offset = BitVec.ofNat 24 off ∧ t.setupErr.code = BitVec.ofNat 7 code)

/-- Nothing holds back a reset of a domain below the compute domain: no cold or warm reset, no freeze, no reset of it or around it under way,
and its last one has ended at least 1 ms ago. -/
abbrev State.mayReset (s : State) (d : Domain) : Prop :=
  s.rst.cold = false ∧ s.rst.warm = false ∧ s.frz.frozen = false ∧ (s.rst.active.any fun r => r.dom = d || domInside d r.dom) = false
    ∧ s.tooSoon d = false

/-! ### Sequenced commands and operator commands (R387, R400) -/

/-- A sequenced command whose turn it is at the agent: under its epoch, while the lease is live, with the next seq. -/
abbrev State.inTurn (s : State) (env : BitVec 256) : Prop :=
  s.agentUp = true ∧ eAnswer env = false ∧ eEpoch env = s.agent.epoch ∧ s.leaseLive = true ∧ eSeq env = s.agent.nextSeq

/-- What follows a sequenced command that was done: its result is kept with its body_crc, the next seq is due, its sender is answered, and
held commands whose turn has come run. -/
def State.obeyed (env : BitVec 256) (sender : End) (r : Did) : State :=
  (State.answerCmd { r.1 with agent := { r.1.agent with
    kept := (r.1.agent.kept ++ [(eSeq env, eCrc env, BitVec.ofNat 8 r.2.1, eRole env)]).drop (r.1.agent.kept.length - 255)
    nextSeq := eSeq env + 1 } } env sender r.2.1 r.2.2).runHeld 65

/-- An operator command that the active Watermaster executes if it is signed: in good form, with a seq above the last of its key. -/
abbrev State.operates (s : State) (code : Nat) (h : BitVec 256) (b : List Byte) (p : List Byte) : Prop :=
  s.agentUp = true ∧ s.ids.isNone = false ∧ s.rst.warm = false ∧ s.hst.paused = false ∧ ohCode h = code ∧ ohBad h b = false ∧ s.wm.role = .active
    ∧ s.flash.plan = some p ∧ s.wm.queryWait = none ∧ sget 0 s.wm.sh.keySeq (ohKey h) < ohSeq h ∧ payloadOk h b = true

/-- What an operator command leaves: its effect, and the command among the inputs of the cycle (R392, R402). -/
def State.operated (u : State) (h : BitVec 256) (b : List Byte) : State :=
  { u with wm := { u.wm with inputs := u.wm.inputs ++ [.operator h b] } }

/-- The outcome of an operator command: u where its signature is that of its key in the plan, DENIED where it is not (R386). -/
def State.opOutcome (s u : State) (h : BitVec 256) (b p : List Byte) (sig : BitVec 512) : Host.Outcome State Fault Refusal :=
  .next (commit s (if signedBy p h b sig then u.operated h b else s.opSay h opDenied 0x01 0))

end Sys2Proof.Machine
end

