-- ==== Sys2Proof/Certificates/Slice0/Obligations.lean ====
section
/-! DEFINITION. The statements for the provers: what each family of commands does, the queue and the step, set-up, memory, register files,
and the exact-window arithmetic. -/

open Sys2Proof Sys2Proof.Machine

/-! ### Descriptors of a submission ring (R252, R255, R259 to R268)

Each clause takes a descriptor at the head of a ring that may start it, with fields that pass the checks of its opcode, in a state in which
nothing turns it away, and gives the state that follows: u is the state with the descriptor taken from the ring; what follows the effect is
`followed` (descriptors behind it that fail their checks, and fetches). -/

/-- NOP, SYNC_SIGNAL, SYNC_WAIT and PHASE_HINT (R259, R267, R180) have their effect and complete, or wait. The model's own choices in it:
logs 27 and 119. -/
def Obligations.SyncDescriptorsRun : Prop :=
  ∀ (s : State) (sq : Fin 256) (slot : Nat) (d : Line) (rest : List Fetched), s.headStarts sq slot d rest →
    let u := s.taken sq rest
    let c := (u.sq sq).ctx
    let i := fieldNat d 156 144
    let n := fieldNat d 173 160
    let ok (w : State) : State := (w.complete sq slot d { status := stOk }).followed sq
    (fieldNat d 7 0 = 0x00 → exec (.nop sq) s = .next (commit s (ok u)))
    ∧ (fieldNat d 7 0 = 0x0B → sigAction d = 0 → sigBad d = none → u.objOk i c = true →
        exec (.syncSignalAdd sq) s = .next (commit s (ok (u.syncAdd i (signed 32 (fieldNat d 223 192))))))
    ∧ (∀ j, fieldNat d 7 0 = 0x0B → sigAction d = 1 → sigBad d = none → u.freeRun n = some j →
        exec (.syncSignalAllocate sq) s = .next (commit s
          ((((List.range n).foldl (fun w k => w.setObj (j + k) { count := 0, ctx := c, valid := true, fabricAbort := bitAt d 130 }) u).complete
            sq slot d { status := stOk, r0 := j }).followed sq)))
    ∧ (fieldNat d 7 0 = 0x0B → sigAction d = 2 → sigBad d = none → (∀ k < n, u.objOk (i + k) c = true) → u.objWaited i n = false →
        exec (.syncSignalRelease sq) s = .next (commit s (ok { u with sync := sclear u.sync i (i + n) })))
    ∧ (fieldNat d 7 0 = 0x0C → waitBad d = none → u.objOk i c = true → (u.obj i).aborted = false →
        exec (.syncWait sq) s = .next (commit s
          (if signed 48 (fieldNat d 239 192) ≤ (u.obj i).count then ok u
          else State.followed { u.startJob sq slot d .syncWait with
            syncWaits := u.syncWaits ++ [
              { sq := sq, slot := slot, object := i, target := signed 48 (fieldNat d 239 192), satisfied := false, aborted := false,
                due := if fieldNat d 271 256 = 0 then 0 else u.now + msTicks (fieldNat d 271 256) }] } sq)))
    ∧ (fieldNat d 7 0 = 0x0D → fieldNat d 223 192 ≠ 0 → fieldNat d 227 224 = 1 → fieldNat d 511 228 = 0 →
        exec (.phaseHint sq) s = .next (commit s (ok
          (if fieldNat d 191 128 + fieldNat d 223 192 ≤ u.time.tick then u
          else { u with tt := { u.tt with
            barriers := u.tt.barriers ++ [{ ctx := c, start := fieldNat d 191 128, len := fieldNat d 223 192 }] } }))))

/-- COPY, FILL and WEIGHT_LOAD (R141, R143, R265) start: one piece, or the pieces of a spread command, go to the movers' queues. -/
def Obligations.MoveDescriptorsStart : Prop :=
  ∀ (s : State) (sq : Fin 256) (slot : Nat) (d : Line) (rest : List Fetched), s.headStarts sq slot d rest →
    let u := s.taken sq rest
    let c := (u.sq sq).ctx
    let go (k : MoverCmd) (spread : Bool) : State :=
      let ps := if spread then cutPieces k else [k]
      ((u.startJob sq slot d (.move ps.length none 0 0 0 0 [])).dispatchPieces sq true ps).followed sq
    let m := moveCmd true sq slot c d
    (fieldNat d 7 0 = 0x01 → moveBad true d = none → (m.srcSpace = 0 → u.beyond m.src m.len = false ∧ u.rangePage c false m.src m.len = none) →
        (m.dstSpace = 0 → u.beyond m.dst m.len = false ∧ u.rangePage c true m.dst m.len = none) →
        (m.dstSpace = 2 → u.inSliceOf c.toNat m.dstMod = true) →
        (u.conf c.toNat = true → ¬(m.srcSpace = 1 ∧ inCells m.dst = true) ∧ ¬(m.dstSpace = 1 ∧ inCells m.src = true)) →
        exec (.copy sq) s = .next (commit s (go m (bitAt d 260))))
    ∧ (let f := moveCmd false sq slot c d;
      fieldNat d 7 0 = 0x02 → moveBad false d = none → f.srcSpace = 0 → f.dstSpace = 0 → u.beyond f.dst f.len = false →
        u.rangePage c true f.dst f.len = none → exec (.fill sq) s = .next (commit s (go f (bitAt d 260))))
    ∧ (let dst := fieldNat d 239 192
        let len := fieldNat d 287 256
        let ws := u.weightIds c.toNat;
        fieldNat d 7 0 = 0x04 → weightBad d = none → u.beyond dst len = false → u.rangePage c true dst len = none →
        (ws.length < 1024 ∨ ws.contains (fieldNat d 319 288) = true) →
        exec (.weightLoad sq) s = .next (commit s (go
          { kind := .weight, sq := sq, slot := slot, ctx := c, srcSpace := 1, src := fieldNat d 191 128, dst := dst, len := len }
          (bitAt d 320))))

/-- PROGRAM_LOAD from device memory (R112, R113, R264): an image that passes its checks is in every named cell, and the descriptor
completes. LAUNCH_OPEN (R266) and TRICKLE_SUBMIT (R176, R177) queue their work. The model's own choices in it: logs 26 and 118. -/
def Obligations.ProgramDescriptorsRun : Prop :=
  ∀ (s : State) (sq : Fin 256) (slot : Nat) (d : Line) (rest : List Fetched), s.headStarts sq slot d rest →
    let u := s.taken sq rest
    let c := (u.sq sq).ctx
    let queued (e : TrickleEntry) : State :=
      let id := u.tt.nextId
      let w := u.startJob sq slot d (.trickle id)
      State.followed { w with tt := { w.tt with
        queue := w.tt.queue ++ [{ e with id := id, sq := sq.val, slot := slot, ctx := (u.sq sq).ctx }], nextId := id + 1 } } sq
    (let src := fieldNat d 191 128
      let len := fieldNat d 255 224
      let cells := maskCells (fieldNat d 383 256)
      ∀ w img, fieldNat d 7 0 = 0x03 → fieldNat d 193 192 = 0 → regionOf src = .lpddr → src + len ≤ u.capacity → fieldNat d 223 194 = 0 →
        imgLenOk len = true → fieldNat d 383 256 ≠ 0 → fieldNat d 511 384 = 0 → u.pageFail c false false src len = none →
        (∀ x ∈ cells, (u.cell x).failed = false) → u.moduleRead c src len = (w, .ok img) →
        len = 128 + 32 * bytesField (img.take 128) 92 80 → imgBad img = none →
        (∀ x ∈ cells, w.imageBusy x (bytesField (img.take 128) 75 64) (bytesField (img.take 128) 92 80) = false) → s.memWaits src len = false →
        exec (.programLoad sq) s = .next (commit s
          (((forEach cells (fun v x => v.updCell x fun y => y.loadImage
              { ctx := (w.sq sq).ctx, base := bytesField (img.take 128) 75 64, count := bytesField (img.take 128) 92 80,
                entry := bytesField (img.take 128) 107 96, thread := if bytesField (img.take 128) 113 112 = 2 then .tr else .fg,
                digest := BitVec.ofNat 384 (bytesField (img.take 128) 895 512) }
              ((List.range (bytesField (img.take 128) 92 80)).map (imgBundle img))) w).endDesc sq slot d { status := stOk }).followed sq)))
    ∧ (let cells := maskCells (fieldNat d 319 192);
      fieldNat d 7 0 = 0x05 → cells ≠ [] → (∀ x ∈ cells, (u.cell x).failed = false ∧
          ((u.cell x).image .fg c (fieldNat d 139 128)).isSome = true) → fieldNat d 143 140 = 0 →
        u.argOk c (fieldNat d 191 144) 64 8 = true → fieldNat d 511 320 = 0 →
        exec (.launchOpen sq) s = .next (commit s
          ((forEach cells (fun w x => w.startLaunch x)
            (forEach cells (fun w x => w.updCell x fun y => { y with launches := y.launches ++ [((sq : Nat), slot)] })
              (u.startJob sq slot d (.launch cells 0 false false none)))).followed sq)))
    ∧ (let mask := fieldNat d 351 224
      let named := if mask = 0 then List.range 128 else maskCells mask;
      fieldNat d 7 0 = 0x06 → trickleKind d = 0 → fieldNat d 135 130 = 0 → fieldNat d 159 148 = 0 → fieldNat d 223 208 = 0 →
        fieldNat d 511 352 = 0 → u.argOk c (fieldNat d 207 160) 64 8 = true →
        (∃ x ∈ named, ((u.cell x).entryImage .tr c (fieldNat d 147 136)).isSome = true ∧ (u.cell x).failed = false) →
        u.tt.queue.length < 4096 →
        exec (.trickleSubmitProgram sq) s = .next (commit s
          (queued { bundle := fieldNat d 147 136, argAddr := fieldNat d 207 160, mask := BitVec.ofNat 128 mask })))
    ∧ (let src := fieldNat d 271 224
      let dst := fieldNat d 319 272
      let len := fieldNat d 351 320;
      fieldNat d 7 0 = 0x06 → trickleKind d = 1 → fieldNat d 135 130 = 0 → fieldNat d 147 136 = 0 → fieldNat d 159 148 = 0 →
        fieldNat d 207 160 = 0 → fieldNat d 223 208 = 0 → fieldNat d 511 352 = 0 → 4 ≤ len → len % 4 = 0 →
        moverRange src len = true → moverRange dst len = true → overlaps src dst len = false → u.beyond src len = false →
        u.beyond dst len = false → u.rangePage c false src len = none → u.rangePage c true dst len = none → u.tt.queue.length < 4096 →
        exec (.trickleSubmitPrefetch sq) s = .next (commit s (queued { prefetch := true, src := src, dst := dst, len := len })))

/-- TIMETABLE_LOAD, STREAM_ADMIT at the first phase asked for, TIMETABLE_ARM and STREAM_RELEASE (R155, R157, R160, R161). The model's own
choices in it: logs 29, 30, 122 and 156. -/
def Obligations.TimetableDescriptorsRun : Prop :=
  ∀ (s : State) (sq : Fin 256) (slot : Nat) (d : Line) (rest : List Fetched), s.headStarts sq slot d rest →
    let u := s.taken sq rest
    let c := (u.sq sq).ctx
    (let addr := fieldNat d 175 128
      let len := fieldNat d 223 192
      ∀ w o, fieldNat d 7 0 = 0x07 → addr % 64 = 0 → regionOf addr = .lpddr → addr + len ≤ u.capacity →
        (∀ p ∈ pagesOf addr len, ((u.page p).state = .owned ∨ (u.page p).state = .shared) ∧ (u.page p).ctx = c) →
        fieldNat d 191 176 = 0 → 160 ≤ len → len % 32 = 0 → len ≤ 128 + 32 * 65535 → fieldNat d 511 232 = 0 →
        u.moduleRead c addr len = (w, .ok o) → len = 128 + 32 * bytesField (o.take 128) 175 160 → ttBad o = none →
        (∀ i ∈ w.tt.instances, ¬(i.ctx = c ∧ i.object.handle = fieldNat d 231 224 ∧ i.state ≠ .reserved)) → s.memWaits addr len = false →
        exec (.timetableLoad sq) s = .next (commit s
          ((State.complete { w with tt := { w.tt with
              objects := (w.tt.objects.filter fun x => !(x.ctx = c && x.handle = fieldNat d 231 224)) ++ [ttParse c (fieldNat d 231 224) addr o] } }
            sq slot d { status := stOk }).followed sq)))
    ∧ (let id := fieldNat d 145 136
      let phase := max (fieldNat d 207 160) (u.frame + 4)
      ∀ (answers : List MemberAnswer) v o rec_, fieldNat d 7 0 = 0x09 → s.tt.search = none → u.ttObj c (fieldNat d 135 128) = some o →
        o.member = o.lead → (∀ i ∈ u.tt.instances, i.id ≠ id) → fieldNat d 159 146 = 0 → fieldNat d 223 208 = 0 → fieldNat d 231 230 = 0 →
        fieldNat d 247 232 ≤ (u.ctx c.toNat).itkCount → fieldNat d 511 248 = 0 → s.recordWaits sq d = false →
        u.searchParts c d = (v, some (o, .ok rec_)) → (∀ r, rec_ = some r → v.recBad c o.period r = none) → v.frame = u.frame →
        (let b := (v.startJob sq slot d .search).beginPhase
            { sq := sq, slot := slot, inst := id, phase := phase, last := phase + fieldNat d 229 224, answers := answers, object := o
              itk := fieldNat d 247 232, record := rec_ };
          b.2.asks = .fit →
          exec (.streamAdmit sq answers) s = .next (commit s
            (((State.enrol { b.1 with tt := { b.1.tt with search := none } } b.2).endDesc sq slot d
              { status := stOk, r0 := phase }).followed sq))))
    ∧ (let args := fieldNat d 191 144
      ∀ (w : State) (i : Instance) (answers : List (Fin 512 × ArmAnswer)), fieldNat d 7 0 = 0x08 →
        (u.tt.instances.find? fun i => i.id = fieldNat d 137 128 && i.ctx = c && i.isLead && i.state = .admitted && !i.arming) = some i →
        fieldNat d 143 138 = 0 → u.argOk c args 16384 64 = true → fieldNat d 511 193 = 0 → s.objectWaits d = false →
        u.digestOk i.object = (w, .ok true) → othersFail i.object answers = none →
        (let j := i.firstFrom u.time.tick
          let v := w.tellMembers i.id i.object (.arm (i.phase + j * i.object.period) args (bitAt d 192));
          exec (.timetableArm sq answers) s = .next (commit s
            (((State.startJob { v with tt := { v.tt with skipped := sset 0 v.tt.skipped i.id 0 } } sq slot d (.arm i.id)).updInst i.id fun i' =>
              { i' with arming := true, firstPeriod := j, recorded := j, args := args, quiet := bitAt d 192, sq := sq, slot := slot }).followed
                sq))))
    ∧ (∀ (i : Instance), fieldNat d 7 0 = 0x0A →
        (u.tt.instances.find? fun i => i.id = fieldNat d 137 128 && i.ctx = c && i.isLead) = some i → fieldNat d 511 139 = 0 →
        exec (.streamRelease sq) s = .next (commit s
          (if i.state = .armed ∨ i.state = .releasing then
            ((u.startJob sq slot d (.release i.id)).release i.id (bitAt d 138) { status := stOk }).followed sq
          else ((u.release i.id (bitAt d 138) { status := stOk }).complete sq slot d { status := stOk }).followed sq)))

/-- FERRY_PLACE and FERRY_OPEN (R193, R194, R201, R202): a session opens and closes, entries go to the inactive bank, a swap is taken on.
The model's own choices in it: logs 34 and 99. -/
def Obligations.FerryDescriptorsRun : Prop :=
  ∀ (s : State) (sq : Fin 256) (slot : Nat) (d : Line) (rest : List Fetched), s.headStarts sq slot d rest →
    let u := s.taken sq rest
    let c := (u.sq sq).ctx
    (∀ (x : Session) w bs, fieldNat d 7 0 = 0x0E → fryAction d = 0 → u.session c = some x → x.swapStep = none →
        fieldNat d 157 144 + fieldNat d 174 160 ≤ x.pcount → fieldNat d 143 130 = 0 → fieldNat d 159 158 = 0 → fieldNat d 174 160 ≠ 0 →
        fieldNat d 174 160 ≤ 16384 → bitAt d 175 = false → fieldNat d 223 176 % 64 = 0 → regionOf (fieldNat d 223 176) = .lpddr →
        fieldNat d 223 176 + 32 * fieldNat d 174 160 ≤ u.capacity → fieldNat d 239 224 = 0 → fieldNat d 511 240 = 0 →
        u.pageFail c false false (fieldNat d 223 176) (32 * fieldNat d 174 160) = none →
        s.memWaits (fieldNat d 223 176) (32 * fieldNat d 174 160) = false → u.moduleRead c (fieldNat d 223 176) (32 * fieldNat d 174 160) = (w, .ok bs) →
        (∀ b ∈ chunks 32 bs, plBad (BitVec.ofNat 256 (leNat b)) = false ∧
          (plValid (BitVec.ofNat 256 (leNat b)) = true → w.inSliceOf x.ctx.toNat (plHome (BitVec.ofNat 256 (leNat b))) = true)) →
        exec (.ferryPlaceWrite sq) s = .next (commit s
          (((w.putPlacements (!x.active) (x.pbase + fieldNat d 157 144) ((chunks 32 bs).map fun b => BitVec.ofNat 256 (leNat b))).complete
            sq slot d { status := stOk }).followed sq)))
    ∧ (∀ (x : Session), fieldNat d 7 0 = 0x0E → fryAction d = 1 → u.session c = some x → x.swapStep = none →
        (∀ l, x.lastStep = some l → later (fieldNat d 239 224) l = true) → fieldNat d 143 130 = 0 → fieldNat d 157 144 = 0 →
        fieldNat d 159 158 = 0 → fieldNat d 174 160 = 0 → bitAt d 175 = false → fieldNat d 223 176 = 0 → fieldNat d 511 240 = 0 →
        exec (.ferryPlaceSwap sq) s = .next (commit s
          ((((u.startJob sq slot d .swap).updSession c fun x => { x with swapStep := some (fieldNat d 239 224), swapJob := (sq, slot) }).settleSwap
            c).followed sq)))
    ∧ (let pb := fieldNat d 157 144
        let pc := fieldNat d 174 160
        let base := fieldNat d 303 256
        let len := fieldNat d 351 320;
        fieldNat d 7 0 = 0x0F → fryAction d = 0 → u.session c = none → (∀ x ∈ u.fry.sessions, ¬(pb < x.pbase + x.pcount ∧ x.pbase < pb + pc)) →
        pb + pc ≤ 16384 → 0 < pc → fieldNat d 143 130 = 0 → fieldNat d 159 158 = 0 → bitAt d 175 = false →
        fieldNat d 184 176 < fieldNat d 201 192 → fieldNat d 191 185 = 0 → fieldNat d 201 192 ≤ 512 → fieldNat d 223 202 = 0 →
        fieldNat d 255 244 = 0 → base % 64 = 0 → (len ≠ 0 → regionOf base = .lpddr ∧ base + len ≤ u.capacity) → fieldNat d 319 304 = 0 →
        len % 64 = 0 → fieldNat d 511 352 = 0 → u.pageFail c true false base len = none →
        exec (.ferryOpenOpen sq) s = .next (commit s
          ((State.complete { u with fry := { u.fry with sessions := u.fry.sessions ++ [
              { ctx := c, pbase := pb, pcount := pc, srcIndex := fieldNat d 184 176, nSrc := fieldNat d 201 192,
                openMax := fieldNat d 243 224, parkBase := base, parkBytes := len }] } } sq slot d { status := stOk }).followed sq)))
    ∧ (fieldNat d 7 0 = 0x0F → fryAction d = 1 → fieldNat d 511 130 = 0 →
        exec (.ferryOpenClose sq) s = .next (commit s
          (((u.closeSession c).1.complete sq slot d
            (if (u.closeSession c).2 = 0 then { status := stOk } else { status := stPartial, r0 := (u.closeSession c).2 })).followed sq)))

/-- KEY_INSTALL, TENANT_REMOVE and ATTEST (R503, R512, R517): the blob is asked for, the removal begins, the report goes to the host, or waits
for the link while it is down (R246). The model's own choices in it: logs 62, 86 and 136. -/
def Obligations.SecurityDescriptorsRun : Prop :=
  ∀ (s : State) (sq : Fin 256) (slot : Nat) (d : Line) (rest : List Fetched), s.headStarts sq slot d rest →
    let u := s.taken sq rest
    let c := (u.sq sq).ctx.toNat
    (fieldNat d 7 0 = 0x10 → keyBad d = none →
        exec (.keyInstall sq) s = .next (commit s ((u.startGather sq slot d (fieldNat d 191 128) 1344).followed sq)))
    ∧ (fieldNat d 7 0 = 0x11 → fieldNat d 131 128 ≠ 0 → fieldNat d 511 132 = 0 →
        exec (.tenantRemove sq) s = .next (commit s
          (((u.startJob sq slot d .removal).askRemoval (fieldNat d 131 128) (some (sq.val, slot))).followed sq)))
    ∧ (let t := fieldNat d 229 224;
        fieldNat d 7 0 = 0x12 → fieldNat d 191 128 % 64 = 0 → fieldNat d 217 216 ≠ 3 → fieldNat d 223 218 = 0 → fieldNat d 255 230 = 0 →
        (c = 0 ∨ t = c) → (u.ctx t).live = true → (u.ctx t).removing = false → (u.attestBytes d).length ≤ fieldNat d 215 192 →
        exec (.attest sq) s = .next (commit s (State.followed
          (if u.linkOpen then (u.hostWr (fieldNat d 191 128) (u.attestBytes d)).complete sq slot d
              { status := stOk, r0 := (u.attestBytes d).length, r1 := u.time.tick }
            else u.startJob sq slot d (.report (fieldNat d 191 128) (u.attestBytes d) (u.attestBytes d).length u.time.tick)) sq)))

/-- FW_BLOCK, FW_ACTIVATE and FW_STATUS (R524 to R529, R536): a block is asked for, an update is discarded, an activation begins
where the staged image passes its checks again and ends with SECURITY_DENIED where it fails one, the status goes to the host, or waits for the
link while it is down (R246). The active Watermaster's pause waits for the standby's epoch (R25). The
model's own choices in it: logs 73 and 86. -/
def Obligations.FirmwareDescriptorsRun : Prop :=
  ∀ (s : State) (sq : Fin 256) (slot : Nat) (d : Line) (rest : List Fetched), s.headStarts sq slot d rest →
    let u := s.taken sq rest
    (fieldNat d 7 0 = 0x13 → fwKind d = 0 → fwBlockBad d = none → u.fwTurned d = none →
        exec (.fwBlockHeader sq) s = .next (commit s ((u.startGather sq slot d (fieldNat d 191 128) (fieldNat d 287 256)).followed sq)))
    ∧ (fieldNat d 7 0 = 0x13 → fwKind d = 1 → fwBlockBad d = none → u.fwTurned d = none →
        exec (.fwBlockStream sq) s = .next (commit s ((u.startGather sq slot d (fieldNat d 191 128) (fieldNat d 287 256)).followed sq)))
    ∧ (fieldNat d 7 0 = 0x13 → fwKind d = 2 → fwBlockBad d = none → u.fwTurned d = none →
        exec (.fwBlockAbort sq) s = .next (commit s (((u.setFw Update.discard).complete sq slot d { status := stOk }).followed sq)))
    ∧ (let kind := fieldNat d 129 128;
        fieldNat d 7 0 = 0x14 → (kind = 1 ∧ u.fw.withUcode = false ∨ kind = 2 ∧ u.fw.withUcode = true ∧ u.quiesced = true) →
        fieldNat d 511 130 = 0 → u.fw.state = .staged → u.rst.replay = none → u.partnerFw ≠ 4 → u.partnerFw ≠ 5 →
        (let v := (u.startJob sq slot d .activate).setFw fun f => { f with
              state := .activating, stateBefore := BitVec.ofNat 8 u.stateCode, hawserWasUp := u.hst.up
              hadRole := decide (u.wm.role ≠ .none), ucodeBad := false, falling := false };
          exec (.fwActivate sq) s = .next (commit s (State.followed
            (match u.stagedFails with
              | some c => (u.setFw fun f => { f.emptyOther with state := .idle, lastResult := 3, lastCode := BitVec.ofNat 8 c }).complete
                  sq slot d { status := stSecDenied, detail := c }
              | none => if u.wm.role = .active then { v with fw := { v.fw with pauseWait := true } } else v.beginPause) sq))))
    ∧ (fieldNat d 7 0 = 0x15 → fieldNat d 191 128 % 64 = 0 → 128 ≤ fieldNat d 207 192 → fieldNat d 511 208 = 0 →
        exec (.fwStatus sq) s = .next (commit s
          (State.followed (if u.linkOpen then (u.hostWr (fieldNat d 191 128) u.fwStatusBytes).complete sq slot d { status := stOk, r0 := 128 }
            else u.startJob sq slot d (.report (fieldNat d 191 128) u.fwStatusBytes 128 0)) sq)))

/-- CONTEXT_CREATE, CONTEXT_DESTROY, FENCE and QUERY (R261 to R263, R467, R268). The model's own choices in it: logs 82, 83, 84 and 85. -/
def Obligations.ContextDescriptorsRun : Prop :=
  ∀ (s : State) (sq : Fin 256) (slot : Nat) (d : Line) (rest : List Fetched), s.headStarts sq slot d rest →
    let u := s.taken sq rest
    let c := (u.sq sq).ctx
    (let n := fieldNat d 133 128
        let pages := rangePages (pageRanges d);
        fieldNat d 7 0 = 0x16 → lowestBad (u.createBad d) = none → fieldNat d 172 168 = 0 → fieldNat d 139 136 = 0 → bitAt d 146 = false →
        (∀ p ∈ pages, (u.page p).state = .free ∧ (u.page p).retained = false) → u.job sq slot = none →
        exec (.contextCreate sq) s = .next (commit s
          ((State.endDesc { u with
              ctxs := sset {} u.ctxs n { live := true, keySlot := BitVec.ofNat 4 0, slice := BitVec.ofNat 8 (fieldNat d 167 160), windows := []
                                         itkBase := fieldNat d 431 384, itkCount := fieldNat d 442 432 }
              pages := pages.foldl (fun m p => sset {} m p
                (assigned (BitVec.ofNat 6 n) (BitVec.ofNat 4 0) ((pageRanges d).any fun r => r.shared && r.has p))) u.pages
              } sq slot d { status := stOk }).followed sq)))
    ∧ (let n := fieldNat d 133 128
        let x : BitVec 6 := BitVec.ofNat 6 n;
        fieldNat d 7 0 = 0x17 → n ≠ 0 → (u.ctx n).live = true → fieldNat d 511 134 = 0 → u.ringsOf x = [] → u.conf n = false →
        exec (.contextDestroy sq) s = .next (commit s
          ((((((((u.releaseAll x).stopLaunches x .fenced).stopTrickle x .fenced).fenceTrickle x).closeSession x).1.forgetCtx x).complete
            sq slot d { status := stOk }).followed sq)))
    ∧ (let all := decide (fieldNat d 129 128 = 1)
        let rings := u.otherRings c sq
        let cut := if all && bitAt d 130 then rings else []
        let n := sumOf (cut.map fun r => (u.sq r).ready.length)
        let waits := (u.jobs.filter fun (j : Job) => decide (j.sq = (sq : Nat)) || (all && rings.contains j.sq)).map fun j => (j.sq, j.slot)
        let w := (forEach cut (fun v r => v.fenceReady r) u).startJob sq slot d (.fence waits n (bitAt d 131));
        fieldNat d 7 0 = 0x18 → fieldNat d 129 128 < 2 → fieldNat d 511 132 = 0 →
        exec (.fence sq) s = .next (commit s (((w.settleFences w.jobs.length).settleCloses).followed sq)))
    ∧ (fieldNat d 7 0 = 0x19 → fieldNat d 159 136 = 0 → fieldNat d 255 192 % 64 = 0 → 64 ≤ fieldNat d 271 256 → fieldNat d 271 256 ≤ 4096 →
        fieldNat d 511 272 = 0 →
        (let bs := (u.report d).take (fieldNat d 271 256)
          let told : State := State.followed
            (if u.linkOpen then (u.hostWr (fieldNat d 255 192) bs).complete sq slot d { status := stOk, r0 := bs.length }
            else u.startJob sq slot d (.report (fieldNat d 255 192) bs bs.length 0)) sq
          (querySel d = 1 → fieldNat d 191 160 % 4 = 0 → u.conf c.toNat = false → exec (.queryRegisters sq) s = .next (commit s told))
          ∧ (querySel d = 2 → fieldNat d 191 160 = 0 → u.conf c.toNat = false → exec (.queryEscapeCounters sq) s = .next (commit s told))
          ∧ (querySel d = 3 → fieldNat d 191 160 < 64 → (u.ctx (fieldNat d 191 160)).live = true →
              (u.conf c.toNat = false ∨ fieldNat d 191 160 = c.toNat) → exec (.queryContextSummary sq) s = .next (commit s told))))

/-! ### Register writes and resets by command (R470, R541 to R546) -/

/-- A write that is not refused stores the fields of its register and nothing else (R7, R546): every set-up register through REG_WR, and the
rows of GEN_SETUP_LOCK, GEN_AUX, FRY_TKT_MIN, FAB_FC and FAB_FC2; the words of
ETH_Q_n in either state of the lock (R304, R544): word 0 for a context that may have a queue, the others while the queue is off. A read is
answered with the register's value, and with 0xFFFF_FFFF, counted, where no access reaches (R248). The model's own choices in it: log 13. -/
def Obligations.SetupWritesTake : Prop :=
  (∀ (s : State) (v : BitVec 32), setupCanonical 0 s.setup = true → s.hostReach = true → s.locked = false →
    (∀ (off : BitVec 32) m, rwlMask off.toNat = some m → off ≠ 0x8 → s.refusal off.toNat v = none →
        ∃ t, exec (.regWr off (.write v)) s = .next t ∧ s.stored t off.toNat (v &&& m))
    ∧ (∃ t, exec (.genSetupLock v) s = .next t ∧ s.stored t 0x8 (v &&& 1) ∧ t.locked = bitAt v 0)
    ∧ (fieldNat v 1 0 ≠ 3 → (s.fld 0x20 0 2 = 0 ∨ fieldNat v 1 0 = s.fld 0x20 0 2) →
        ∃ t, exec (.genAux v) s = .next t ∧ s.stored t 0x20 (v &&& 7))
    ∧ (fieldNat v 7 0 + fieldNat v 15 8 + fieldNat v 23 16 ≤ 256 → ∃ t, exec (.fryTktMin v) s = .next t ∧ s.stored t 0x500010 v)
    ∧ (min 128 (fieldNat v 7 0) > max 51 (fieldNat v 15 8) → max 51 (fieldNat v 15 8) > max 51 (fieldNat v 23 16) + 8 →
        ∃ t, exec (.fabFc v) s = .next t ∧ s.stored t 0x702000 (v &&& 0x0FFFFFFF))
    ∧ (min 96 (fieldNat v 7 0) > max 51 (fieldNat v 15 8) →
        ∃ t, exec (.fabFc2 v) s = .next t ∧ s.stored t 0x702004 (v &&& 0x00FFFFFF)))
  ∧ (∀ (s : State) (q : Fin 32) (v : BitVec 32), s.hostReach = true →
    (bitAt v 0 = true → fieldNat v 7 2 ≠ 0 → (s.ctx (fieldNat v 7 2)).live = true → s.ctxSlot (fieldNat v 7 2) = 0 →
        ∃ t, exec (.ethQEnable q v) s = .next t ∧ t.ethq = sset 0 s.ethq (8 * q.val) (v &&& 0x00FFFFFF) ∧ t.setup = s.setup
          ∧ t.setupErr = s.setupErr ∧ t.eth = if s.ethEnabled q.val then s.eth else sset {} s.eth q.val {})
    ∧ (∀ w : Fin 8, w ≠ 0 → s.ethEnabled q.val = false →
        ∃ t, exec (.ethQWordWrite q w v) s = .next t ∧ t.ethq = sset 0 s.ethq (8 * q.val + w.val) (v &&& ethMask w.val) ∧ t.setup = s.setup
          ∧ t.setupErr = s.setupErr ∧ t.eth = s.eth))
  ∧ (∀ (s : State) (off : BitVec 32) (tag : BitVec 10), s.hostReach = true →
    let answer (u : State) (x : BitVec 32) : State := u.hostMsg { type := 0x04, tag := tag.toNat, data := leBytes 4 x.toNat, len := 4 }
    (regOutside off.toNat = false →
        exec (.regWr off (.read tag)) s = .next (commit s (answer s (s.readReg off.toNat))))
    ∧ (regOutside off.toNat = true → exec (.regWr off (.read tag)) s = .next (commit s
        (answer { s with cnt := { s.cnt with hstStale := satAdd 8 s.cnt.hstStale 1 } } 0xFFFFFFFF))))

/-- A refused write changes no register and is recorded with its cause (R545, codes 0x01 to 0x06); clearing valid clears all but the count;
a write of word 0 that clears enable is accepted; GEN_SETUP_ERR reads as it was recorded. -/
def Obligations.RefusedWritesRecorded : Prop :=
  ∀ (s : State) (v : BitVec 32), s.hostReach = true →
    (∀ (off : BitVec 32) m, rwlMask off.toNat = some m → s.locked = true →
        ∃ t, exec (.regWr off (.write v)) s = .next t ∧ s.refusedWrite t off.toNat 0x05)
    ∧ (s.locked = false → (fieldNat v 1 0 = 3 ∨ (s.fld 0x20 0 2 ≠ 0 ∧ fieldNat v 1 0 ≠ s.fld 0x20 0 2)) →
        ∃ t, exec (.genAux v) s = .next t ∧ s.refusedWrite t 0x20 0x01)
    ∧ (s.locked = false → 256 < fieldNat v 7 0 + fieldNat v 15 8 + fieldNat v 23 16 →
        ∃ t, exec (.fryTktMin v) s = .next t ∧ s.refusedWrite t 0x500010 0x02)
    ∧ (∀ q : Fin 32, bitAt v 0 = true → (fieldNat v 7 2 = 0 ∨ (s.ctx (fieldNat v 7 2)).live = false ∨ s.ctxSlot (fieldNat v 7 2) ≠ 0) →
        ∃ t, exec (.ethQEnable q v) s = .next t ∧ s.refusedWrite t (0xD00100 + 32 * q.val) 0x03)
    ∧ (s.locked = false → (max 51 (fieldNat v 15 8) ≥ min 128 (fieldNat v 7 0) ∨ max 51 (fieldNat v 15 8) ≤ max 51 (fieldNat v 23 16) + 8) →
        ∃ t, exec (.fabFc v) s = .next t ∧ s.refusedWrite t 0x702000 0x04)
    ∧ (s.locked = false → max 51 (fieldNat v 15 8) ≥ min 96 (fieldNat v 7 0) →
        ∃ t, exec (.fabFc2 v) s = .next t ∧ s.refusedWrite t 0x702004 0x04)
    ∧ (∀ (q : Fin 32) (w : Fin 8), w ≠ 0 → s.ethEnabled q.val = true →
        ∃ t, exec (.ethQWordWrite q w v) s = .next t ∧ s.refusedWrite t (0xD00100 + 32 * q.val + 4 * w.val) 0x06)
    ∧ (∃ t, exec (.genSetupErrClear v) s = .next t ∧ t.setup = s.setup ∧ t.pending = s.pending ∧ t.setupErr =
        if bitAt v 31 then { count := s.setupErr.count } else s.setupErr)
    ∧ (∀ q : Fin 32, bitAt v 0 = false → ∃ t, exec (.ethQEnable q v) s = .next t ∧ t.setupErr = s.setupErr ∧ t.setup = s.setup ∧
        t.ethq = sset 0 s.ethq (8 * q.val) (v &&& 0x00FFFFFF))
    ∧ (s.readReg 0x10).toNat = s.setupErr.offset.toNat + s.setupErr.code.toNat * 2 ^ 24 + s.setupErr.valid.toNat * 2 ^ 31
    ∧ (s.readReg 0x14).toNat = min s.setupErr.count 0xFFFF

/-- A write of RST_CMD that names an instance starts its reset with cause 0x02, host command (R444, R470): RST_CMD_CELL, _CELL_GROUP,
_MEMORY_CHANNEL_GROUP, _FERRY, _INTAKE, _HAWSER and _COMPUTE_WARM_RESET. The model's own choices in it: log 128. -/
def Obligations.ResetCommandsStart : Prop :=
  ∀ (s : State) (v : BitVec 32), s.hostReach = true →
    let i := fieldNat v 11 4
    (∀ h : i < 128, fieldNat v 3 0 = 1 → s.mayReset (.cell ⟨i, h⟩) →
        exec (.rstCmdCell v) s = .next (commit s (s.startReset (.cell ⟨i, h⟩) 0x02 [])))
    ∧ (∀ h : i < 16, fieldNat v 3 0 = 2 → s.mayReset (.group ⟨i, h⟩) →
        exec (.rstCmdCellGroup v) s = .next (commit s (s.startReset (.group ⟨i, h⟩) 0x02 [])))
    ∧ (∀ h : i < 32, fieldNat v 3 0 = 3 → s.mayReset (.memGroup ⟨i, h⟩) →
        exec (.rstCmdMemoryChannelGroup v) s = .next (commit s (s.startReset (.memGroup ⟨i, h⟩) 0x02 [])))
    ∧ (i = 0 → fieldNat v 3 0 = 4 → s.mayReset .ferry → exec (.rstCmdFerry v) s = .next (commit s (s.startReset .ferry 0x02 [])))
    ∧ (i = 0 → fieldNat v 3 0 = 5 → s.mayReset .intake → exec (.rstCmdIntake v) s = .next (commit s (s.startReset .intake 0x02 [])))
    ∧ (i = 0 → fieldNat v 3 0 = 6 → s.mayReset .hawser → exec (.rstCmdHawser v) s = .next (commit s (s.startReset .hawser 0x02 [])))
    ∧ (i = 0 → fieldNat v 3 0 = 8 → s.mayReset .compute → exec (.rstCmdComputeWarmReset v) s = .next (commit s (s.startWarm 0x02 true)))

/-! ### Doorbells, link and host reads (R243 to R253) -/

/-- The Hawser link: doorbells of open rings, writes that no doorbell takes, and the event timer (R250, R253); the link falls, trains and is
tried again, and flits with a bad CRC are sent again, those of the Hawser link counted (R243, R274, R276, R285); replies to host reads, their
time-out, and the end of a wait for the link (R244, R246, R251). The model's own choices in it: logs 14, 69, 77, 78 and 180, by which the flit
that fails is a free value. -/
def Obligations.HostLinkActs : Prop :=
  (∀ (s : State) (n : Fin 256) (v : BitVec 32),
    (s.linkUp = true → (s.sq n).isOpen = true → (s.sq n).error = false → (v.toNat + 2 ^ 32 - (s.sq n).producer) % 2 ^ 32 < 2 ^ 31 →
        (v.toNat + 2 ^ 32 - (s.sq n).fetched % 2 ^ 32) % 2 ^ 32 ≤ 2 ^ (s.sq n).log2n →
        exec (.sqProducerIndex n ⟨0, 4, v⟩) s = .next (commit s (s.updSq n fun q => { q with producer := v.toNat }).fetch))
    ∧ (∀ (o : BitVec 12) bytes, s.linkUp = true → (bytes ≠ 4 ∨ (o ≠ 0 ∧ o ≠ 0x40 ∧ o ≠ 0x80) ∨ (s.sq n).isOpen = false ∧ o = 0) →
        exec (.sqProducerIndex n ⟨o, bytes, v⟩) s = .next (commit s
          { s with cnt := { s.cnt with badDoorbell := satAdd 8 s.cnt.badDoorbell 1 } }))
    ∧ (s.linkUp = true → (s.cq n).isOpen = true → (s.sq n).error = false →
        (let u := s.updCq n fun q => { q with consumed := v.toNat };
          exec (.cqConsumerIndex n v) s = .next (commit s (u.flushSteps u.tt.stepQueue.length).fetch)))
    ∧ (s.linkUp = true → (s.cq n).isOpen = true → (s.sq n).error = false → (s.cq n).armed = false →
        exec (.cqEventArm n v) s = .next (commit s (s.updCq n fun q => { q with armed := true, evSeen := 0 })))
    ∧ ((s.cq n).isOpen = true → (s.cq n).armed = true → 0 < (s.cq n).evSeen → (s.cq n).evFirst + usTicks (s.cq n).evUs ≤ s.now →
        exec (.cqEventTimer n) s = .next (commit s
          ((s.updCq n fun q => { q with armed := false, evSeen := 0 }).hostEvent (s.cq n).vector.toNat))))
  ∧ (∀ (s : State) (eight : Bool) (port : BitVec 2),
    (s.hst.up = true → exec .hawserLinkDown s = .next (commit s { s with hst := { s.hst with
        up := false, lanes := 0, downAt := s.now, retryAt := s.now } }))
    ∧ (let reads := (s.hst.reads.filter fun r => r.purpose ≠ .gone && r.purpose ≠ .spent).map fun (r : HostRead) => { r with at_ := s.now }
      let u : State := { s with
        hst := { s.hst with
          up := true, inReset := false, lanes := if eight then 8 else 4, adapterPort := port, trainedOnce := true, reads := reads
          heldOut := [], flits := [], wire := [] }
        cnt := { s.cnt with hstRetrains := if s.hst.trainedOnce then satAdd 16 s.cnt.hstRetrains 1 else s.cnt.hstRetrains } }
      (s.hst.up = false ∨ s.hst.inReset = true) → exec (.hawserLinkTrained eight port) s = .next (commit s
        ((forEach (s.hst.heldOut.map (·.late s.time.tick) ++
            reads.map fun r => { type := 0x01, tag := r.tag, addr := r.addr, len := r.len }) (fun s m => s.hostMsg m) u).sendReports.fetch)))
    ∧ (s.hst.up = false → s.hst.retryAt + msTicks 1000 ≤ s.now →
        exec .hawserLinkRetry s = .next (commit s { s with hst := { s.hst with retryAt := s.now } }))
    ∧ (s.linkOpen = true → s.fab.pairUp = true →
        (let u : State := { s with freeCtr := s.freeCtr + 1 }
          let counted (fs : List Flit) : State := { u with
            hst := { s.hst with wire := s.hst.wire ++ fs }, cnt := { s.cnt with replays := satAdd 8 s.cnt.replays 1 } }
          let pair (fs : List Flit) : State := { u with fab := { s.fab with pairWire := s.fab.pairWire ++ fs } }
          let bad (bs : List (BitVec 8)) : Prop := leNat (bs.drop 252) ≠ (crc32c (bs.take 252)).toNat;
          exec .flitReplay s = .next (commit s (match s.flitLoss.2 with
            | .sent k => counted (s.hst.flits.filter fun f => decide (k ≤ f.seq))
            | .received bs => if bad bs then counted [{ nack := true }] else u
            | .pairSent k => pair (s.fab.pairFlits.filter fun f => decide (k ≤ f.seq))
            | .pairReceived bs => if bad bs then pair [{ nack := true }] else u)))))
  ∧ (∀ (s : State) (r : HostRead),
    (∀ (tag : BitVec 10) (data : List Byte), s.linkUp = true → s.readOf tag.toNat = some r →
        (data.length = r.len → s.rst.warm = false →
            exec (.hostRdData tag s.rst.hawserGen 0 ⟨0x11, data⟩) s = .next (commit s ((s.readDone r.tag).readGood r data)))
        ∧ exec (.hostRdData tag s.rst.hawserGen 1 ⟨0x11, data⟩) s = .next (commit s ((s.readDone r.tag).readFailed r)))
    ∧ (∀ (tag : BitVec 10) (gen : BitVec 8) (err : BitVec 2) (type : BitVec 8) (data : List Byte), s.linkUp = true →
        (type < 0x11 ∨ 0x16 < type ∨ type = 0x11 ∧ gen ≠ s.rst.hawserGen) →
        exec (.hostRdData tag gen err ⟨type, data⟩) s = .next (commit s { s with cnt := { s.cnt with hstStale := satAdd 8 s.cnt.hstStale 1 } }))
    ∧ (∀ (tag : BitVec 10), s.linkUp = true → s.readOf tag.toNat = some r → r.at_ + s.rdTimeout ≤ s.now →
        exec (.hostRdTimeout tag) s = .next (commit s ((s.readDone r.tag).readFailed r)))
    ∧ (∀ (sq : Fin 256) (slot : BitVec 16) (j : Job) need asked base got, s.job sq slot.toNat = some j → j.kind = .gather need asked base got →
        (joinGot got).length < need → s.linkUp = false → max s.hst.downAt j.start + s.holdTicks ≤ s.now →
        exec (.holdMsExpiry sq slot) s = .next (commit s (s.gatherFailed sq slot.toNat 2)))
    ∧ (∀ (sq : Fin 256) (slot : BitVec 16) (j : Job) addr bs r0 r1, s.job sq slot.toNat = some j → j.kind = .report addr bs r0 r1 →
        s.linkUp = false → max s.hst.downAt j.start + s.holdTicks ≤ s.now →
        exec (.holdMsExpiry sq slot) s = .next (commit s (s.finish sq slot.toNat { status := stTimeout, detail := 2 }))))

/-! ### Mailboxes (R269 to R272) -/

/-- A word written into a free H mailbox, a write discarded, and the words read by the host (R269, R270); the requests of the H mailboxes have
their effect and are answered OK in the F mailbox of the same number (R250, R272). The model's own choices in it: logs 12 and 16. -/
def Obligations.MailboxesServe : Prop :=
  (∀ (s : State) (n : Fin 16) (v : BitVec 32) (o : BitVec 8), s.linkUp = true →
    (o.toNat % 4 = 0 → o.toNat ≠ 252 → (s.mbox .h n).full = false →
        exec (.mboxWr .h n o v) s = .next (commit s (s.setMbox .h n { s.mbox .h n with
          words := sset 0 (s.mbox .h n).words (o.toNat / 4) v, full := decide (o = 0) })))
    ∧ ((s.mbox .h n).full = true →
        exec (.mboxWr .h n o v) s = .next (commit s (s.setMbox .h n { s.mbox .h n with drop := true }).mboxDropped))
    ∧ exec (.mboxWr .f n o v) s = .next (commit s s.mboxDropped)
    ∧ (∀ tag : BitVec 10,
        let said (x : Nat) : State := s.hostMsg { type := 0x04, tag := tag.toNat, data := leBytes 4 x, len := 4 }
        exec (.mboxStatusRead .f n ⟨true, 252, tag⟩) s = .next (commit s
          (((said ((s.mbox .f n).full.toNat + (s.mbox .f n).drop.toNat * 2)).setMbox .f n
            { s.mbox .f n with full := false, drop := false }).fwFlush n))
        ∧ (o.toNat % 4 = 0 → o ≠ 252 →
          exec (.mboxStatusRead .f n ⟨true, o, tag⟩) s = .next (commit s (said (sget 0 (s.mbox .f n).words (o.toNat / 4)).toNat))
          ∧ exec (.mboxStatusRead .h n ⟨false, o, tag⟩) s = .next (commit s (said (sget 0 (s.mbox .h n).words (o.toNat / 4)).toNat)))))
  ∧ (∀ (s u : State) (n : Fin 16),
    let p := s.asked n
    let q := s.askSeq n
    (s.asks n 0x01 u → u.sqOpenStatus p = stOk →
        exec (.sqOpen n) s = .next (commit s ((u.updSq (pf p 7 0) fun _ =>
          { isOpen := true, ctx := BitVec.ofNat 6 (pf p 13 8), cq := pf p 23 16, weight := BitVec.ofNat 4 (pf p 27 24), base := pf p 95 32,
            log2n := pf p 100 96 }).fwReply n q stOk [])))
    ∧ (s.asks n 0x02 u → (u.sq (pf p 7 0)).isOpen = true → (u.sq (pf p 7 0)).closing = false →
        (let w := (u.updSq (pf p 7 0) fun x => { x with closing := true, closeSeq := q, closeBox := n }).fenceReady (pf p 7 0);
          exec (.sqClose n) s = .next (commit s
            (forEach ((w.tt.instances.filter fun i => (i.arming || i.state = .armed) && i.isLead && i.sq = pf p 7 0).map (·.id))
              (fun w id => w.release id false { status := stOk }) w).settleCloses)))
    ∧ (s.asks n 0x03 u → u.cqOpenStatus p = stOk →
        exec (.cqOpen n) s = .next (commit s ((u.updCq (pf p 7 0) fun _ =>
          { isOpen := true, vector := BitVec.ofNat 8 (pf p 23 16), base := pf p 95 32, log2n := pf p 100 96, evCount := pf p 119 112,
            evUs := pf p 127 120 }).fwReply n q stOk [])))
    ∧ (s.asks n 0x04 u → (u.cq (pf p 7 0)).isOpen = true → (∀ e ∈ u.hst.sqs, ¬(e.2.isOpen = true ∧ e.2.cq = pf p 7 0)) →
        exec (.cqClose n) s = .next (commit s
          ((State.updCq { u with tt := { u.tt with stepQueue := u.tt.stepQueue.filter fun e => e.1 ≠ pf p 7 0 } } (pf p 7 0) fun _ => {}).fwReply
            n q stOk [])))
    ∧ (s.asks n 0x05 u → fieldNat (sget 0 (s.mbox .h n).words 0) 13 8 < 62 →
        exec (.ping n) s = .next (commit s
          (u.fwReply n q stOk (sgetRun 0 (s.mbox .h n).words 1 (fieldNat (sget 0 (s.mbox .h n).words 0) 13 8))))))

/-! ### Bundles (R88 to R110)

Each clause takes a thread that stands at a bundle with the operation in its slot, yet to take effect (`slotTurn`): u is the state with the
bundle in issue, i the registers as they stood at issue, x the slot's bits. `slotDone` marks the slot as done, and the bundle that has
issued whole lets its thread go on. -/

/-- The LD slot moves lines, address registers and predicates to and from the cell's memory (R92, R93). -/
def Obligations.LoadsAndStoresRun : Prop :=
  ∀ (s u : State) (c : Fin 128) (t : Thread) (i : Issue) (x : Nat),
    let row (op : Nat) (ins : Instr) (v : State) : Prop := s.slotTurn c t .ld op u i x → exec ins s = .next (commit s (v.slotDone c t .ld))
    let lines := List.range (sf x 21 4 + 1)
    row 0x01 (.ldl c t) (forEach lines (fun w k => w.putV c t (sf x 6 5 + k / 4)
        (putField (sget 0 (w.th c t).v (sf x 6 5 + k / 4)) (512 * (k % 4)) 512 (w.cellNat c (ldAddr i.a x k) 64))) u)
    ∧ row 0x02 (.stl c t) (forEach lines (fun w k => w.cellPut c (ldAddr i.a x k)
        (leBytes 64 ((sget 0 i.v (sf x 6 5 + k / 4)).toNat / 2 ^ (512 * (k % 4))))) u)
    ∧ row 0x03 (.lda c t) (u.putA c t (sf x 6 5) (BitVec.ofNat 64 (u.cellNat c (ldAddr i.a x 0) 8)))
    ∧ row 0x04 (.sta c t) (u.cellPut c (ldAddr i.a x 0) (leBytes 8 (regA i.a (sf x 6 5)).toNat))
    ∧ row 0x05 (.ldp c t) (u.putP c t (sf x 6 3) (BitVec.ofNat 128 (u.cellNat c (ldAddr i.a x 0) 16)))
    ∧ row 0x06 (.stp c t) (u.cellPut c (ldAddr i.a x 0) (leBytes 16 (sget 0 i.p (sf x 6 3)).toNat))

/-- The arithmetic of the MV slot on address registers; A0 discards what is written to it and reads 0 (R53, R104). -/
def Obligations.AddressArithmeticRuns : Prop :=
  ∀ (s u : State) (c : Fin 128) (t : Thread) (i : Issue) (x : Nat),
    let row (op : Nat) (ins : Instr) (v : BitVec 64) : Prop := s.slotTurn c t .mv op u i x →
      exec ins s = .next (commit s (State.slotDone
        (if sf x 6 5 = 0 then u else u.updTh c t fun th => { th with a := sset 0 th.a (sf x 6 5) v }) c t .mv))
    let a := regA i.a (sf x 11 5)
    let b := regA i.a (sf x 16 5)
    row 0x01 (.ali c t) (mvImm x) ∧ row 0x02 (.aaddi c t) (a + mvImm x) ∧ row 0x03 (.aadd c t) (a + b) ∧ row 0x04 (.aand c t) (a &&& b)
    ∧ row 0x05 (.ashl c t) (a <<< sf x 16 6) ∧ row 0x06 (.ashr c t) (a.sshiftRight (sf x 16 6)) ∧ regA i.a 0 = 0

/-- Lane arithmetic and comparison (R50, R102): each lane's exact result rounded once to its type, lanes that the predicate leaves out kept or
zeroed; of the odd positions of a 32-bit comparison nothing is stated. The model's own choices in it: logs 18 and 24. -/
def Obligations.LaneArithmeticRuns : Prop :=
  ∀ (s u : State) (c : Fin 128) (t : Thread) (i : Issue) (x : Nat),
    let row (op : Nat) (ins : Instr) (v : State) : Prop := s.slotTurn c t .vx op u i x → exec ins s = .next (commit s (v.slotDone c t .vx))
    let m := laneFmt (sf x 6 2)
    let w := laneBits (sf x 6 2)
    let lanes (new : List Nat) : State :=
      u.putV c t (sf x 8 5) (ofLanes w (maskLanes x (vxPred i x) w (lanesOf w (sget 0 i.v (sf x 8 5))) new))
    let as := lanesOf w (sget 0 i.v (sf x 13 5))
    let bs := lanesOf w (sget 0 i.v (sf x 18 5))
    let cs := lanesOf w (sget 0 i.v (sf x 23 5))
    let two (f : Val → Val → Val) : State := lanes ((as.zip bs).map fun e => m.round .nearest (f (m.decode e.1) (m.decode e.2)))
    row 0x01 (.vadd c t) (two Val.add) ∧ row 0x02 (.vsub c t) (two fun a b => a.add b.neg) ∧ row 0x03 (.vmul c t) (two Val.mul)
    ∧ row 0x04 (.vfma c t) (lanes (((as.zip bs).zip cs).map fun e =>
        m.round .nearest (((m.decode e.1.1).mul (m.decode e.1.2)).add (m.decode e.2))))
    ∧ row 0x05 (.vmin c t) (two Val.minOf) ∧ row 0x06 (.vmax c t) (two Val.maxOf)
    ∧ (let r := sf (vxImm x) 0 3
      let rs := (as.zip bs).map fun e => cmpVal (sf (vxImm x) 3 3) (m.decode e.1) (m.decode e.2)
      let odd := (Config.vcmpOdd (sf (vxImm x) 3 3) (sget 0 i.v (sf x 13 5)) (sget 0 i.v (sf x 18 5))).toNat
      row 0x07 (.vcmp c t) (if sf x 6 2 = 0 then
          u.putP c t r (maskPred x (vxPred i x) (sget 0 i.p r) (ofBits (rs.zipIdx.flatMap fun e => [e.1, odd.testBit e.2])))
        else u.putP c t r (maskPred x (vxPred i x) (sget 0 i.p r) (ofBits rs))))
    ∧ row 0x08 (.vsel c t) (u.putV c t (sf x 8 5) (ofLanes w ((as.zip bs).zipIdx.map fun e =>
        if predBit (vxPred i x) w e.2 then e.1.1 else e.1.2)))

/-- Lane logic, conversion and predicate set (R51, R52, R102, R103); reciprocal and its kin, the tree of VRED, and the moves between A and V
registers (R75, R76, R102): special inputs take the IEEE result, any other one within 2 ulp of the exact result. The model's own choices
in it: logs 19, 22, 23, 25 and 168. -/
def Obligations.LaneLogicAndFunctionsRun : Prop :=
  (∀ (s u : State) (c : Fin 128) (t : Thread) (i : Issue) (x : Nat),
    let row (op : Nat) (ins : Instr) (v : State) : Prop := s.slotTurn c t .vx op u i x → exec ins s = .next (commit s (v.slotDone c t .vx))
    let w := laneBits (sf x 6 2)
    let as := lanesOf w (sget 0 i.v (sf x 13 5))
    let bs := lanesOf w (sget 0 i.v (sf x 18 5))
    let two (f : Nat → Nat → Nat) : State := u.putV c t (sf x 8 5)
      (ofLanes w (maskLanes x (vxPred i x) w (lanesOf w (sget 0 i.v (sf x 8 5))) ((as.zip bs).map fun e => f e.1 e.2)))
    row 0x09 (.vand c t) (two Nat.land) ∧ row 0x0A (.vor c t) (two Nat.lor) ∧ row 0x0B (.vxor c t) (two Nat.xor)
    ∧ row 0x0C (.viadd c t) (two fun a b => (a + b) % 2 ^ w)
    ∧ (let code := sf (vxImm x) 0 4
      let old := (List.range 64).map fun k => elemAt (elemBits code) (sget 0 i.v (sf x 8 5)).toNat k
      let src := lanesOf 32 (sget 0 i.v (sf x 13 5))
      (sf x 6 2 = 0 → row 0x0D (.vcvt c t) (u.putV c t (sf x 8 5)
        (ofLanes (elemBits code) (maskLanes x (vxPred i x) 32 old (src.map (cvtFrom32 code))))))
      ∧ (sf x 6 2 ≠ 0 → row 0x0D (.vcvt c t) (u.putV c t (sf x 8 5)
        (ofLanes 32 (maskLanes x (vxPred i x) 32 (lanesOf 32 (sget 0 i.v (sf x 8 5)))
          (((lanesOf 16 (sget 0 i.v (sf x 13 5))).take 64).map fun a => fFP32.round .nearest ((laneFmt (sf x 6 2)).decode a))))))
      ∧ row 0x0E (.vqmx c t) (u.putV c t (sf x 8 5) (BitVec.ofNat 2048
          (packElems (elemBits code) (maskLanes x (vxPred i x) 32 old ((quantBlock code (src.take 32)).2 ++ (quantBlock code (src.drop 32)).2))
            + (quantBlock code (src.take 32)).1 * 2 ^ 1920 + (quantBlock code (src.drop 32)).1 * 2 ^ 1928))))
    ∧ row 0x16 (.vpset c t) (u.putP c t (sf (vxImm x) 0 3) (maskPred x (vxPred i x) (sget 0 i.p (sf (vxImm x) 0 3))
        (BitVec.ofNat 128 (2 ^ min 128 (sf (vxImm x) 3 8) - 1)))))
  ∧ (∀ (s u : State) (c : Fin 128) (t : Thread) (i : Issue) (x : Nat),
    let row (op : Nat) (ins : Instr) (v : State) : Prop := s.slotTurn c t .vx op u i x → exec ins s = .next (commit s (v.slotDone c t .vx))
    let as := lanesOf 32 (sget 0 i.v (sf x 13 5))
    let one (new : List Nat) : State :=
      u.putV c t (sf x 8 5) (ofLanes 32 (maskLanes x (vxPred i x) 32 (lanesOf 32 (sget 0 i.v (sf x 8 5))) new))
    row 0x0F (.vrcp c t) (one (as.map rcp32)) ∧ row 0x10 (.vrsq c t) (one (as.map rsq32)) ∧ row 0x11 (.vexp2 c t) (one (as.map exp32))
    ∧ row 0x12 (.vlog2 c t) (one (as.map log32))
    ∧ row 0x13 (.vred c t) (u.putV c t (sf x 8 5) (BitVec.ofNat 2048
        (tree32 6 (as.zipIdx.map fun e => if sf x 31 1 = 0 || predBit (vxPred i x) 32 e.2 then e.1 else 0))))
    ∧ row 0x14 (.vmova c t) (one (List.replicate 64 ((regA i.a (sf x 13 5)).toNat % 2 ^ 32)))
    ∧ row 0x15 (.vext c t) (u.putA c t (sf x 8 5) (BitVec.ofNat 64 (elemAt 32 (sget 0 i.v (sf x 13 5)).toNat (sf (vxImm x) 0 6))))
    ∧ rcp32 0 = fFP32.infCode false ∧ rsq32 0 = fFP32.infCode false ∧ exp32 0 = 0x3F800000 ∧ log32 0x3F800000 = 0
    ∧ (∀ a neg m e, fFP32.decode a = .fin neg m e → m ≠ 0 → near32 (rcpExact neg m e) (rcp32 a) = true
        ∧ near32 (expExact neg m e) (exp32 a) = true
        ∧ (neg = false → near32 (rsqExact m e) (rsq32 a) = true ∧ near32 (logExact m e) (log32 a) = true)
        ∧ (neg = true → rsq32 a = fFP32.nanCode ∧ log32 a = fFP32.nanCode)))

/-- The MX slot puts its instruction into the array's queue with a copy of its window, MWIN writes the window, and the array does an instruction's
work as it leaves (R71, R94 to R101): what MMA, MLOAD, MDRAIN and MCLR leave with a well-formed descriptor, and which the array begins. An MMA of
a trickle thread that may not go on keeps its partial sums and its place (R65). The model's own choices in it: logs 110, 111, 112, 161 and
162. -/
def Obligations.MatrixWorkRuns : Prop :=
  (∀ (s u : State) (c : Fin 128) (t : Thread) (i : Issue) (x : Nat),
    let row (op : Nat) (ins : Instr) (v : State) : Prop := s.slotTurn c t .mx op u i x → exec ins s = .next (commit s (v.slotDone c t .mx))
    let queued (op : MxOp) : State := State.settleArray (u.updCell c fun y => { y with mxq := y.mxq ++ [
      { op := op, thread := t, bundle := (u.th c t).pc,
        desc := (regA i.a (sf x 6 5) + BitVec.ofNat 64 (64 * sf x 17 14)).toNat, acc := BitVec.ofNat 2 (sf x 11 2),
        win := sget 0 (u.cell c).win (sf x 13 3), zero := sf x 16 1 = 1 }] }) c
    row 0x01 (.mma c t) (queued .mma) ∧ row 0x02 (.mdrain c t) (queued .mdrain) ∧ row 0x03 (.mload c t) (queued .mload)
    ∧ row 0x04 (.mclr c t) (queued .mclr)
    ∧ row 0x05 (.mwin c t) (u.updCell c fun y => { y with win := sset 0 y.win (sf x 13 3) (BitVec.ofNat 32 (sf x 16 32)) }))
  ∧ (∀ (s : State) (c : Fin 128) (r : MxRun), s.compute = true → (s.cell c).inReset = false →
    ((s.cell c).mxRun = some r → (r.q.thread = .fg ∨ r.q.op ≠ .mma ∨ s.trGoes c = true) →
        exec (.matrixQueueAdvance c) s = .next (commit s (State.beginMx 3
          ((s.runMx c r).updCell c fun y => { y with mxq := y.mxq.erase r.q, mxRun := none, progress := s.now }) c)))
    ∧ ((s.cell c).mxRun = some r → r.q.thread = .tr → r.q.op = .mma → s.trGoes c = false →
        (let p := s.mxCut r;
          s.suspendMx c = (p.1.mxSteps c r p.2).updCell c fun y => { y with mxRun := none, mxHeld := some { r with pos := p.2 } }))
    ∧ (∀ q n, (s.cell c).mxRun = none → s.mxNext c = some q → (q.thread = .fg ∨ (s.cell c).mxHeld = none) → s.mxBegin c q = .ok r →
        s.beginMx (n + 1) c = s.updCell c fun y => { y with mxRun := some r }))
  ∧ (∀ (s : State) (c : Nat) (q : MxInstr),
    let x := s.cell c
    let d : Line := BitVec.ofNat 512 (s.cellNat c q.desc 64)
    (q.op = .mclr → s.mxBegin c q = .ok { q := q })
    ∧ (q.op = .mma → descFault q.desc = none → mmaFault q (x.bank q.acc.toNat) d = none → s.mxBegin c q = .ok { q := q, desc := d })
    ∧ (q.op = .mload ∨ q.op = .mdrain → descFault q.desc = none → drainFault q (x.bank q.acc.toNat) d = none →
        s.mxBegin c q = .ok { q := q, desc := d })
    ∧ (∀ f, q.op = .mma → descFault q.desc = none → mmaFault q (x.bank q.acc.toNat) d = some f → s.mxBegin c q = .error f))
  ∧ (∀ (s : State) (c : Nat) (r : MxRun),
    let x := s.cell c
    let k := r.q.acc.toNat
    (r.q.op = .mclr → s.runMx c r = s.updCell c fun y => y.setBank k { fp32 := winFp32 r.q.win })
    ∧ (r.q.op = .mma → s.runMx c r = s.updCell c fun y =>
        { y.setBank k (s.doMma c r.q r.desc r.pos (fieldNat r.desc 207 192) (x.bank k)) with
          prof := { y.prof with
            ksteps := satAdd 32 y.prof.ksteps (if s.profOn && !s.cellConf c then fieldNat r.desc 207 192 - r.pos else 0) } })
    ∧ (r.q.op = .mload → s.runMx c r = s.updCell c fun y => y.setBank k (s.doMload c r.q r.desc (x.bank k)))
    ∧ (r.q.op = .mdrain → s.runMx c r = s.doMdrain c r.q r.desc (x.bank k) (s.cellConf c)))

/-- DMA, SEND and FERRY with a descriptor that passes its checks join the MV queue (R78, R104 to R107). The model's own choices in it: logs
33, 100 and 165. -/
def Obligations.MoverSlotsRun : Prop :=
  ∀ (s u : State) (c : Fin 128) (t : Thread) (i : Issue) (x : Nat),
    let row (op : Nat) (ins : Instr) (v : State) : Prop := s.slotTurn c t .mv op u i x → exec ins s = .next (commit s (v.slotDone c t .mv))
    let a := (regA i.a (sf x 11 5) + mvImm x).toNat
    let e (k : MvKind) : MvEntry :=
      { kind := k, thread := t, ctx := (u.th c t).ctx, bundle := (u.th c t).pc, addr := a, desc := BitVec.ofNat 512 (u.cellNat c a 64) }
    a ≤ 0x1FFFFF → a % 64 = 0 →
      (u.dmaBad c (e .dma).ctx a (e .dma).desc = none → row 0x08 (.dma c t) (u.mvPush c (e .dma)))
      ∧ (u.sendBad c t (e .send).ctx (e .send).desc = none → row 0x09 (.send c t) (u.mvPush c (e .send)))
      ∧ row 0x0A (.ferry c t) (u.mvPush c (e .ferry))

/-- The front of the MV queue ends (R78 to R80, R106, R408), a mover's command ends (R141), and a row arrives over the pair port (R129). The
model's own choices in it: logs 101, 164 and 172. -/
def Obligations.MovesEnd : Prop :=
  ∀ (s : State) (c : Fin 128) (e : MvEntry) (r : List MvEntry), s.compute = true → (s.cell c).inReset = false → (s.cell c).mvq = e :: r →
    (∀ w, e.kind = .dma → s.dmaWaits e = false → e.fromHost = false → e.toPair = false → e.toHost = false → s.dmaMove c e = (w, none) →
        exec (.dmaCommandComplete c) s = .next (commit s (w.dmaDone c e)))
    ∧ (∀ w code a, e.kind = .dma → s.dmaWaits e = false → e.fromHost = false → e.toPair = false → e.toHost = false →
        s.dmaMove c e = (w, some (code, a)) → exec (.dmaCommandFault c) s = .next (commit s (w.dmaFail c e code a)))
    ∧ (e.toPair = true → e.done = true → e.sentAt + usTicks 100 ≤ s.now → exec (.pairWriteTimeout c) s = .next (commit s
        (State.dmaDone { s with cnt := { s.cnt with pairDrop := satAdd 8 s.cnt.pairDrop (dmaRows e.desc) } } c e)))
    ∧ (e.kind = .send → (let w := s.sendPacket c e;
        exec (.sendPayloadRead c) s = .next (commit s
          (State.mvPop (if bitAt e.desc 173 then w.syncAddIf (fieldNat e.desc 172 160) e.ctx 1 else w) c))))
    ∧ (e.kind = .ferry → e.done = true → exec (.sendPayloadRead c) s = .next (commit s (s.mvPop c)))
    ∧ (∀ (m : Fin 32) k, (s.mover m).cur = some k → (s.mover m).inReset = false → (s.mover m).xfer = none → k.dstSpace = 0 →
        s.memWaits k.dst k.len = false → k.srcSpace = 0 →
        (k.kind = .fill → exec (.moverCommandComplete m) s = .next (commit s ((s.fillLocal k).1.curEnds m (s.fillLocal k).2)))
        ∧ (k.kind ≠ .fill → s.memWaits k.src k.len = false →
          exec (.moverCommandComplete m) s = .next (commit s ((s.copyLocal k).1.curEnds m (s.copyLocal k).2))))
    ∧ (∀ w : PairWrite, s.fab.pairUp = true → s.twin = true → (s.ctx w.ctx.toNat).live = true → s.ctxSlot w.ctx.toNat = 0 → w.keySlot = 0 →
        regionOf w.addr.toNat = .lpddr → w.addr.toNat + w.data.length ≤ s.capacity → s.pageFail w.ctx true false w.addr.toNat w.data.length = none →
        exec (.pairWindowWrite w) s = .next (commit s (s.writeBytes w.ctx 0 false true w.addr.toNat w.data).1))

/-- Branches, STEP, the reads and additions of sync objects, and HALT (R82, R108, R109, R115). -/
def Obligations.ControlSlotsRun : Prop :=
  ∀ (s u : State) (c : Fin 128) (t : Thread) (i : Issue) (x : Nat),
    let row (op : Nat) (ins : Instr) (v : State) : Prop := s.slotTurn c t .ct op u i x → exec ins s = .next (commit s (v.slotDone c t .ct))
    let a := regA i.a (sf x 11 5)
    let b := regA i.a (sf x 16 5)
    let to_ (taken : Bool) : State :=
      if taken then u.updTh c t fun th => { th with issue := th.issue.map fun i => { i with next := ctImm x % 4096 } } else u
    let o := (a + BitVec.ofNat 64 (ctImm x)).toNat
    row 0x01 (.br c t) (to_ true) ∧ row 0x02 (.bz c t) (to_ (a = 0)) ∧ row 0x03 (.bnz c t) (to_ (a ≠ 0))
    ∧ row 0x04 (.blt c t) (to_ (a.toInt < b.toInt)) ∧ row 0x05 (.bge c t) (to_ (b.toInt ≤ a.toInt))
    ∧ row 0x0A (.stepOp c t) (State.updTh ((u.stepBoundary c t).putA c t (sf x 6 5) (if (u.th c t).late then 1 else 0)) c t fun th =>
        { th with late := false, stepBase := th.stepBase + BitVec.ofNat 64 (ctImm x) })
    ∧ row 0x0C (.srd c t) (u.putA c t (sf x 6 5) (u.obj o).word)
    ∧ row 0x0D (.sadd c t) ((u.putA c t (sf x 6 5) (u.obj o).word).syncAdd o (signed 32 b.toNat))
    ∧ row 0x10 (.halt c t) ((u.stepBoundary c t).updTh c t fun th => { th with running := false, halted := true })

/-- TRAP raises its fault in place of the bundle (R108); work whose thread has halted and settled ends (R115); a switch of frequency ends (R61).
The model's own choices in it: logs 21 and 154. -/
def Obligations.ThreadsEnd : Prop :=
  ∀ (s : State) (c : Fin 128) (t : Thread),
    (let u := s.ready c t
      let b := u.bundle c t
      (u.th c t).running = true → (u.th c t).issue = none → slotOp b .ct = 0x0F → u.canIssue c t = true → u.stalled c b = false →
      ldFault (u.th c t).a (slotOf b .ld) = none → mxFault t (u.cell c).win (slotOf b .mx) = false →
      (let v := u.progFault c t (u.th c t).pc 0x08 (ctImm (slotOf b .ct) % 2 ^ 16);
        (v.th c t).issue = none → exec (.trap c t) s = .next (commit s v)))
    ∧ (∀ w, (s.th c t).work = some w → s.compute = true → (s.th c t).halted = true → (s.th c t).issue = none →
        (s.cell c).settled t 31 = true → (∀ n r j, w ≠ .entry n r j) →
        exec (.threadWorkEnd c t) s = .next (commit s (((s.updTh c t fun th => { th with work := none }).workEnd c w .ok).startLaunch c)))
    ∧ (∀ n r j, (s.th c t).work = some (.entry n r j) → s.compute = true → (s.th c t).halted = true → (s.th c t).issue = none →
        (s.cell c).settled t 31 = true →
        exec (.threadWorkEnd c t) s = .next (commit s (((s.updTh c t fun th => { th with work := none }).recordEnds n r j).startLaunch c)))
    ∧ (s.compute = true → exec (.frequencySwitchEnd c) s = .next (commit s (s.updCell c fun x => { x with switching := false })))

/-- The waits of the CT slot release at once or wait (R62, R83, R91, R110); their releases, and the end of a wait that a descriptor set a limit
to (R16, R63, R267). -/
def Obligations.WaitsBeginAndEnd : Prop :=
  (∀ (s u : State) (c : Fin 128) (t : Thread) (x : Nat),
    let row (op : Nat) (ins : Instr) (v : State) : Prop := s.waitTurn c t op u x → exec ins s = .next (commit s v)
    let waits (w : Wait) : State := u.updTh c t fun th => { th with wait := w }
    let tick (n : Nat) : State := if u.time.tick < n then waits (.tick n) else (waits (.tick n)).release_ c t (decide (n < u.time.tick))
    let a := (u.th c t).a
    row 0x08 (.twa c t) (tick (regA a (sf x 11 5)).toNat)
    ∧ row 0x09 (.twr c t) (tick ((u.th c t).stepBase + BitVec.ofNat 64 (ctImm x)).toNat)
    ∧ row 0x0B (.settle c t)
        (let v := waits (.settle (BitVec.ofNat 5 (ctImm x % 32)));
          if (u.cell c).settled t (ctImm x % 32) then v.release_ c t false else v)
    ∧ (u.objOk (ctObj a x) (u.th c t).ctx = true → (u.obj (ctObj a x)).aborted = false →
        row 0x0E (.swait c t) (let target := (regA a (sf x 16 5)).toInt
          let sat := decide (target ≤ (u.obj (ctObj a x)).count)
          let v := waits (.sync (ctObj a x) target sat false);
          if sat then v.release_ c t false else v)))
  ∧ (∀ (s : State) (c : Fin 128) (t : Thread) (sq : Fin 256) (slot : BitVec 16), s.compute = true →
    (∀ n, (s.th c .fg).wait = .tick n → (s.cell c).switching = false → n ≤ s.time.tick →
        exec (.tickWaitRelease c) s = .next (commit s (s.release_ c .fg (decide (n < s.time.tick)))))
    ∧ (∀ m, (s.th c t).wait = .settle m → (s.cell c).settled t m.toNat = true →
        exec (.settleRelease c t) s = .next (commit s (s.release_ c t false)))
    ∧ (∀ o g, (s.th c t).wait = .sync o g true false → exec (.syncWaitRelease (.thread c t)) s = .next (commit s (s.release_ c t false)))
    ∧ (∀ w, s.syncWaiter sq slot.toNat = some w → w.aborted = false → w.satisfied = true →
        exec (.syncWaitRelease (.desc sq slot)) s = .next (commit s (s.endSyncWait sq slot.toNat { status := stOk })))
    ∧ (∀ w, s.syncWaiter sq slot.toNat = some w → w.aborted = false → w.satisfied = false → w.due ≠ 0 → w.due ≤ s.now →
        exec (.syncWaitTimeout sq slot) s = .next (commit s (s.endSyncWait sq slot.toNat { status := stTimeout }))))

/-! ### Trickle work and timetables (R154 to R181) -/

/-- Trickle work starts, resumes, issues and is suspended, a barrier window begins to hold, the ramp takes its steps, and an open launch
makes way for an owned span (R65, R167, R178 to R181). The model's own choices in it: logs 28, 120 and 121. -/
def Obligations.TrickleEventsAct : Prop :=
  ∀ (s : State) (c : Fin 128), s.compute = true →
    let x := s.cell c
    (s.pw.shed = false → x.tr.running = false → exec (.trickleDispatch c) s = .next (commit s (s.dispatch c (s.cellHeld c))))
    ∧ (s.pw.shed = false → x.tr.running = true → x.tr.staged = true → s.unstage c = true →
        exec (.trickleDispatch c) s = .next (commit s
          ((s.updTh c .tr fun th => { th with staged := false, share := s.rampStart c }).ready c .tr)))
    ∧ (s.pw.shed = false → x.tr.running = true → x.tr.staged = false → x.tr.paused = true → s.gap c = true →
        exec (.trickleDispatch c) s = .next (commit s
          (((s.updTh c .tr fun th => { th with paused := false, share := s.rampStart c }).settleArray c).ready c .tr)))
    ∧ (x.tr.running = true → s.gap c = false →
        exec (.trickleStop c) s = .next (commit s
          ((s.updTh c .tr fun th => { th with paused := true, share := 0 }).settleArray c)))
    ∧ (∀ n b, s.windows[n]? = some b → b.holding = false → b.spans s.reserveTicks s.time.tick = true →
        (let rest := s.tt.barriers.filter fun w => !(w.ctx = b.ctx && w.start = b.start && w.len = b.len)
            && decide (s.time.tick < w.start + w.len);
          exec (.barrierHoldStart n) s = .next (commit s
            (forEach (List.range 128) (fun s c => if (s.cell c).ofCtx b.ctx && s.trIdle c && !s.pw.shed then s.dispatch c true else s)
              { s with tt := { s.tt with barriers := rest ++ [{ b with holding := true }] } }))))
    ∧ (s.time.tickSet = true → s.time.tick % s.stepTicks = 0 →
        exec .rampStep s = .next (commit s { s with cells := s.cells.map fun e => (e.1, { e.2 with tr :=
          if e.2.tr.running ∧ e.2.tr.paused = false ∧ e.2.tr.staged = false ∧ 0 < e.2.tr.share then
            { e.2.tr with share := min 16 (e.2.tr.share + 1) } else e.2.tr }) }))
    ∧ (∀ sq slot, (s.th c .fg).work = some (.launch sq slot) → (s.owned c s.time.tick = true ∨ s.owned c (s.time.tick + 2) = true) →
        exec (.openLaunchPreempt c) s = .next (commit s ((s.haltThread c .fg).launchEnd sq slot c .timeout)))

/-- An armed instance starts the entries and transfers of its records at their ticks, ends transfers, fails what overruns, and is settled
period by period until it is free (R162, R165, R168, R170 to R175). The model's own choices in it: logs 31, 124, 157 and 158. -/
def Obligations.TimetableEventsAct : Prop :=
  ∀ (s : State) (n : BitVec 10) (r : Nat) (i : Instance), s.compute = true → s.instsOf n = [i] →
    (∀ j e, i.due r s.time.tick = some j → lfind i.object.entries r = some e →
        ((lfind i.argsHeld (r, j)).isSome = true ∨ s.memWaits (i.args + 64 * e.args) 64 = false) →
        exec (.cellEntryStart n r) s = .next (commit s (s.entryStart i r e j)))
    ∧ (∀ j m, i.due r s.time.tick = some j → lfind i.object.transfers r = some m → (s.mover m.mover).inReset = false →
        (s.mover m.mover).xfer = none → s.transferBad i r m = none →
        exec (.transferStart n r) s = .next (commit s
          ((s.updMover m.mover fun v => { v with
              xfer := some { kind := .transfer, ctx := i.ctx, src := m.src, dst := m.dst, len := m.len, inst := i.id, recIdx := r, period := j }
              progress := s.now }).updInst i.id fun i => { i with active := i.active ++ [(r, j)] })))
    ∧ (∀ m c, lfind i.object.transfers r = some m → (s.mover m.mover).xfer = some c → c.inst = i.id → c.recIdx = r → c.stopping = false →
        s.memWaits c.src c.len = false → s.memWaits c.dst c.len = false →
        (s.copyLocal c).2.1 = stOk → exec (.transferEnd n r) s = .next (commit s
          (((s.copyLocal c).1.updMover m.mover fun v => { v with xfer := none, progress := s.now }).moversGoOn.recordEnds i.id r c.period)))
    ∧ (exec (.entryFailed n r) s = .next (commit s
        (forEach (i.overdue r s.time.tick) (fun s j => (s.failRecord i.id r j).settleInst 64 i.id) s)))
    ∧ (i.arming = true → (i.phase + i.firstPeriod * i.object.period) * frameTicks ≤ s.time.tick + 2 →
        (let u := s.updInst i.id fun i => { i with arming := false, state := .armed };
          exec (.instanceArmed n) s = .next (commit s { u with streams := u.streams.map fun x =>
            if x.inst = i.id then { x with steering := true, armed := true, lastPacket := s.now, period := i.firstPeriod } else x })))
    ∧ (∀ k, (s.settleInst 64 i.id).inst i.id = some k → k.quietNow = true →
        exec (.instanceFree n) s = .next (commit s
          (State.ticketSignal (forEach ((s.settleInst 64 i.id).jobs.filter fun j => match j.kind with
              | .release id => id = k.id
              | _ => false) (fun s j => s.finish j.sq j.slot { status := stOk })
            ((s.settleInst 64 i.id).dropInst k { status := k.endStatus.toNat, r0 := k.endR0, r1 := k.endR1, detail := k.endDetail })))))
    ∧ (i.isLead = false → i.state = .armed → s.failLimit ≤ i.silent →
        exec (.leadSilenceRelease n) s = .next (commit s (s.release i.id false { status := stOverrun })))
    ∧ (∀ p, s.inst n.toNat = some i → i.isLead = true → (i.state = .armed ∨ (i.state = .releasing ∧ p < i.lastPeriod)) → p = i.recorded →
        i.lastDeadline p + 49152 ≤ s.time.tick → s.hst.paused = false →
        (let rs := i.reports.filter fun x => x.period = p
          let missing := (i.object.others.filter fun m => rs.all fun x => x.member.val ≠ m).map fun m =>
            ({ failed := true } : Kinds).report (Fin.ofNat 512 m) p
          let own := if i.periodOver p s.time.tick then i.ownReport p else { i.ownReport p with failed := true };
          exec (.stepRecordDeadline n p) s = .next (commit s ((s.settlePeriod i p (own :: rs ++ missing)).settleInst 64 i.id))))

/-- What the lead and a member of a set say to one another (R158, R160 to R163, R172): a reservation held, kept and dropped, an arming or a
release passed on, a report of a period, and an answer that does not come. The model's own choices in it: log 31. -/
def Obligations.MemberExchangesAct : Prop :=
  ∀ (s : State) (n : BitVec 10) (lead : Fin 512), s.compute = true →
    let id := n.toNat + 1024 * (lead.val + 1)
    (∀ ctx (setId : BitVec 32) (phase : BitVec 48) o, (s.tt.objects.find? fun o => o.ctx = ctx && o.setId = setId.toNat) = some o →
        s.memberTest ctx o phase.toNat none = 0 → s.inst id = none →
        exec (.memberReserve ctx setId n phase lead) s = .next (commit s
          (State.relay { s with tt := { s.tt with instances := s.tt.instances ++
            [{ id := id, ctx := ctx, leader := lead.val, object := o, state := .reserved, phase := phase.toNat }] } } (.answer 0) id o.member
              lead.val)))
    ∧ (∀ ctx (setId : BitVec 32) (phase : BitVec 48) o, (s.tt.objects.find? fun o => o.ctx = ctx && o.setId = setId.toNat) = some o →
        s.memberTest ctx o phase.toNat none ≠ 0 →
        exec (.memberReserve ctx setId n phase lead) s = .next (commit s
          (s.relay (.answer (s.memberTest ctx o phase.toNat none)) id o.member lead.val)))
    ∧ (∀ i, s.inst id = some i → i.state = .reserved →
        exec (.memberCommit n lead) s = .next (commit s (State.ticketSignal (s.updInst id fun i =>
          { i with state := if i.state = .reserved then .admitted else i.state }))))
    ∧ exec (.memberDrop n lead) s = .next (commit s { s with tt := { s.tt with
        instances := s.tt.instances.filter fun i => !(i.id = id && i.state = .reserved) } })
    ∧ (∀ i w (phase : BitVec 48) (arg : BitVec 48) (quiet : Bool), s.instsOf n = [i] → i.isLead = false → i.state = .admitted → i.arming = false →
        s.memWaits i.object.addr i.object.len = false → s.digestOk i.object = (w, .ok true) → w.argOk i.ctx arg.toNat 16384 64 = true →
        (let j := if i.object.period = 0 then 0 else (phase.toNat - i.phase) / i.object.period;
          exec (.armRelay (.arm phase arg quiet) n) s = .next (commit s
            ((w.updInst i.id fun i => { i with arming := true, firstPeriod := j, recorded := j, args := arg.toNat, quiet := quiet,
                                               silent := 0 }).relay (.armAnswer .ok) i.id i.object.member i.leader))))
    ∧ (∀ i now, s.instsOf n = [i] → i.isLead = false →
        exec (.armRelay (.release now) n) s = .next (commit s
          ((s.updInst i.id fun i => { i with silent := 0 }).release i.id now { status := stOk })))
    ∧ (∀ (r : MemberReport) i, s.inst n.toNat = some i → i.isLead = true → i.recorded ≤ r.period → i.object.others.contains r.member.val = true →
        (i.reports.any fun x => x.member = r.member && x.period = r.period) = false →
        exec (.memberStatus n r) s = .next (commit s
          (((s.updInst n.toNat fun i => { i with reports := i.reports ++ [r] }).memberFault n.toNat r.fault).settleInst 64 n.toNat)))
    ∧ (∀ q (m : Fin 512), s.tt.search = some q → q.inst = n.toNat → q.asked + msTicks 10 ≤ s.now →
        (q.answers.any fun a => a.member = m && a.phase = q.phase) = false → q.object.others.contains m.val = true →
        (s.job q.sq q.slot).isSome = true →
        exec (.memberAnswerTimeout n m) s = .next (commit s (s.searchFrom 65
          { q with answers := q.answers ++ [{ member := m, phase := BitVec.ofNat 48 q.phase, reason := 0x0B }] } (s.jobDesc q.sq q.slot))))

/-! ### The Ferry (R188 to R218) -/

/-- Dispatch records that pass their checks (R196, R197, R201, R202): a token takes the next slot of its expert with a fresh ticket, or is
parked where the expert's slots are used up, a close record goes to every home, a result goes back in chunks; the status is written at byte 60 of the record. The model's own choices in it:
log 99. -/
def Obligations.FerryRecordsServed : Prop :=
  ∀ (s : State) (c : Fin 128) (e : MvEntry) (r : Line) (x : Session), s.record c = some (e, r) → s.serving e.ctx = some x →
    s.noFlow c e r = false →
    let p := s.placement (x.bank (rcStep r)) (x.pbase + rcExpert r)
    let last := sget (0, 0) s.fry.lastStep (x.pbase + rcExpert r)
    let count := if last.1 = rcStep r + 1 then last.2 else 0
    let cls : TicketClass := if rcTt r then .timetabled else .open_
    let inst := if rcTt r then ((s.flowOwner e.ctx c (rcFlow r)).map (·.id)).getD 0 else 0
    let served (u : State) (status : Nat) : Host.Outcome State Fault Refusal := .next (commit s (u.recordDone c e status))
    (∀ k, rcKind r ≠ 2 → rcKind r ≠ 3 → tokenBad r = false → rcExpert r < x.pcount → plValid p = true → 64 + rcLen r ≤ plSlot p →
        s.inSliceOf e.ctx.toNat (plHome p) = true → ¬(last.1 ≠ 0 ∧ later (last.1 - 1) (rcStep r) = true) → count < plQ p →
        s.canTake x cls inst = true → s.freeTicket = some k →
        exec (.ferryTokenRecord c) s = served
          ((s.noteStep x (x.pbase + rcExpert r) (rcStep r) (count + 1)).sendSlot x c p r k (s.newTicket x c p r cls inst k)
            (x.srcIndex * plQ p + count)).ticketSignal (if rcTt r then 0x01 else 0x03))
    ∧ (∀ k u, rcKind r ≠ 2 → rcKind r ≠ 3 → tokenBad r = false → rcExpert r < x.pcount → plValid p = true → 64 + rcLen r ≤ plSlot p →
        s.inSliceOf e.ctx.toNat (plHome p) = true → ¬(last.1 ≠ 0 ∧ later (last.1 - 1) (rcStep r) = true) → plQ p ≤ count → plOvf p = true →
        s.canTake x .overflow 0 = true → s.freeTicket = some k →
        (let t : Ticket := { s.newTicket x c p r .overflow 0 k with due := s.time.tick + s.ovfTicks };
          s.parkToken x k t
            (leBytes 64 (s.slotHeader k t (fieldNat r 223 192) (fieldNat r 255 224)).toNat ++ s.cellGet c (rcData r) (rcLen r)) = some u) →
        exec (.ferryTokenRecord c) s = served ((u.noteStep x (x.pbase + rcExpert r) (rcStep r) count).ticketSignal) 0x02)
    ∧ (let es := ((List.range (rcCount r)).map fun i => s.placement (x.bank (rcStep r)) (x.pbase + rcExpert r + i)).filter plValid;
        rcKind r = 2 → closeBad r = false → rcExpert r + rcCount r ≤ x.pcount → (es.all fun p => s.inSliceOf e.ctx.toNat (plHome p)) = true →
        exec (.ferryCloseRecord c) s = served
          (forEach es (fun s p =>
            s.send { cls := if rcTt r then clsTt else clsOpen, dstEp := plCell p, dst := plHome p, ordered := true,
                     raddr := cellAddr (plCell p) (plBuf p + 4 * x.srcIndex), srcEp := 160, gen := s.fry.gen.toNat, ctx := x.ctx,
                     keySlot := s.ctxSlot x.ctx.toNat, flow := rcFlow r, rsync := plSync p, rsyncEn := true,
                     payload := leBytes 4 (rcStep r) } false none) s) 0x05)
    ∧ (let h : Line := BitVec.ofNat 512 (s.cellNat c (rcAux r) 64)
        let dst := fieldNat h 38 36 * 64 + fieldNat h 41 39 * 8 + fieldNat h 44 42
        let u := forEach ((chunks 4096 (s.cellGet c (rcData r) (rcLen r))).zipIdx) (fun s p =>
          s.send { cls := if rcTt r then clsTt else clsOpen, dstEp := 160, dst := dst, reply := true,
                   raddr := fieldNat h 27 0 + p.2 * 2 ^ 28 + 2 ^ 32, srcEp := 160, gen := fieldNat h 35 28, ctx := x.ctx,
                   keySlot := s.ctxSlot x.ctx.toNat, flow := rcFlow r, payload := p.1 } false none) s;
        rcKind r = 3 → resultBad r = false → bitAt h 46 = true → rcLen r = fieldNat h 176 160 → s.inSliceOf e.ctx.toNat dst = true →
        exec (.ferryResultRecord c) s = served (if rcSyncEn r then u.syncAddIf (rcSync r) e.ctx 1 else u) 0x05)

/-- What reaches the Ferry, and its timers (R207 to R209, R211, R212, R218): chunks combined until the ticket retires, overflow tokens kept in
their ring, refused tokens parked again, parked tokens sent, batches queued, tickets lost at their time-out. The model's own choices in
it: logs 35, 36 and 37. -/
def Obligations.FerryPacketsAndTimers : Prop :=
  ∀ (s : State), s.compute = true → s.fry.inReset = false →
    (∀ hdr payload, payloadOk 4096 4 payload = true →
      let u := s.takeLocal { hdr := hdr, payload := payload }
      let k := raTicket hdr
      let t := u.ticket k
      (raKind hdr = 1 → u.resultStale hdr payload.length = false →
        (let v := (if t.cmode then u.cellPut t.originCell (t.aux + t.k * t.rlen + 4096 * raChunk hdr) payload
              else u.addRecords (cellAddr t.originCell (t.aux + 4096 * raChunk hdr)) payload).setTicket k
            { t with state := .combining, rmask := t.rmask ||| BitVec.ofNat 16 (2 ^ raChunk hdr) }
          let w : State := { v with fry := { v.fry with progress := v.now } };
          exec (.resultChunk hdr payload) s = .next (commit s
            (if (t.rmask ||| BitVec.ofNat 16 (2 ^ raChunk hdr)).toNat + 1 = 2 ^ ceilDiv t.rlen 4096 then w.retireTicket k else w))))
      ∧ (let sh : Line := BitVec.ofNat 512 (leNat (payload.take 64))
          let i := fieldNat sh 77 64
          ∀ x, raKind hdr = 2 → u.serving (hCtx hdr) = some x →
          (let e := u.placement (bitAt sh 45) (x.pbase + i)
            let r := u.ring (hCtx hdr) i e
            let r' : OvfRing := { r with
              head := (r.head + 1) % plSlots e, taken := r.taken ++ [r.head], waiting := r.waiting ++ [(r.head, payload.length)]
              lastArrival := u.now }
            let a := plRing e + r.head * plSlot e
            let v := ((u.writeBytes (hCtx hdr) (hKeySlot hdr) false false a payload).1).setRing r';
            i < x.pcount → plValid e = true → plHome e = u.selfIdx → r.head < plSlots e → r.taken.contains r.head = false →
            payload.length ≤ plSlot e → u.memWaits a payload.length = false → u.pageFail (hCtx hdr) true false a payload.length = none → a + payload.length ≤ u.capacity →
            u.ctxSlot (hCtx hdr).toNat = hKeySlot hdr →
            exec (.overflowToken hdr payload) s = .next (commit s
              (if plBatch e ≤ r'.waiting.length then v.queueRing r' else v))))
      ∧ (∀ x w, raKind hdr = 3 → hGen hdr = u.fry.gen.toNat → t.state = .sent → t.cls = .overflow → t.tgen.toNat = raTgen hdr →
          hKeySlot hdr = u.ctxSlot t.ctx.toNat → hKeyGen hdr = u.slotGen (u.ctxSlot t.ctx.toNat) →
          (let v : State := { u with cnt := { u.cnt with fryRefused := satAdd 16 u.cnt.fryRefused 1 } }
            let e := v.placement x.active (x.pbase + t.expert)
            let sh : Line := BitVec.ofNat 512 (leNat (payload.take 64));
            v.session t.ctx = some x →
            v.parkToken x k { t with
                bank := x.active, home := if plValid e then plHome e else t.home, homeCell := if plValid e then plCell e else t.homeCell,
                retryAt := v.time.tick + frameTicks * max 1 (v.fld 0x500030 0 4) }
              (leBytes 64 (putField sh 45 1 x.active.toNat).toNat ++ payload.drop 64) = some w →
            exec (.refusal hdr payload) s = .next (commit s (w.settleSwap t.ctx)))))
    ∧ (∀ k : BitVec 20,
      let t := s.ticket k.toNat
      (s.parkReady t = true → t.retryAt = 0 → exec (.parkedTokenSend k) s = .next (commit s (s.sendParked k.toNat)))
      ∧ (s.parkReady t = true → 0 < t.retryAt → t.retryAt ≤ s.time.tick →
          exec (.overflowRetryTimer k) s = .next (commit s (s.sendParked k.toNat)))
      ∧ ((t.state = .sent ∨ t.state = .combining) → t.cls ≠ .overflow → t.due ≤ s.time.tick →
          exec (.ticketTimeout k) s = .next (commit s (s.loseTicket k.toNat)))
      ∧ (t.state ≠ .free → t.cls = .overflow → t.due ≤ s.time.tick →
          exec (.overflowTicketTimeout k) s = .next (commit s (s.loseTicket k.toNat))))
    ∧ (∀ c n r, s.fry.rings.filter (fun r => r.ctx = c && r.entry = n
          && decide (r.lastArrival + frameTicks * max 1 (s.fld 0x500030 4 4) ≤ s.now)) = [r] →
        exec (.overflowIdleTimer c n) s = .next (commit s (s.queueRing r)))
    ∧ (∀ r, s.fry.rings.filter (·.blocked) = [r] → exec .overflowQueueRetry s = .next (commit s (s.queueRing r)))

/-! ### Device memory, Ethernet and the media intake (R132, R146, R220 to R240, R287 to R303) -/

/-- The patrol corrects and records what it finds, a freed page is zeroed, and refresh and retracking leave every byte as it was
(R132, R146). The model's own choices in it: log 108. -/
def Obligations.MemoryCareRuns : Prop :=
  ∀ (s : State), s.compute = true →
    (∀ (line : BitVec 42) (found : SymbolErrors), s.fld 0x200040 0 8 ≠ 0 → 64 * line.toNat < s.capacity →
        s.groupInReset (s.controllerOf (64 * line.toNat)) = false →
        let a := 64 * line.toNat
        let u : State := { s with scrubLine := line.toNat, tags := supd {} s.tags (a / 64) fun t => t.hit found }
        let read := u.checkLine (s.page (a / pageSize)).ctx a
        (read.2 = none → exec (.scrubPatrol line found) s = .next (commit s (read.1.poisonLine a)))
        ∧ (∀ bs w, read.2 = some (bs, w) → exec (.scrubPatrol line found) s = .next (commit s
            (if (u.tag a).err.isEmpty then read.1 else read.1.rewriteLine a bs w))))
    ∧ (∀ p : Fin 393216, (s.page p).state = .scrubbing → exec (.pageZeroed p) s = .next (commit s (s.pageZeroed p)))
    ∧ (∀ k b, exec (.refresh k b) s = .next s) ∧ (∀ k, exec (.readRetrack k) s = .next s)

/-- An Ethernet port takes and sends frames (R287 to R291, R303): a steered packet to its stream, a management frame to the management complex,
a frame of a queue to its ring with the entry done and the sync object raised, any other, and one with a bad check or too long, to the drop
count of its port; a ready entry of a transmit ring goes out with its checksums filled; a link's state is taken, and its streams' groups are
joined. The model's own choices in it: logs 38, 39 and 103. -/
def Obligations.EthernetMovesFrames : Prop :=
  ∀ (s : State), s.compute = true →
    (∀ (p : Fin 2) (f : List (BitVec 8)), let n := netOf f
      sget false s.ethUp p = true →
        (f.length ≤ 9212 → checksumsOk n f = true →
          (∀ x, (s.streams.find? fun x => steers x p n f) = some x → s.itkReset = false →
            exec (.ethFrameReceive p true f) s = .next (commit s
              (s.rtp x.inst x ((f.drop (n.l4 + 8)).take (beAt f (n.l4 + 4) 2 - 8)))))
          ∧ ((s.streams.find? fun x => steers x p n f) = none → s.mgmtFrame p n f = true →
            exec (.ethFrameReceive p true f) s = .next (commit s { s with mgmtRx := s.mgmtRx ++ [f] }))
          ∧ (∀ q u, (s.streams.find? fun x => steers x p n f) = none → s.mgmtFrame p n f = false → s.rxQueue p n = some q →
            (let w := s.ethQ q
              let a := fieldNat w 175 128 + 16 * ((s.ethRing q).rxNext % qSize w)
              let r := s.readBytes (qCtx w) 0 false a 8
              let e := leNat r.bytes
              let buf := e % 2 ^ 48
              r.fail = none → r.st.bufOk (qCtx w) true a 16 = true → e.testBit 62 = false → f.length ≤ e / 2 ^ 48 % 2 ^ 14 →
              r.st.bufOk (qCtx w) true buf f.length = true → r.st.writeBytes (qCtx w) 0 false false buf f = (u, none) →
              exec (.ethFrameReceive p true f) s = .next (commit s
                (((u.putEntry (qCtx w) a (entryWith buf f.length false)).syncAddIf (fieldNat w 220 208) (qCtx w) 1).updEth q fun x =>
                  { x with rxNext := x.rxNext + 1 }))))
          ∧ ((s.streams.find? fun x => steers x p n f) = none → s.mgmtFrame p n f = false → s.rxQueue p n = none →
            exec (.ethFrameReceive p true f) s = .next (commit s
              { s with cnt := { s.cnt with ethRxDrop := bump 16 s.cnt.ethRxDrop p } })))
        ∧ (∀ fcs, (fcs = false ∨ 9212 < f.length ∨ checksumsOk n f = false) →
          exec (.ethFrameReceive p fcs f) s = .next (commit s
            { s with cnt := { s.cnt with ethRxDrop := bump 16 s.cnt.ethRxDrop p } })))
    ∧ (∀ q : Fin 32,
        let w := s.ethQ q
        let sent := (s.ethRing q).txSent
        let a := fieldNat w 111 64 + 16 * (sent % qSize w)
        let r := s.readBytes (qCtx w) 0 false a 8
        let e := leNat r.bytes
        let buf := e % 2 ^ 48
        let len := e / 2 ^ 48 % 2 ^ 14
        let d := r.st.readBytes (qCtx w) 0 false buf len
        let u : State := { d.st with ethOut := d.st.ethOut ++ [(qPort w, fillChecksums d.bytes)] };
        qOn w = true → sget false s.ethUp (qPort w) = true → s.objOk (fieldNat w 204 192) (qCtx w) = true →
        (sent : Int) < (s.obj (fieldNat w 204 192)).count → s.memWaits a 16 = false → r.fail = none →
        r.st.bufOk (qCtx w) false a 16 = true → 60 ≤ len → len ≤ 9212 → r.st.memWaits buf len = false →
        r.st.bufOk (qCtx w) false buf len = true → d.fail = none →
        exec (.ethTransmit q) s = .next (commit s
          ((u.putEntry (qCtx w) a (entryWith buf len false)).updEth q fun x => { x with txSent := sent + 1 })))
    ∧ (∀ (p : Fin 2) up, exec (.ethernetLinkChange p up) s = .next (commit s
        (let u : State := { s with ethUp := sset false s.ethUp p.val up };
          forEach (s.groups p) (fun s g => s.tellGroup true p g) u)))

/-- A stream of the media intake takes the packets steered to it, goes on in order behind a gap, decodes, shapes, hands over at its ready ticks
and stalls (R225, R227, R234 to R238, R240, R288). The model's own choices in it: logs 40, 41, 104, 105, 177 and 179. -/
def Obligations.IntakeStreamsRun : Prop :=
  ∀ (s : State) (n : Nat) (x : Stream), s.compute = true → s.itkReset = false → s.stream n = some x →
    (∀ (p : Fin 2) (f : List (BitVec 8)), sget false s.ethUp p = true → f.length ≤ 9212 → checksumsOk (netOf f) f = true →
        (s.streams.find? fun x => steers x p (netOf f) f) = some x →
        exec (.ethFrameReceive p true f) s = .next (commit s
          (s.rtp x.inst x ((f.drop ((netOf f).l4 + 8)).take (beAt f ((netOf f).l4 + 4) 2 - 8)))))
    ∧ (∀ e p at_ rest, x.held = (e, p, at_) :: rest → x.next < e → at_ + 10000 * rReorder x.record ≤ s.time.tick →
        exec (.reorderGapTimeout n) s = .next (commit s
          ((s.updStream n fun x => { x with lost := satAdd 16 x.lost (e - x.next), next := e }).flushHeld x.held.length n true)))
    ∧ (∀ (k : Fin 16) unit rest, x.engine = k.val → x.decoding = unit :: rest → s.memWaits (fieldNat x.record 335 288) (fieldNat x.record 383 352) = false →
        let done (u : State) : Host.Outcome State Fault Refusal := .next (commit s (u.settleUnits rest.length n))
        let u := s.updStream n fun x => { x with decoding := rest, progress := s.now }
        let c := rCodec x.record
        let ten := rTenBit x.record
        (∀ v bs, u.readPkts x unit.pkts = (v, bs, some true) →
            exec (.decodeComplete n k) s = done ((v.updStream n fun x => { x with lost := satAdd 16 x.lost 1 }).badFrame n))
        ∧ (∀ v bs, u.readPkts x unit.pkts = (v, bs, some false) → exec (.decodeComplete n k) s = done (v.badFrame n))
        ∧ (∀ v bs, u.readPkts x unit.pkts = (v, bs, none) →
            exec (.decodeComplete n k) s = done
              (match v.readPics x ((Config.decodeRefs c ten x.engState bs).filter x.dpb.contains) with
                | (w, none) => w.badFrame n
                | (w, some refs) =>
                  match Config.decode c ten x.engState refs bs with
                  | none => w.badFrame n
                  | some d =>
                    if d.pic.width ≤ rWidth x.record ∧ d.pic.height ≤ rHeight x.record ∧ (x.waitKey = true → d.pic.randomAccess = true) then
                      w.deliver n x unit d
                    else w.badFrame n)))
    ∧ (∀ f, x.shaping = some f → exec (.shapingComplete n) s = .next (commit s
        (let u := s.updStream n fun x => { x with shaping := none };
          (if f.period < x.period then u.updStream n fun x => { x with late := satAdd 8 x.late 1 }
            else (u.writeTiles x.record f).updStream n fun x =>
              { x with shaped := some (f.ts, f.arrival, s.time.tick),
                       superseded := if x.shaped.isSome then satAdd 8 x.superseded 1 else x.superseded }).shapeWaiting n)))
    ∧ (∀ i, s.inst n = some i → x.armed = true →
        (i.state = .armed ∨ (i.state = .releasing ∧ i.releaseNow = false ∧ x.period < i.lastPeriod)) →
        i.ready x.record x.period ≤ s.time.tick →
        (let u := forEach (List.range (rCells x.record)) (fun s c => s.cellPut (rCellFirst x.record + c) (bufAddr x.record x.period) x.header)
            (if x.shaped.isSome then s else s.undefineTiles x.record x.period);
          exec (.readyTick n) s = .next (commit s
            (((u.syncAddIf (rSync x.record) x.ctx 1).updStream n fun x =>
              { x with superseded := 0, lost := 0, bad := 0, late := 0, shaped := none, period := x.period + 1 }).shapeWaiting n))))
    ∧ (x.armed = true → x.stalled = false → x.lastPacket + msTicks (max 10 (s.fld 0x600010 0 16)) ≤ s.now →
        exec (.stallTimeout n) s = .next (commit s (s.updStream n fun x =>
          { x with stalled := true, waitKey := x.waitKey || rCodec x.record ≠ 3 })))

/-! ### The fabric (R281 to R286, R307 to R329, R358) -/

/-- A packet is routed, a reduction merged, sent on or passed on, and what a neighbour says of its flows is learned (R313, R317, R328). The
model's own choices in it: logs 17, 43 and 91. -/
def Obligations.FabricRoutes : Prop :=
  ∀ (s : State) (port : Fin 7) (vc : Fin 6), s.agentUp = true →
    (∀ arriving marker, (∀ q : Packet, arriving = some q → payloadOk 4096 4 q.payload = true) →
        exec (.packetRoute port vc ⟨arriving, marker⟩) s = .next (commit s
          (let u := if port.val < 6 then
              (let v := (marker.map fun m => s.takeMarker port m).getD s; (arriving.map fun q => v.arrivePacket port vc q).getD v) else s;
            (u.routeOne port vc).afterRoute port vc)))
    ∧ (∀ b rest u, s.redHead port vc = some (b, rest) → s.redMerge port b = (u, true) →
        exec (.reductionContribution port vc) s = .next (commit s (((u.setVc port vc rest).ticketLeft b.tkt).afterRoute port vc)))
    ∧ (∀ e : Fin 64, (let r := sget ({} : RedEntry) s.fab.red e; r.used = true → r.sentAt = none → r.at_ + s.redTicks ≤ s.now →
        exec (.reductionTimeout e) s = .next (commit s (s.redSend e).settleDrained)))
    ∧ (∀ b rest u, s.redHead port vc = some (b, rest) → s.redFind b.pkt.hdr = none → s.redFree = none → b.at_ + usTicks 1 ≤ s.now →
        s.redOut port { b.pkt with hdr := putField b.pkt.hdr 40 8 (hTtl b.pkt.hdr - 1) } = some u →
        exec (.reductionNoEntryTimeout port vc) s = .next (commit s (((u.setVc port vc rest).ticketLeft b.tkt).afterRoute port vc)))
    ∧ (∀ (p : Fin 6) b, s.portOn p = true → (s.port p).foreign = false → lcbOk b 0 = true →
        exec (.flowStateLcb p b) s = .next (commit s { s with fab := { s.fab with learned := [2, 3, 4, 5].foldl (fun m n =>
          sset (FlowSt.off, 0) m (6 * p.val + n) (flowOf (decide (4 ≤ n)) (fieldNat b (2 * n + 1) (2 * n)), s.now)) s.fab.learned } }))

/-- Acknowledgements, resends, prunes and the rise and decay of the sluice (R322 to R324, R329, R356, R358). The model's own choices in it:
logs 42 and 96. -/
def Obligations.EndToEndRuns : Prop :=
  ∀ (s : State), s.agentUp = true →
    (∀ (m : Fin 512) (a : BitVec 128),
        (fieldNat a 1 0 = 0 → exec (.ackReceived m a) s = .next (commit s
          (let u := s.ackUnicast m a; (if fieldNat a 31 16 ≠ 0 then u.sluiceRise else u).pumpInject)))
        ∧ (fieldNat a 1 0 = 1 → exec (.ackReceived m a) s = .next (commit s
          (let u := s.ackTree m a; (if fieldNat a 31 16 ≠ 0 then u.sluiceRise else u).pumpInject))))
    ∧ (∀ m : Fin 512, exec (.ackTimer m) s = .next (commit s
        (let u := if (s.dstOf false m).due s.now s.ackTicks then s.sendAck false m else s;
          forEach ((u.fab.treeDst.filter fun e => decide (e.1 / 4096 = m.val) && e.2.due s.now s.ackTicks).map (·.1))
            (fun s k => s.sendAck true k) u)))
    ∧ (∀ m, exec (.resendTimer (.dst m)) s = .next (commit s (s.resendModule m).pumpInject))
    ∧ (∀ k, exec (.resendTimer (.tree k)) s = .next (commit s (s.resendTree k.toNat).pumpInject))
    ∧ (∀ (k : BitVec 12) (seq : BitVec 32) (m : Fin 512), let t := s.treeOf k.toNat
        t.pruned.contains m.val = false →
        (let later (q : Nat) : Bool := decide ((q + 2 ^ 32 - seq.toNat) % 2 ^ 32 < 2 ^ 31)
          let t1 : E2eSrc := { t with awaited := t.awaited.filter (fun a => !(a.2 = m.val && later a.1)), pruned := t.pruned ++ [m.val] }
          let v := s.putTree k.toNat (t1.settleTree.rearm s.resendTicks)
          let u : State := { v with cnt := { v.cnt with pruned := satAdd 16 v.cnt.pruned 1 } };
          (t.unacked.find? (fun u => u.1 = seq.toNat) = none → exec (.pruneNotice k seq m) s = .next (commit s u.pumpInject))
          ∧ (∀ e, t.unacked.find? (fun u => u.1 = seq.toNat) = some e →
            exec (.pruneNotice k seq m) s = .next (commit s
              (State.pumpInject (if (s.ctx (hCtx e.2.1.hdr).toNat).live then
                u.updCtx (hCtx e.2.1.hdr).toNat fun x => { x with pruned := x.pruned + 1 } else u))))))
    ∧ (s.fab.sluiceAt + usTicks (max 1 (s.fld 0x702020 22 8)) ≤ s.now → s.sluiceFloor < s.fab.sluice →
        exec .sluiceDecay s = .next (commit s { s with fab := { s.fab with sluice := s.fab.sluice - 1, sluiceAt := s.now } }))

/-- A port trains, loses lanes, is asked to retrain, and exchanges records with its partner; the pair link and the cages change; an Ethernet
port's link changes and its queue sends (R279, R281 to R286, R289, R291, R303, R308, R531, R574). The model's own choices in it: logs 103, 131
and 132. -/
def Obligations.PortsTrainAndExchange : Prop :=
  ∀ (s : State) (port : Fin 7) (p : Fin 6), s.agentUp = true →
    (∀ (pass : BitVec 8) d, let x := s.port port
        x.training = true → x.held = false → s.portResetting port = false → s.cabled port = true →
        (let ls := laneSet port (pass &&& ~~~(fusedLanes port))
          let cm := if ls.1 = 0 then 0 else s.cableCm d
          let lanes := if 210 < cm then 0 else ls.1
          let u := s.updPort port fun p =>
            { p with lanes := lanes, mask := if 210 < cm then 0 else ls.2, cableCm := cm, overLength := decide (210 < cm),
                     training := decide (lanes = 0 ∧ cm ≤ 210), present := false, foreign := false, segments := [],
                     lcbWait := [], nextExchange := s.now + msTicks 1000 }
          let v : State := if port.val = 6 then { u with fab := { u.fab with pairUp := decide (lanes ≠ 0) } } else u;
          exec (.portTraining port pass d) s = .next (commit s ((if lanes = 0 then v else v.sendRecord port).pathReport none port lanes))))
    ∧ (∀ l : Fin 8, bitAt (s.port p).mask l = true → exec (.laneLockLoss p l) s = .next (commit s (s.retrain p true)))
    ∧ (∀ b, s.portOn p = true → (s.port p).foreign = false → lcbOk b 2 = true →
        exec (.retrainRequest p b) s = .next (commit s (s.retrain p false)))
    ∧ (∀ n, s.portOn p = true → (let u : State := { s with cnt := { s.cnt with
          fecUncorr := sset 0 s.cnt.fecUncorr p (satAdd 16 (sget 0 s.cnt.fecUncorr p) n) } };
        exec (.fecBurst p n) s = .next (commit s (if 16 < n then u.retrain p true else u))))
    ∧ ((s.port port).lanes ≠ 0 → (s.port port).training = false → (s.port port).nextExchange ≤ s.now →
        exec (.partnerExchangeTimer port) s = .next (commit s (s.sendRecord port)))
    ∧ (∀ b, s.portOn port = true → lcbOk b 1 = true →
        (let segs := (s.port port).segments.filter (fun x => x.1 ≠ fieldNat b 13 12) ++ [(fieldNat b 13 12, slice b 128 256)];
          (∀ r0 r1 r2 r3, lfind segs 0 = some r0 → lfind segs 1 = some r1 → lfind segs 2 = some r2 → lfind segs 3 = some r3 →
            exec (.partnerRecordSegment port b) s = .next (commit s (s.partnerRecord port (r3 ++ r2 ++ r1 ++ r0))))
          ∧ ((∃ k ∈ [0, 1, 2, 3], lfind segs k = none) → exec (.partnerRecordSegment port b) s = .next (commit s (s.updPort port fun p =>
              { p with segments := segs })))))
    ∧ (∀ up : Bool, (up = true → (s.port 6).lanes ≠ 0) → exec (.pairLinkChange up) s = .next (commit s { s with
        fab := { s.fab with pairUp := up }, fw := if up then s.fw else { s.fw with partnerState := 0, partnerAt := 0 } }))
    ∧ (∀ c : Fin 10, s.cabled c = false → 7 ≤ c.val → exec (.cagePresenceChange c true) s = .next (commit s { s with
        sup := { s.sup with cages := s.sup.cages ++ [c.val] } }))
    ∧ (∀ c : Fin 10, s.cabled c = true → c.val < 7 →
        (let u : State := { s with sup := { s.sup with cages := s.sup.cages.filter fun x => x ≠ c.val } };
          exec (.cagePresenceChange c false) s = .next (commit s
            (if (s.port c).lanes ≠ 0 then (u.uncable c).pathReport none c 0 else u.uncable c))))
    ∧ (∀ c : Fin 10, s.cabled c = false → c.val < 7 → 6 ≤ s.boot.stage → (s.port c).held = false →
        (let u : State := { s with sup := { s.sup with cages := s.sup.cages ++ [c.val] } };
          exec (.cagePresenceChange c true) s = .next (commit s (u.updPort c fun p => { p with training := true }))))
    ∧ (∀ c : Fin 10, s.cabled c = true → 7 ≤ c.val → c.val < 9 → exec (.cagePresenceChange c false) s = .next (commit s { s with
        sup := { s.sup with cages := s.sup.cages.filter fun x => x ≠ c.val }, ethUp := sset false s.ethUp (c.val - 7) false }))
    ∧ (∀ (p : Fin 2) up, s.compute = true → exec (.ethernetLinkChange p up) s = .next (commit s
        (forEach (s.groups p) (fun s g => s.tellGroup true p g) { s with ethUp := sset false s.ethUp p.val up })))
    ∧ (∀ q : Fin 32,
        let w := s.ethQ q
        let sent := (s.ethRing q).txSent
        let a := fieldNat w 111 64 + 16 * (sent % qSize w)
        let r := s.readBytes (qCtx w) 0 false a 8
        let buf := leNat r.bytes % 2 ^ 48
        let len := leNat r.bytes / 2 ^ 48 % 2 ^ 14
        let d := r.st.readBytes (qCtx w) 0 false buf len
        let u : State := { d.st with ethOut := d.st.ethOut ++ [(qPort w, fillChecksums d.bytes)] };
        s.compute = true → qOn w = true → sget false s.ethUp (qPort w) = true → s.objOk (fieldNat w 204 192) (qCtx w) = true →
        (sent : Int) < (s.obj (fieldNat w 204 192)).count → s.memWaits a 16 = false → r.fail = none →
        r.st.bufOk (qCtx w) false a 16 = true → 60 ≤ len → len ≤ 9212 → r.st.memWaits buf len = false →
        r.st.bufOk (qCtx w) false buf len = true → d.fail = none →
        exec (.ethTransmit q) s = .next (commit s
          ((u.putEntry (qCtx w) a (entryWith buf len false)).updEth q fun x => { x with txSent := sent + 1 })))

/-! ### Agents and the Watermaster (R343 to R404) -/

/-- Sequenced commands whose turn it is (R343 to R348, R354, R366, R380, R399, R400, R419): each has its effect, its result is kept, the next seq
is due and its sender is answered OK. The model's own choices in it: logs 57 and 137. -/
def Obligations.AgentCommandsRun : Prop :=
  ∀ (s : State) (env : BitVec 256) (e : End), s.inTurn env →
    let ok (u : State) : Host.Outcome State Fault Refusal := .next (commit s (State.obeyed env e (u, 0, [])))
    (∀ t first es, s.fab.censusDone = true → first + es.length ≤ rtSize t → (∀ x ∈ es, rtReserved t x = false) →
        (t = .flow → s.flowLocked first es = false) →
        exec (.rtWrite env e t first es) s = ok (s.setBank (!s.epoch) ((s.bank (!s.epoch)).write t first es)))
    ∧ (∀ v (at_ : BitVec 64), s.fab.censusDone = true → v = s.fab.version + 1 → at_.toNat % frameTicks = 0 →
        exec (.rtSwitch env e v at_) s =
          ok (if at_.toNat ≤ s.time.tick then s.switchNow else { s with fab := { s.fab with switchAt := some at_.toNat } }))
    ∧ (∀ v, v = s.fab.version → exec (.censusDone env e v) s = ok { s with fab := { s.fab with censusDone := true } })
    ∧ (∀ (m : Fin 512) w, fieldNat w 15 9 = 0 →
        (let u : State := { s with
            fab := { s.fab with fences := sset 0 s.fab.fences m.val w }
            removal := if m.val = s.selfIdx then s.removal.map fun r => { r with fenced := false } else s.removal };
          exec (.fenceSet env e m w) s = ok u ∧ exec (.fenceClear env e m w) s = ok u))
    ∧ (∀ r, (let u : State := { s with agent := { s.agent with sliceRec := if fieldNat r 71 64 = 0 then 0 else r } };
        exec (.sliceInfo env e r) s = ok (if fieldNat r 71 64 = s.ownSlice then u else u.endSlice s.ownSlice)))
    ∧ (∀ u, u ≠ 3 → exec (.pairUser env e u) s = ok { s with fab := { s.fab with pairUser := u } })
    ∧ (∀ q, exec (.agentPortRelease env e q) s = ok (s.releasePort q))
    ∧ (∀ x, exec (.budget env e x) s = ok { s with agent := { s.agent with share := some (min 260 x.toNat) } })
    ∧ (∀ (off total : BitVec 32) piece,
        (let parts := (if s.agent.planTotal = total.toNat then s.agent.planParts.filter (fun x => x.1 ≠ off.toNat) else [])
            ++ [(off.toNat, piece)]
          let whole := (sortBy (·.1) parts).foldl (fun (acc : List Byte) x => if acc.length = x.1 then acc ++ x.2 else acc) []
          let u : State := { s with agent := { s.agent with planParts := [], planTotal := 0 } };
          off.toNat + piece.length ≤ total.toNat →
            (whole.length < total.toNat → exec (.planPush env e off total piece) s =
              ok { s with agent := { s.agent with planParts := parts, planTotal := total.toNat } })
            ∧ (total.toNat ≤ whole.length → s.flash.plan ≠ some whole → planOk whole = true → s.newer whole = true →
                exec (.planPush env e off total piece) s = ok (u.putPlan whole))))
    ∧ exec (.stateQuery env e) s = .next (commit s (State.obeyed env e (s, 0, s.queryBody)))

/-- The switch, the census and commands held out of order (R346, R347, R349, R400). The model's own choices in it: log 137. -/
def Obligations.CensusEventsAct : Prop :=
  ∀ (s : State), s.agentUp = true →
    (∀ t, s.fab.switchAt = some t → t ≤ s.time.tick → exec .switchTick s = .next (commit s s.switchNow))
    ∧ (s.fab.counting = true → s.fab.drained = true → s.fab.censusDone = false → s.fab.drainedAt + msTicks 1 ≤ s.now →
        exec .drainedRepeat s = .next (commit s
          (State.agentReport { s with fab := { s.fab with drainedAt := s.now } } 0x42 (leBytes 2 s.fab.version.toNat))))
    ∧ (s.fab.counting = true → 0 < s.oldHeld → s.fab.switchedAt + frameTicks * s.censusFrames ≤ s.now →
        (let old (r : RedEntry) : Bool := r.used && r.sentAt.isNone && decide (r.epoch ≠ s.epoch);
          exec .censusPurge s = .next (commit s
            ((forEach (List.range 42) (fun (s : State) k => s.purgeVc (k / 6) (k % 6)) { s with
              fab := { s.fab with red := s.fab.red.filter fun (e : Nat × RedEntry) => !old e.2 }
              cnt := { s.cnt with purged := satAdd 16 s.cnt.purged (s.fab.red.filter fun (e : Nat × RedEntry) => old e.2).length } }).settleDrained).pumpInject)))
    ∧ (∀ h, s.agent.held.find? (fun (x : Instr × Nat × Nat) => decide (x.2.2 + msTicks 10 ≤ s.now)) = some h →
        exec .heldCommandTimeout s = .next (commit s
          ((State.cntGap { s with agent := { s.agent with
            nextSeq := minOf 0 (s.agent.held.map fun (x : Instr × Nat × Nat) => x.2.1) } }).runHeld 65)))

/-- The lease (R391, R395 to R398): renewed by its holder, taken by a candidate with a greater epoch once none is live, ended at its time, and
sought by an eligible candidate, which joins a holder elsewhere. The model's own choices in it: logs 138 and 143. -/
def Obligations.LeaseMoves : Prop :=
  ∀ (s : State) (env : BitVec 256) (e : End) (cycle : BitVec 64), s.agentUp = true →
    (eAnswer env = false → eEpoch env = s.agent.epoch → e = s.agent.holder → s.leaseLive = true →
        exec (.leaseRenew env e cycle) s = .next (commit s
          (State.answerCmd { s with agent := { s.agent with expiry := 100000 * cycle.toNat + 2000000, lastLive := s.now } } env e 0 [])))
    ∧ (eAnswer env = false → s.candidates.contains e = true → s.leaseLive = false → s.agent.epoch < eEpoch env → e ≠ s.ownEnd →
        s.wm.role ≠ .active → s.wm.seeking = false → s.fw.pauseWait = false →
        (let u := State.answerCmd { s with agent := { s.agent with
            epoch := eEpoch env, holder := e, hasLease := true, expiry := 100000 * cycle.toNat + 2000000, nextSeq := 1, kept := [],
            lastLive := s.now } } env e 0 []
          let v : State := { u with wm := { u.wm with known := max u.wm.known (eEpoch env).toNat } };
          v.fw.pauseWait = false → exec (.leaseTake env e cycle) s = .next (commit s (v.runHeld 65))))
    ∧ (eAnswer env = false → s.candidates.contains s.ownEnd = true → s.leaseLive = false → s.agent.epoch < eEpoch env → s.wm.seeking = true →
        (let u := State.answerCmd { s with agent := { s.agent with
            epoch := eEpoch env, holder := s.ownEnd, hasLease := true, expiry := 100000 * cycle.toNat + 2000000, nextSeq := 1, kept := [],
            lastLive := s.now } } env s.ownEnd 0 []
          let v : State := State.becomeActive { u with wm := { u.wm with known := max u.wm.known (eEpoch env).toNat } };
          v.fw.pauseWait = false → exec (.leaseTake env s.ownEnd cycle) s = .next (commit s (v.runHeld 65))))
    ∧ (s.agent.hasLease = true → s.agent.expiry ≤ s.time.tick → s.agent.holder ≠ s.ownEnd →
        exec .leaseExpiry s = .next (commit s { s with agent := { s.agent with hasLease := false, lastLive := s.now } }))
    ∧ (s.agent.hasLease = true → s.agent.expiry ≤ s.time.tick → s.agent.holder = s.ownEnd →
        (let u := State.demote { s with agent := { s.agent with hasLease := false, lastLive := s.now } }
          let v : State := { u with wm := { u.wm with seekAfter := s.cycleNow + 20 } };
          exec .leaseExpiry s = .next (commit s (if v.fw.pauseWait = true ∧ s.wm.standby = false then v.beginPause else v))))
    ∧ (s.eligible = true → s.wm.role = .none → s.wm.seekAfter ≤ s.cycleNow → s.leaseLive = true → s.agent.holder ≠ s.ownEnd →
        exec .leaseSeek s = .next (commit s (State.pairMsg { s with wm := { s.wm with
          role := .joining, fullParts := [], epoch := s.agent.epoch.toNat, seeking := false } } 0x03 [])))
    ∧ (s.eligible = true → s.wm.role ≠ .active → s.wm.seekAfter ≤ s.cycleNow → s.leaseLive = false → s.agent.lastLive + s.seekWait ≤ s.now →
        (let f := max s.wm.known s.agent.epoch.toNat + 1
          let body := leBytes 8 s.cycleNow;
          exec .leaseSeek s = .next (commit s
            (forEach s.agents (fun s a => s.sendEnv a.2 (envelope 0x02 0 false 1 f 0 body) body)
              { s with wm := { s.wm with epoch := f, known := f, seeking := true } }))))

/-- What reaches a Watermaster member (R347, R348, R368, R370, R392 to R404): reports become inputs of the cycle, cycles are computed, commands
go again, the two members copy, acknowledge, join and detach, with a message dropped and counted while the pair port has another user, and an
operator command that is signed is executed. The model's own choices in it: logs 51, 52, 53, 142 and 183. -/
def Obligations.WatermasterMembersAct : Prop :=
  ∀ (s : State), s.memberUp = true →
    let seen (ep : BitVec 32) : State := { s with wm := { s.wm with known := max s.wm.known ep.toNat } }
    let report (ep : BitVec 32) (c : Instr) (i : WmInput) : Prop :=
      ((s.wm.role = .none ∨ ep.toNat ≤ s.wm.epoch) → exec c s = .next (commit s ((seen ep).wmTake i)))
      ∧ (s.wm.role ≠ .none → s.wm.epoch < ep.toNat → exec c s = .next (commit s (seen ep).demote))
    (∀ ep a r q l, report ep (.partner ⟨ep, a⟩ r q l) (.partner a r q l))
    ∧ (∀ ep a v, report ep (.drainedReport ⟨ep, a⟩ v) (.drained a v))
    ∧ (∀ ep a c st d pr, report ep (.stateReport ⟨ep, a⟩ c st ⟨d, pr⟩)
        (.state a c st d (if a = s.ownEnd then s.fld 0x800000 0 1 = 1 else pr)))
    ∧ (∀ ep a u q l, report ep (.pathReport ⟨ep, a⟩ u q l) (.path a u q l))
    ∧ (∀ ep a q sb c0 c1, s.wm.role ≠ .synced → s.wm.role ≠ .coasting → report ep (.mismatch ⟨ep, a⟩ q sb c0 c1) (.mismatch a q sb))
    ∧ (∀ (ep : BitVec 32) a q sb c0 c1, (s.wm.role = .synced ∨ s.wm.role = .coasting) → ep.toNat ≤ s.wm.epoch →
        exec (.mismatch ⟨ep, a⟩ q sb c0 c1) s = .next (commit s ((seen ep).detach 0x02)))
    ∧ (s.wm.role = .active → s.wm.sh.cycle < s.cycleNow → exec .managementCycle s = .next (commit s (s.activeCycle s.cycleNow)))
    ∧ (∀ (m : Fin 512) (q : BitVec 32) c, (s.wm.role = .active ∨ s.wm.role = .synced ∨ s.wm.role = .coasting) →
        (s.wm.sh.outstanding.find? fun c => decide (c.agent = m.val ∧ c.seq = q.toNat ∧ c.seq ≠ 0)) = some c → c.cycle + 10 ≤ s.wm.sh.cycle →
        exec (.commandResendTimeout m q) s = .next (commit s
          ((s.updSh fun w => { w with outstanding := w.outstanding.erase c }).wmCommand c.agent c.type.toNat c.body)))
    ∧ (∀ (n : BitVec 64) ep d d' is, s.pairLive = true → s.wm.role = .synced → n.toNat = s.wm.sh.cycle → d = s.wm.digest →
        (let got := (if s.wm.copyCycle = some n.toNat then s.wm.copied else []) ++ is
          let u : State := { s with wm := { s.wm with copied := [], copyCycle := none, epoch := max s.wm.epoch ep.toNat } };
          exec (.pairCopy n ep d d' is true) s = .next (commit s
            ((forEach got (fun (s : State) i => s.wmApply i) (State.pairMsg { u with wm := { u.wm with role := .synced, coasts := 0 } } 0x02
              (leBytes 8 n.toNat ++ leBytes 8 s.wm.digest.toNat))).runCycle (n.toNat + 1)))))
    ∧ ((s.wm.role = .synced ∨ s.wm.role = .coasting) → 100000 * (s.wm.sh.cycle + 1) + 50000 ≤ s.time.tick →
        exec .copyMidpoint s = .next (commit s
          (let u := (forEach s.wm.inputs (fun (s : State) i => s.wmApply i)
            { s with wm := { s.wm with role := .coasting, coasts := s.wm.coasts + 1 } }).runCycle (s.wm.sh.cycle + 1);
            if 31 ≤ s.wm.coasts then u.detach 0x03 else u)))
    ∧ (∀ (n d : BitVec 64), s.pairLive = true → s.wm.role = .active → s.wm.standby = true → n.toNat + 1 = s.wm.sh.cycle →
        exec (.copyAck n d) s = .next (commit s
          (if d = s.wm.prevDigest then s.releaseReplies n.toNat else { s with wm := { s.wm with standby := false } })))
    ∧ (s.pairLive = true → s.wm.role = .active → s.wm.sh.stayDetached = false →
        exec .joinReq s = .next (commit s { s with wm := { s.wm with joinAsked := true } }))
    ∧ (∀ (n : BitVec 64) i count piece, s.pairLive = true → s.wm.role = .joining →
        (let parts := (if s.wm.copyCycle = some n.toNat then s.wm.fullParts.filter (fun e => e.1 ≠ i) else []) ++ [(i, piece)];
          (parts.length < count → exec (.fullCopy n i count piece) s = .next (commit s
            { s with wm := { s.wm with fullParts := parts, copyCycle := some n.toNat } }))
          ∧ (count ≤ parts.length → exec (.fullCopy n i count piece) s = .next (commit s
            (match Config.wmDecode ((sortBy (·.1) parts).flatMap (·.2)) with
              | none => { s with wm := { s.wm with fullParts := [], copyCycle := none } }
              | some (plan, w) =>
                let u : State := { s with wm := { s.wm with fullParts := parts, copyCycle := some n.toNat } }
                let v := match plan with
                  | some p => if s.flash.plan = some p then u else u.putPlan p
                  | none => u
                { v with wm := { v.wm with
                  role := .synced, sh := w, digest := Config.wmDigest w, prevDigest := 0, epoch := s.agent.epoch.toNat, fullParts := [],
                  copyCycle := none, inputs := [], coasts := 0 } })))))
    ∧ (∀ cause, s.pairLive = true → s.wm.role = .active →
        (let ds := (s.wm.sh.detaches.filter fun d => decide (s.wm.sh.cycle < d + 600000)) ++ [s.wm.sh.cycle]
          let u := s.updSh fun w => { w with detaches := ds, stayDetached := decide (3 ≤ ds.length) };
          exec (.detach cause) s = .next (commit s { u with wm := { u.wm with standby := false } })))
    ∧ (∀ t, s.wm.queryWait = some t → t ≤ s.now →
        exec .stateQueryTimeout s = .next (commit s (State.queryDone { s with wm := { s.wm with queryLeft := [] } })))
    ∧ (∀ (m : Fin 512) env body, eAnswer env = true → s.wm.role = .active → (eEpoch env).toNat ≤ s.wm.epoch → eResult env ≠ 4 →
        eResult env ≠ 5 → eType env ≠ 0x0D →
        exec (.agentAnswer m env body) s = .next (commit s
          (State.wmTake { s with wm := { s.wm with known := max s.wm.known (eEpoch env).toNat } }
            (.answer m (BitVec.ofNat 8 (eResult env)) (BitVec.ofNat 32 (eSeq env))))))
    ∧ (s.fab.pairUp = true → s.fab.pairUser ≠ 1 →
        let dropped (c : Instr) : Prop := exec c s = .next (commit s { s with cnt := { s.cnt with pairDrop := satAdd 8 s.cnt.pairDrop 1 } })
        (∀ n ep d d' is l, dropped (.pairCopy n ep d d' is l)) ∧ (∀ n d, dropped (.copyAck n d)) ∧ dropped .joinReq
        ∧ (∀ n i k bs, dropped (.fullCopy n i k bs)) ∧ (∀ c, dropped (.detach c)))
    ∧ (∀ (h : BitVec 256) (b p : List (BitVec 8)) (sig : BitVec 512),
        let executed (code : Nat) (c : Instr) : Prop := s.operates code h b p → exec c s = s.opOutcome (s.opExec h b) h b p sig
        executed 0x01 (.planLoad h b sig) ∧ executed 0x02 (.planGet h b sig) ∧ executed 0x03 (.planAccept h b sig)
        ∧ executed 0x04 (.topoGet h b sig) ∧ executed 0x05 (.findingsGet h b sig) ∧ executed 0x06 (.sliceCarve h b sig)
        ∧ executed 0x07 (.sliceFlows h b sig) ∧ executed 0x08 (.sliceFree h b sig) ∧ executed 0x09 (.sliceList h b sig)
        ∧ executed 0x0A (.moduleClear h b sig) ∧ executed 0x0B (.portRelease h b sig) ∧ executed 0x0C (.moduleReset h b sig)
        ∧ executed 0x0D (.moduleFreeze h b sig) ∧ executed 0x0E (.wmStatus h b sig) ∧ executed 0x0F (.budgetSet h b sig))

/-- Operator commands at the active Watermaster (R366, R367, R371, R374 to R388, R411, R437): one that is signed is answered with what it reads,
has its effect, or is answered BUSY, BAD or REFUSED with its reason, and is an input of the cycle; one that is not is DENIED. The model's own
choices in it: logs 50, 55, 56 and 58. -/
def Obligations.OperatorCommandsRun : Prop :=
  ∀ (s : State) (h : BitVec 256) (b p : List (BitVec 8)) (sig : BitVec 512),
    let row (code : Nat) (i : Instr) (u : State) : Prop := s.operates code h b p → exec i s = s.opOutcome u h b p sig
    let x := word32 b 0
    let bad := s.answer h opBad 0 0 []
    let refused (k hi : Nat) : State := s.answer h opRefused k hi []
    let at_ (f : Nat → State) : State := ((s.endIdx x).map f).getD bad
    let v := s.viewAhead p
    row 0x01 (.planLoad h b sig)
        (if s.wm.sh.changing then s.busy h else match s.planReason b with
          | some k => refused k 0
          | none => (s.takePlan b).done h [])
    ∧ row 0x02 (.planGet h b sig) (s.answer h opOk 0 0 p)
    ∧ row 0x03 (.planAccept h b sig)
        (if x ≠ planRev p then refused rjRevision 0 else if s.wm.sh.changing then s.busy h
          else (s.takePlan (acceptedPlan p s.wm.sh)).done h (acceptedPlan p s.wm.sh))
    ∧ row 0x04 (.topoGet h b sig) (s.answer h opOk 0 0 s.topoBytes)
    ∧ row 0x05 (.findingsGet h b sig) (s.answer h opOk 0 0 ((s.wm.sh.findings.flatMap fun f => findingBytes f true)
        ++ (s.wm.sh.log.drop x).flatMap fun f => findingBytes f false))
    ∧ (let r : BitVec 256 := BitVec.ofNat 256 (leNat b);
        (16 ≤ s.wm.sh.changes.length → row 0x06 (.sliceCarve h b sig) (s.busy h))
        ∧ (s.wm.sh.changes.length < 16 →
          (∀ k i, carveReason p s.wm.sh s.holderIdx v.slices r = some (k, i) → row 0x06 (.sliceCarve h b sig) (refused k i))
          ∧ (carveReason p s.wm.sh s.holderIdx v.slices r = none →
            (∀ y ys, freeIds v.slices = y :: ys → bitAt r 18 = false →
              row 0x06 (.sliceCarve h b sig) (s.queueChange h (.carve (putField r 64 8 y) none h)))
            ∧ (∀ y z ys, freeIds v.slices = y :: z :: ys → bitAt r 18 = true →
              row 0x06 (.sliceCarve h b sig) (let r' := putField (putField r 64 8 y) 72 8 z;
                s.queueChange h (.carve r' (some (twinRec r')) h)))
            ∧ ((freeIds v.slices).length < (if bitAt r 18 then 2 else 1) → row 0x06 (.sliceCarve h b sig) (refused rjNoId 0)))))
    ∧ (let es : List (BitVec 64) := (List.range ((b.length - 4) / 8)).map fun k => BitVec.ofNat 64 (bytesNat b (4 + 8 * k) 8);
        row 0x07 (.sliceFlows h b sig)
          (if 16 ≤ s.wm.sh.changes.length then s.busy h else match v.slices.find? fun r => decide (fieldNat r 71 64 = x) with
            | none => bad
            | some r => if es.any flowReserved then bad else if flowsBad v r (mergeFlows (flowsOf v.flows x) es) then refused rjPath 0
              else s.queueChange h (.flows x es h)))
    ∧ (let y := x % 2 ^ 8
        let force := bitAt (BitVec.ofNat 32 x) 8
        let goes (r : BitVec 256) : Bool := decide (fieldNat r 71 64 = y) || (decide (fieldNat r 79 72 = y) && decide (y ≠ 0))
        let u := (s.queueChange h (.free y h)).updSh fun w =>
          { w with slices := w.slices.map fun r => if goes r then putField r 80 2 2 else r };
        row 0x08 (.sliceFree h b sig)
          (if 16 ≤ s.wm.sh.changes.length then s.busy h else if (v.slices.any fun r => decide (fieldNat r 71 64 = y)) = false then bad
            else if force = false ∧ s.holdsSlice y = true then s.busy h
            else if force then forEach (u.wm.sh.slices.filter goes) (fun s r => s.tellSlice r 0) u else u))
    ∧ row 0x09 (.sliceList h b sig) (s.answer h opOk 0 0 (s.wm.sh.slices.flatMap fun r => leBytes 32 r.toNat))
    ∧ row 0x0A (.moduleClear h b sig) (at_ fun k => let u := s.updSh fun w => { w with stayDetached := false, detaches := [] };
        (if s.endOf k = s.ownEnd then u.clearLatch else u.towMessage (s.endOf k) (leBytes 32 h.toNat ++ b)).done h [])
    ∧ row 0x0B (.portRelease h b sig) (at_ fun k =>
        if x / 2 ^ 9 % 8 = 7 then bad else (s.wmCommand k 0x0A (leBytes 1 (x / 2 ^ 9 % 8))).done h [])
    ∧ row 0x0C (.moduleReset h b sig) (at_ fun k =>
        (s.towCommand 0x06 (s.endOf k) (s.wm.epoch % 2 ^ 32 + x / 2 ^ 16 * 2 ^ 32)).done h [])
    ∧ row 0x0D (.moduleFreeze h b sig) (at_ fun k => (s.towCommand 0x05 (s.endOf k) (s.wm.epoch % 2 ^ 32)).done h [])
    ∧ row 0x0E (.wmStatus h b sig) (s.answer h opOk 0 0 s.wmStatus)
    ∧ (let u := s.updSh fun w => { w with budgets := (List.range 8).foldl (fun (t : Sparse Nat) r =>
          if word32 b r = 0 then t else sset 0 t r (word32 b r)) w.budgets };
        row 0x0F (.budgetSet h b sig) (u.done h u.budgetBytes))

/-! ### Firmware update, tenant removal and the management chain (R292 to R299, R368, R405, R491, R512, R529 to R536, R562) -/

/-- The steps of an update after its blocks are in, and the end of a tenant's removal (R512, R529 to R536). The model's own choices in it:
logs 63, 64 and 75. -/
def Obligations.UpdateEventsAct : Prop :=
  ∀ (s : State),
    (∀ m : BitVec 128, s.agentUp = true → s.fab.pairUp = true → fieldNat m 7 0 = 0x10 → fieldNat m 127 11 = 0 → fieldNat m 10 8 ≤ 5 →
        exec (.updateState m) s = .next (commit s { s with fw := { s.fw with
          partnerState := BitVec.ofNat 3 (fieldNat m 10 8), partnerAt := s.now } }))
    ∧ (s.agentUp = true → s.fw.state ≠ .idle → s.fw.nextUpdate ≤ s.now → exec .updateStateTimer s = .next (commit s s.sendUpdate))
    ∧ (∀ ok img, s.fw.state = .rebuilding → s.rebuilt ok = .ok img →
        exec (.rebuildComplete ok) s = .next (commit s
          ((s.setFw fun u =>
            let v : Update := if u.running then { u with slot0 := img } else { u with slot1 := img }
            { v with state := .staged, header := [], blocks := [], withUcode := bitAt img.sections 1 }).endKind .rebuild { status := stOk })))
    ∧ (∀ ok c, s.fw.state = .rebuilding → s.rebuilt ok = .error c →
        exec (.rebuildComplete ok) s = .next (commit s
          ((s.setFw fun u => { u.emptyOther with
            state := .idle, header := [], blocks := [], lastResult := 3, lastCode := BitVec.ofNat 8 c }).endKind .rebuild
              { status := stSecDenied, detail := c })))
    ∧ (∀ bad, s.hst.paused = true → s.fw.falling = true →
        (let u := State.setFw { s with hst := { s.hst with paused := false }, tt := { s.tt with hgPause := false } } fun u => u.fellBack u.lastCode
          let v := forEach (u.jobs.map fun j => (j.sq, j.slot)) (fun s j => s.gathered j.1 j.2) u;
          exec (.activatePauseEnd bad) s = .next (commit s (State.announce
            ((((v.nextRemoval (v.removeQueue.length + 1)).settleAll).pumpReplay).fetch) s))))
    ∧ (∀ cells, s.hst.paused = true → s.fw.falling = false →
        (let bad := if s.fw.withUcode then cells else []
          let u := State.setFw (forEach bad (fun s c => s.failCell c.val) { s with
              hst := { s.hst with paused := false }, tt := { s.tt with hgPause := false } }) fun u =>
            let v : Update := { u with state := .awaiting, running := u.trial.getD u.running, ucodeBad := !bad.isEmpty,
                                       confirmUntil := s.now + msTicks (1000 * clamp 30 300 (s.fld 0xB00010 0 9)) }
            { v with oldFormat := decide (v.slot0.fmt ≠ v.slot1.fmt) }
          let w := u.endKind .activate { status := stOk, r0 := (s.now - s.fw.pauseAt) / usTicks 1, r1 := u.runImage.version.toNat }
          let v := forEach (w.jobs.map fun j => (j.sq, j.slot)) (fun s j => s.gathered j.1 j.2) w;
          exec (.activatePauseEnd cells) s = .next (commit s (State.announce
            ((((v.nextRemoval (v.removeQueue.length + 1)).settleAll).pumpReplay).fetch) s))))
    ∧ (s.fw.state = .awaiting → s.now ≤ s.fw.confirmUntil → s.frz.frozen = false → s.rst.cold = false → s.rst.warm = false →
        s.stateHealthy = true → s.hawserHealthy = true → s.fw.ucodeBad = false → s.roleHealthy = true →
        exec .confirmation s = .next (commit s (s.setFw fun u => { u.emptyOther with
          state := .idle, activeSlot := u.running, trial := none, minSvn := max u.minSvn (if u.running then u.slot1.svn else u.slot0.svn),
          lastResult := 1, lastCode := 0, oldFormat := false })))
    ∧ (s.fw.state = .awaiting → s.frz.frozen = false → s.rst.cold = false → s.rst.warm = false →
        (s.stateHealthy = false → exec .confirmWindowExpiry s = .next (commit s (s.fallBack 0x11)))
        ∧ (s.stateHealthy = true → s.fw.ucodeBad = false → s.fw.confirmUntil ≤ s.now → s.hawserHealthy = true →
          exec .confirmWindowExpiry s = .next (commit s (s.fallBack 0x10)))
        ∧ (s.stateHealthy = true → s.fw.ucodeBad = false → s.fw.confirmUntil ≤ s.now → s.hawserHealthy = false →
          exec .confirmWindowExpiry s = .next (commit s (s.fallBack 0x12)))
        ∧ (s.stateHealthy = true → s.fw.ucodeBad = true → exec .confirmWindowExpiry s = .next (commit s (s.fallBack 0x13))))
    ∧ (∀ r, s.removal = some r → s.compute = true → s.hst.paused = false → (s.tenantWork r.ctxs = 0 ∨ r.waitUntil ≤ s.now) →
        exec .tenantRemoveWaitEnd s = .next (commit s (s.endRemoval r)))

/-- The management chain (R292 to R299, R405, R462, R491, R562): frames that name this module, came from another and have a good CRC have their
effect, FREEZE and RESET_REQ only from a clock board or the holder of the lease; what the module sends in its time, frames it passes on, every
one while its relays are closed, and the rack reference. The model's own choices in it: logs 87, 88 and 146. -/
def Obligations.ManagementChainActs : Prop :=
  (∀ (s : State) (f : BitVec 128), s.tow.culvertOpen = false →
    let on_ : State := { s with tow := { s.tow with out := s.tow.out ++ [f] } }
    exec (.rollCall f) s = .next (commit s on_) ∧ exec (.freeze f) s = .next (commit s on_)
    ∧ exec (.resetReqCold f) s = .next (commit s on_) ∧ exec (.resetReqWarm f) s = .next (commit s on_)
    ∧ exec (.wm f) s = .next (commit s on_) ∧ exec (.ack f) s = .next (commit s on_)
    ∧ exec (.towpathForward f) s = .next (commit s on_))
  ∧ (∀ (s : State) (f : BitVec 128), s.tow.culvertOpen = true → s.agentUp = true → towOk f = true → s.towOwn f = false → s.towMine f = true →
    (fType f = 0x01 → exec (.rollCall f) s = .next (commit s s.sendPresent))
    ∧ (fType f = 0x05 → s.towAuth f = true → exec (.freeze f) s = .next (commit s ((s.towAck f).freezeNow 0x02)))
    ∧ (fType f = 0x05 → s.towAuth f = false → exec (.freeze f) s = .next (commit s s.towRefuse))
    ∧ (fType f = 0x06 → s.towAuth f = true → fPay f / 2 ^ 32 % 4 = 0 →
        exec (.resetReqCold f) s = .next (commit s ((s.towAck f).startCold false false)))
    ∧ (fType f = 0x06 → s.towAuth f = true → fPay f / 2 ^ 32 % 4 = 1 →
        exec (.resetReqWarm f) s = .next (commit s ((s.towAck f).requestReset .compute 0x04 [] true false)))
    ∧ (fType f = 0x07 → exec (.wm f) s = .next (commit s (s.wmSegment f)))
    ∧ (fType f = 0x08 → exec (.ack f) s = .next (commit s { s with tow := { s.tow with tx := s.tow.tx.filter fun t =>
        !(decide (towEnd t.dst = fieldNat f 23 8) && decide (t.seq = fPay f % 256)
          && t.frames.all fun g => decide (fType g = fPay f / 256 % 256)) } })))
  ∧ (∀ (s : State), s.agentUp = true →
    (s.tow.presentAt + msTicks 1000 ≤ s.now → exec .presentTimer s = .next (commit s s.sendPresent))
    ∧ (∀ c : BitVec 8, s.tow.alerts.contains c = true → sget 0 s.tow.alertAt c.toNat + msTicks 10 ≤ s.now →
        exec (.alertRepeat c) s = .next (commit s (State.towSend
          { s with tow := { s.tow with alertAt := sset 0 s.tow.alertAt c.toNat s.now } } 0x03 towAll c.toNat)))
    ∧ (fieldNat s.boot.report 7 0 ≠ 9 → s.tow.stageAt + msTicks 100 ≤ s.now →
        exec .stageRepeat s = .next (commit s (State.towSend { s with tow := { s.tow with stageAt := s.now } } 0x04 towAll s.boot.report.toNat)))
    ∧ (∀ f, s.tow.culvertOpen = true → towOk f = true → s.towOwn f = false → s.towMine f = false → fieldNat f 39 24 ≠ towAll → fType f ≠ 0x02 →
        exec (.towpathForward f) s = .next (commit s { s with tow := { s.tow with out := s.tow.out ++ [f] } }))
    ∧ (∀ (n : BitVec 16) t, (s.tow.tx.find? fun t => t.msgId = n.toNat && t.frames.all fun g => decide (fType g = 0x07)) = some t →
        s.tow.culvertOpen = true → t.at_ + msTicks 10 ≤ s.now → t.tries < 6 →
        exec (.wmMessageResend n) s = .next (commit s { s with tow := { s.tow with
          out := s.tow.out ++ t.frames, tx := s.tow.tx.map fun x => if x = t then { t with at_ := s.now, tries := t.tries + 1 } else x } }))
    ∧ (∀ (q : BitVec 8) t, (s.tow.tx.find? fun t => t.seq = q.toNat && t.frames.all fun g => decide (fType g = 0x05 ∨ fType g = 0x06)) = some t →
        s.tow.culvertOpen = true → exec (.towpathCommandResend q) s = .next (commit s { s with tow := { s.tow with
          out := s.tow.out ++ t.frames, tx := s.tow.tx.map fun x => if x = t then { t with at_ := s.now, tries := t.tries + 1 } else x } }))
    ∧ (∀ w : BitVec 64, s.time.refLost = false →
        (s.time.tickSet = false → exec (.frameMarker (some w)) s = .next (commit s
          { s with time := { s.time with tick := 16384 * w.toNat, tickSet := true, badFrames := 0 } }))
        ∧ (s.time.tickSet = true → s.time.tick = 16384 * w.toNat → exec (.frameMarker (some w)) s = .next (commit s
          { s with time := { s.time with badFrames := 0 } }))
        ∧ (s.time.tickSet = true → s.time.tick ≠ 16384 * w.toNat → exec (.frameMarker (some w)) s = .next (commit s s.badMarker))
        ∧ exec (.frameMarker none) s = .next (commit s s.badMarker))
    ∧ (∀ w : BitVec 64, s.time.refLost = true →
        exec (.frameMarker (some w)) s = .next (commit s (State.timeValid (if s.time.tickSet then s else
          { s with time := { s.time with tick := 16384 * w.toNat, tickSet := true, badFrames := 0 } }) w))
        ∧ exec (.frameMarker none) s = .next (commit s { s with time := { s.time with validSince := none, word := none } }))
    ∧ exec .refclkLoss s = .next (commit s s.refLoss)
    ∧ (∀ (r : BitVec 64) t, s.time.validSince = some t → s.time.refLost = true → s.time.hold = 0 → t + s.recoverTicks ≤ s.now →
        exec (.referenceRecovery r) s = .next (commit s
          (if s.time.tickSet = false ∨ s.time.tick ≤ 16384 * r.toNat then
            State.refBack { s with time := { s.time with tick := 16384 * r.toNat, tickSet := true } }
          else { s with time := { s.time with hold := s.time.tick - 16384 * r.toNat } }))))

/-! ### Power, heat, supplies and pins (R411 to R433, R550, R562, R564, R567, R570 to R580) -/

/-- The power controller (R412 to R418, R424 to R427, R430 to R432, R434): a sample renews the readings and the controller decides, the trims
are formed, voltage steps end, droops defer and halt, and heat throttles and trips. The model's own choices in it: logs 144, 145, 151 and
192. -/
def Obligations.PowerControllerActs : Prop :=
  ∀ (s : State),
    (∀ x : PowerSample, s.frz.frozen = false → s.rst.cold = false → s.pw.sampled ≠ s.time.tick / 256 →
        (s.controller = false → exec (.powerSample x) s = .next (commit s (s.takeReadings x)))
        ∧ (s.controller = true →
          (let r := s.takeReadings x
            let e := (sumOf ([PowerDomain.links, .memory, .compute, .fixed].map fun d => (r.share x d).total)) * r.pw.trimNum / 1000000
            let u := r.noteEstimate x
            let v := u.noteDemand u.pw.est1ms;
            u.pw.est = e ∧ exec (.powerSample x) s = .next (commit s (if v.pw.alert then v else v.decide_ x)))))
    ∧ (∀ mv ma rs, s.controller = true → 0 < s.pw.est1ms → s.perRail = false →
        (let m := mv * ma / 1000
          let left (t : State) (n : Nat) (fault : Bool) : Prop :=
            t = commit s { s with freeCtr := s.freeCtr + 1, pw := { s.pw with trimNum := n, estFault := fault } };
          (10 * m < 9 * s.pw.est1ms → ∃ t, exec (.trimUpdate ⟨mv, ma, rs⟩) s = .next t ∧ left t 900 true)
          ∧ (11 * s.pw.est1ms < 10 * m → ∃ t, exec (.trimUpdate ⟨mv, ma, rs⟩) s = .next t ∧ left t 1100 true)
          ∧ (9 * s.pw.est1ms ≤ 10 * m → 10 * m ≤ 11 * s.pw.est1ms →
            ∃ t n, exec (.trimUpdate ⟨mv, ma, rs⟩) s = .next t ∧ left t n false ∧ 900 ≤ n ∧ n ≤ 1100)))
    ∧ (∀ mv ma (rs : List Nat), s.controller = true → 0 < s.pw.est1ms → s.perRail = true →
        (let one (acc : State) (n : Nat) : State :=
            if acc.pw.railAvg.getD n 0 = 0 then acc
            else
              let f := acc.free 8
              let t := trimOf (rs.getD n 0) (acc.pw.railAvg.getD n 0) f.2
              { f.1 with pw := { f.1.pw with railTrim := f.1.pw.railTrim.set n t.1, estFault := f.1.pw.estFault || t.2 } }
          let t := trimOf (mv * ma / 1000) s.pw.est1ms (s.free 8).2;
          exec (.trimUpdate ⟨mv, ma, rs⟩) s = .next (commit s (forEach (List.range 6) one { s with
            freeCtr := s.freeCtr + 1, pw := { s.pw with trimNum := t.1, estFault := t.2 } }))))
    ∧ (∀ o, s.pw.target = some o → s.compute = true →
        exec .voltageReached s = .next (commit s (if s.deferring then { s with pw := { s.pw with deferred := some o } }
          else State.noteFull { s.setOp o with pw := { (s.setOp o).pw with target := none } } s)))
    ∧ (∀ p : Fin 136, s.compute = true → s.islandRuns p = true → s.pw.droops.contains p.val = false →
        (let ts := (s.pw.storm.filter fun t => decide (s.now < t + msTicks 1)) ++ [s.now]
          let u : State := { s with pw := { s.pw with
            droops := s.pw.droops ++ [p.val], voltageHalted := true, storm := ts
            droopLog := (s.pw.droopLog.filter fun d => decide (s.now < d.1 + msTicks 1000)) ++ [(s.now, s.groupOf p)] } };
          (ts.length ≤ s.stormLimit → exec (.droopStart p) s = .next (commit s u))
          ∧ (s.stormLimit < ts.length → s.controller = true → exec (.droopStart p) s = .next (commit s
              { u.oneDown with pw := { u.oneDown.pw with storm := [], storms := u.oneDown.pw.storms + 1, noUpUntil := s.now + msTicks 10 } }))))
    ∧ (∀ p : Fin 136, s.compute = true → s.pw.droops.contains p.val = true →
        exec (.droopEnd p) s = .next (commit s { s with pw := { s.pw with
          droops := s.pw.droops.erase p.val, lastDroop := if (s.pw.droops.erase p.val).isEmpty then max 1 s.now else s.pw.lastDroop } }))
    ∧ (s.compute = true → s.pw.droops = [] → s.pw.lastDroop ≠ 0 → s.pw.lastDroop + usTicks 5 ≤ s.now →
        (let u : State := { s with pw := { s.pw with lastDroop := 0, voltageHalted := false, deferred := none } };
          (s.pw.deferred = none → exec .droopDeferExpiry s = .next (commit s u))
          ∧ (∀ o, s.pw.deferred = some o → exec .droopDeferExpiry s = .next (commit s
              (if o ≤ s.pw.op ∨ s.pw.target = some o then State.noteFull { u.setOp o with pw := { (u.setOp o).pw with target := none } } s
              else { u with pw := { u.pw with target := some o } })))))
    ∧ (s.controller = true → s.hotterThan s.throttleC = true →
        (let u := State.heatAlert { s with pw := { s.pw with thermalHold := true } };
          exec .thermalThrottle s = .next (commit s (if s.now < s.pw.lastStep + s.upTicks then u else u.oneDown))))
    ∧ (∀ (n : Fin 64) (x : BitVec 12), 8 * 105 ≤ tempOf x → n.val < 48 → s.rst.cold = false →
        (agentSensor n = true → s.frz.frozen = false → exec (.thermalTrip n x) s = .next (commit s
          (let u := s.oosEvent.startCold true false; { u with pw := { u.pw with agentTrip := true } })))
        ∧ (agentSensor n = true → s.frz.frozen = true → exec (.thermalTrip n x) s = .next (commit s
          { s with pw := { s.pw with agentTrip := true }, frz := { s.frz with agentLost := true } }))
        ∧ (agentSensor n = false → s.frz.frozen = false → s.pw.thermalTrip = false → exec (.thermalTrip n x) s = .next (commit s
          (((State.oosEvent { s with pw := { s.pw with thermalTrip := true } }).startWarm 0x05 false).setRail .vcore .off)))
        ∧ (agentSensor n = false → s.frz.frozen = true → exec (.thermalTrip n x) s = .next (commit s
          (State.setRail { s with pw := { s.pw with thermalTrip := true }, frz := { s.frz with computeLost := true } } .vcore .off))))

/-- The alert wire (R428, R429, R550, R573): falling, every cell goes to OP0, trickle work is shed and Headgate closes; rising, the hold begins,
and with its end the controller climbs again. The hot-swap stage, the rail sequence, and RESET_N and FREEZE_N (R567, R571, R572, R577 to R580).
The model's own choices in it: log 5. -/
def Obligations.AlertAndSupplyEventsAct : Prop :=
  (∀ (s : State), s.rst.cold = false → s.frz.frozen = false →
    (s.alertLow = false → (let u := State.setOp { s with sup := { s.sup with alertN := false } } 0;
      exec .alertNFall s = .next (commit s (State.railAlert { u with
        pw := { u.pw with alert := true, alertHold := none, alertCount := s.pw.alertCount + 1, target := none, deferred := none,
                          shed := true, lastStep := s.now }
        tt := { u.tt with hgPower := true } }))))
    ∧ (s.alertLow = true → (let u : State := { s with sup := { s.sup with alertN := true } };
      u.alertLow = false → exec .alertNRise s = .next (commit s (State.railAlert { u with
        pw := { s.pw with alertHold := some (s.now + s.alertHoldTicks) } }))))
    ∧ (∀ t, s.pw.alertHold = some t → t ≤ s.now →
        exec .alertHoldExpiry s = .next (commit s { s with pw := { s.pw with alert := false, alertHold := none } }))
    ∧ (∀ l, exec (.auxPinChange l) s = .next (commit s (State.wire { s with sup := { s.sup with aux := l } } s))))
  ∧ (∀ (s : State),
    (∀ mv, s.sup.hotSwap = false → 50000 ≤ mv → exec (.hotSwapClose mv) s = .next (commit s
        (State.setRail { s with sup := { s.sup with hotSwap := true } } .aux .ramping)))
    ∧ (s.sup.hotSwap = true → (let u := if s.rst.cold then s else s.startCold false false;
        exec .hotSwapOpen s = .next (commit s { u with
          frz := {}, rst := { u.rst with cold := true, byFreeze := false, byThermal := false }
          sup := { u.sup with hotSwap := false, rangeBad := [], rails := u.sup.rails.map fun e => (e.1, .off) } })))
    ∧ (∀ r n, s.rail r = .ramping → r ≠ .aux → nextRail r = some n →
        exec (.railPowerGood r) s = .next (commit s ((s.setRail r .good).setRail n .ramping)))
    ∧ (s.rail .vddq = .ramping → exec (.railPowerGood .vddq) s = .next (commit s (s.setRail .vddq .good).endCold))
    ∧ (s.rail .aux = .ramping → exec (.railPowerGood .aux) s = .next (commit s
        (let u := s.setRail .aux .good; State.releaseCold { u with rst := { u.rst with byResetN := !s.sup.resetN } })))
    ∧ (∀ r, s.rail r = .ramping → r ≠ .aux → r ≠ .vser →
        (let u := s.setRail r .failed
          let v := State.endCold { u with boot := { u.boot with stage := 0, phase := .ended, halted := true, failedStage := true } };
          exec (.railPowerGoodTimeout r) s = .next (commit s
            ((State.sendPresent { v with tow := { v.tow with agentOn := true, culvertOpen := true } }).stageReport 0 6 (railIndex r)))))
    ∧ (∀ p, s.rst.cold = false → s.frz.frozen = false →
        (s.sup.rangeBad.contains p = false → exec (.railOutOfRange p) s = .next (commit s
          (State.railAlert { s with sup := { s.sup with rangeBad := s.sup.rangeBad ++ [p] } })))
        ∧ (s.sup.rangeBad.contains p = true → exec (.railBackInRange p) s = .next (commit s
          (State.railAlert { s with sup := { s.sup with rangeBad := s.sup.rangeBad.erase p } }))))
    ∧ (s.sup.hotSwap = true → s.rst.cold = false →
        exec .resetN s = .next (commit s (State.startCold { s with sup := { s.sup with resetN := false } } false true)))
    ∧ exec .resetNRise s = .next (commit s
        (State.releaseCold { s with sup := { s.sup with resetN := true }, rst := { s.rst with byResetN := false } }))
    ∧ exec .freezeN s = .next (commit s (State.freezeNow { s with sup := { s.sup with freezeN := false } } 0x01))
    ∧ exec .freezeNRise s = .next (commit s
        (State.releaseCold { s with sup := { s.sup with freezeN := true }, rst := { s.rst with byFreeze := false } }))
    ∧ (s.frz.frozen = false → (s.readings 0 48).any (fun t => decide (8 * 85 < t)) = false →
        (s.rst.cold = true → exec .thermalHoldEnd s = .next (commit s
          (State.releaseCold { s with rst := { s.rst with byThermal := false }, pw := { s.pw with agentTrip := false } })))
        ∧ (s.rst.cold = false → s.pw.thermalTrip = true → exec .thermalHoldEnd s = .next (commit s
          (State.setRail { s with pw := { s.pw with thermalTrip := false } } .vcore .good)))))

/-! ### Resets and bring-up (R444 to R465, R474 to R493, R567, R571) -/

/-- Watchdogs and missed heartbeats reset the domain that does not make progress, with cause 0x01 (R445, R446, R450, R456): a cell whose
matrix instruction, DMA command or thread stands still, a memory controller, a mover, the Ferry, Intake or the Hawser domain, and the compute
part for firmware's heartbeat. The model's own choices in it: log 127. -/
def Obligations.WatchdogsReset : Prop :=
  ∀ (s : State), s.compute = true →
    (∀ c : Fin 128, (s.cell c).inReset = false →
        ((((s.cell c).mxq ≠ [] ∨ ∃ e l, (s.cell c).mvq = e :: l ∧ e.kind = .dma) ∧ (s.cell c).progress + s.cellLimit ≤ s.now)
          ∨ s.thStuck c .fg = true ∨ s.thStuck c .tr = true) → s.mayReset (.cell c) →
        exec (.cellWatchdog c) s = .next (commit s (s.startReset (.cell c) 0x01 (s.cellBlame c))))
    ∧ (∀ k : Fin 32, s.mayReset (.memGroup k) → exec (.memControllerWatchdog k) s = .next (commit s
        (s.startReset (.memGroup k) 0x01 ((s.mover k).cur.toList.map fun c => c.ctx.toNat))))
    ∧ (∀ k : Fin 32, ((s.mover k).cur.isSome = true ∨ (s.mover k).xfer.isSome = true) → (s.mover k).inReset = false →
        (s.mover k).progress + s.engLimit ≤ s.now → s.mayReset (.memGroup k) →
        exec (.engineWatchdog (.mover k)) s = .next (commit s
          (s.startReset (.memGroup k) 0x01 ((s.mover k).cur.toList.map fun c => c.ctx.toNat))))
    ∧ (s.ferryWaits = true → s.fry.inReset = false → s.fry.progress + s.engLimit ≤ s.now → s.mayReset .ferry →
        exec (.engineWatchdog .ferry) s = .next (commit s (s.startReset .ferry 0x01 [])))
    ∧ (∀ (k : Fin 16) x, x ∈ s.streams → x.engine = k.val → x.decoding ≠ [] → x.progress + s.itkLimit ≤ s.now → s.itkReset = false →
        s.mayReset .intake → exec (.decodeWatchdog k) s = .next (commit s (s.startReset .intake 0x01 [])))
    ∧ (s.hst.inReset = false → s.mayReset .hawser → exec .hawserWatchdog s = .next (commit s (s.startReset .hawser 0x01 [])))
    ∧ (s.mayReset .compute → exec .heartbeatMiss s = .next (commit s (s.startWarm 0x01 true)))

/-- A reset under way ends with its handshake, or escalates; warm and cold resets start; deferred ones begin; aborts are taken and repeated
(R446, R451, R456, R459 to R465, R567). A frozen module takes no cold reset but that of its reset input, a power cycle or its console. The
model's own choices in it: logs 44, 125, 126 and 159. -/
def Obligations.ResetsProceed : Prop :=
  ∀ (s : State),
    (∀ d ok bad r, s.rst.cold = false → s.frz.frozen = false → (s.rst.active.find? fun r => r.dom = d) = some r →
        (let blamed := if s.replays r then [] else r.ctxs
          let u : State := { s with rst := { s.rst with
            active := s.rst.active.erase r, lastEnd := (s.rst.lastEnd.filter fun e => e.1 ≠ d) ++ [(d, s.now)] } }
          let v := ((u.doReset r ok bad).blame blamed).recordReset r (if blamed.isEmpty then 1 else 0) (BitVec.ofNat 6 (minOf 0 blamed));
          exec (.resetHandshakeDone d ⟨ok, bad⟩) s = .next (commit s
            ((((if d = .compute then v else v.abortFaulted s (abortCause d) r.at_).pumpReplay).moversGoOn).announce s))))
    ∧ (∀ d r, s.rst.cold = false → s.frz.frozen = false → (s.rst.active.find? fun r => r.dom = d) = some r → r.due ≤ s.now →
        (let u := (State.oosEvent { s with rst := { s.rst with
            active := s.rst.active.erase r, escalations := satAdd 8 s.rst.escalations 1 } }).recordReset r 2 0;
          (∀ c : Fin 128, d = .cell c → exec (.handshakeTimeout d) s = .next (commit s
            ((u.failCell c).requestReset (.group (Fin.ofNat 16 (c.val / 8))) 0x03 [] true true)))
          ∧ ((d = .compute ∨ ∃ p, d = .port p) → exec (.handshakeTimeout d) s = .next (commit s (u.startCold false false)))
          ∧ (((∃ g, d = .group g) ∨ (∃ m, d = .memGroup m) ∨ d = .ferry ∨ d = .intake ∨ d = .hawser) →
              exec (.handshakeTimeout d) s = .next (commit s (u.requestReset .compute 0x03 [] true true)))))
    ∧ (∀ c, s.mayReset .compute → exec (.computeWarmReset c) s = .next (commit s (s.startWarm (warmCode c) (decide (c ≠ .thermal)))))
    ∧ (s.rst.cold = false → s.frz.frozen = false → (s.rst.active.any fun r => r.dom = .compute) = false → s.rst.warm = false →
        exec (.computeWarmReset .escalation) s = .next (commit s (s.startWarm 0x03 true)))
    ∧ (∀ c, s.rst.cold = false → (s.frz.frozen = false ∨ c = .powerOn ∨ c = .resetN ∨ c = .console) →
        exec (.coldReset c) s = .next (commit s (s.startCold (decide (c = .thermal)) (decide (c = .resetN ∧ !s.sup.resetN)))))
    ∧ (∀ d c, (s.rst.deferred.find? fun e => e.1 = d) = some (d, c) → s.tooSoon d = false →
        exec (.deferredResetStart d) s = .next (commit s
          (State.requestReset { s with rst := { s.rst with deferred := s.rst.deferred.erase (d, c) } } d c []
            (decide (c ≠ 0x05)) false)))
    ∧ (∀ (m : Fin 512) x, s.agentUp = true → fieldNat x 7 0 = 1 → fieldNat x 15 8 ≠ 0 → fieldNat x 15 8 = s.ownSlice →
        (sliceBox s.agent.sliceRec).contains m.val = true →
        exec (.abortReceive m x) s = .next (commit s
          (State.abortSlice { s with cnt := { s.cnt with aborts := satAdd 8 s.cnt.aborts 1 } } (fieldNat x 15 8))))
    ∧ (∀ (m : Fin 512) x, s.agentUp = true → fieldNat x 7 0 = 1 →
        (fieldNat x 15 8 = 0 ∨ fieldNat x 15 8 ≠ s.ownSlice ∨ (sliceBox s.agent.sliceRec).contains m.val = false) →
        exec (.abortReceive m x) s = .next (commit s s.cntBadDest))
    ∧ (s.agentUp = true → s.fab.abortMap ≠ [] → s.fab.abortAt ≤ s.now → s.fab.abortTries + 1 < s.tries →
        (let n := min 8 (2 * s.fab.abortInterval);
          exec .abortResendTimer s = .next (commit s
            (forEach s.fab.abortMap (fun s a => s.sendAgain a.2) { s with fab := { s.fab with
              abortInterval := n, abortTries := s.fab.abortTries + 1, abortAt := s.now + n * s.resendTicks } }))))

/-- The stages of bring-up (R130, R477 to R493): each begins with START in its turn, and ends with what it saw of the hardware: the first fault
of the power sweep, the flash slot that verifies, the fuses, the channels, cells, engines and mesh segments that are good, the ports, the
links and the join. The model's own choices in it: logs 45, 46, 59, 60, 61, 193 and 197. -/
def Obligations.StagesRun : Prop :=
  ∀ (s : State) (x : StageSeen),
    let due (n : Nat) : Prop := s.stageTurn n = true ∧ s.boot.phase = .started
    let ends (i : Instr) (u : State) : Prop := exec i s = .next (commit s u)
    (s.boot.phase = .pending →
        (s.stageTurn 0 = true → s.pw.thermalTrip = false → ends (.stage0PowerSweep x) (s.stageBegin 0))
        ∧ (s.stageTurn 1 = true → ends (.stage1RomBoot x) (s.stageBegin 1)) ∧ (s.stageTurn 2 = true → ends (.stage2Fuses x) (s.stageBegin 2))
        ∧ (s.stageTurn 3 = true → ends (.stage3Lpddr6Training x) (s.stageBegin 3))
        ∧ (s.stageTurn 5 = true → ends (.stage5Mesh x) (s.stageBegin 5)) ∧ (s.stageTurn 7 = true → ends (.stage7Links x) (s.stageBegin 7)))
    ∧ (due 0 → s.pw.thermalTrip = true → ends (.stage0PowerSweep x) (s.waitFor 0 1))
    ∧ (due 0 → s.pw.thermalTrip = false →
        (sweepFault x = none → ends (.stage0PowerSweep x) ((s.agentOut x.loopbackOk).stageEnd 0 1 0))
        ∧ (∀ v, sweepFault x = some v → (s.tow.agentOn = true ∨ (v ≠ 2 ∧ v ≠ 5 ∧ v ≠ 6)) →
            ends (.stage0PowerSweep x) ((s.agentOut x.loopbackOk).stageFailed 0 v))
        ∧ (∀ v, sweepFault x = some v → s.tow.agentOn = false → (v = 2 ∨ v = 5 ∨ v = 6) →
            (let u := (s.stageFailed 0 v).railsOff; ends (.stage0PowerSweep x) { u with rst := { u.rst with cold := true } })))
    ∧ (due 1 →
        (let a := s.fw.trial.getD s.fw.activeSlot
          let boot (b other : Bool) : State :=
            { s with boot := { s.boot with slot := b, otherSlot := other }, fw := { s.fw with running := b } };
        (s.slotFails x a = none → ends (.stage1RomBoot x) ((boot a false).stageEnd 1 1 a.toNat))
        ∧ (∀ k, s.slotFails x a = some k → s.slotFails x (!a) = none →
            ends (.stage1RomBoot x) ((boot (!a) true).stageEnd 1 2 ((!a).toNat + 2)))
        ∧ (∀ k l, s.slotFails x a = some k → s.slotFails x (!a) = some l → ends (.stage1RomBoot x) (s.stageFailed 1 k))))
    ∧ (∀ (b : Bool) i, i = (if b then s.fw.slot1 else s.fw.slot0) → s.slotFails x b = none →
        i.present = true ∧ hdrFormBad i.hdr = false ∧ imageSigned i.hdr = true ∧ s.fw.minSvn ≤ hdrField i.hdr 102 96)
    ∧ (due 2 → x.fuseCrcOk = true → ends (.stage2Fuses x) (State.stageEnd { s with
        ids := some (idKeysOf Config.uds)
        pw := { s.pw with trimNum := 1000, railTrim := List.replicate 6 1000, hist := [], lastStep := s.now } } 2 1 0))
    ∧ (due 3 →
        (let bad := (List.range 256).filter fun c => decide (s.channelMask x c ≠ 0)
          let live := (List.range 256).filter fun c => decide (s.channelMask x c = 0)
          let u := s.unitsBad 3 (bad.map fun c => c + s.channelMask x c * 2 ^ 8)
          let v : State := { u with
            maps := { u.maps with live := live, badChannels := bad, memDone := true }
            flash := { u.flash with trained := s.savedTraining x live } };
          ends (.stage3Lpddr6Training x)
            (State.stageEnd (if s.boot.warm ∧ live = s.maps.oldLive then { v with pages := v.rebuildPages } else v.zeroLpddr)
              3 (if 4 < bad.length then 3 else if bad.isEmpty then 1 else 2) (live.length + min 5 bad.length * 2 ^ 9))))
    ∧ (s.stageTurn 4 = true → s.boot.phase = .pending → ends (.stage4Cells x)
        (let u := s.stageBegin 4; { u with boot := { u.boot with waves := 0, waveAt := u.now, fastCells := u.fastForm } }))
    ∧ (∀ w : Fin 9, s.stageTurn 4 = true → s.boot.phase ≠ .pending → s.boot.waves = w.val → s.boot.waveAt + usTicks (200 * w.val) ≤ s.now →
        ends (.waveRelease w) { s with boot := { s.boot with waves := w.val + 1 } })
    ∧ (due 4 → s.boot.waves = 9 →
        (let failed (p : Nat) : Bool :=
          (s.cellMask p = 0 && x.cellBad.any fun y => y.val = p) || (s.boot.fastCells && s.flash.selftestBad.contains p)
          let mask (p : Nat) : Nat := s.cellMask p + (failed p).toNat * 8
          let good := (List.range 136).filter fun p => decide (mask p = 0)
          let bad := (List.range 136).filter fun p => decide (mask p ≠ 0)
          let spares := if good.length < 128 then 0 else good.length - 128
          let decode := (List.range 16).filter fun e =>
            Config.fuseBadDecode.contains e || s.flash.faultDecode.contains e || x.decodeBad.any fun y => y.val = e
          let ferry := Config.fuseFerryBad || x.ferryBad
          let u := s.unitsBad 4 (bad.map (fun p => p + mask p * 2 ^ 8) ++ decode.map (fun e => 0x1000 + e) ++ if ferry then [0x2000] else [])
          let v : State := { u with
            maps := { u.maps with
              cells := good.take 128, phys := physCells (good.take 128) bad, badCells := bad.map (fun p => (p, BitVec.ofNat 4 (mask p)))
              good := good.length, spares := spares, cellsDone := true }
            boot := { u.boot with decodeBad := decode, ferryBad := ferry, fastUsed := s.boot.fastCells, stage4Done := true }
            flash := if s.boot.fastCells then u.flash
              else { u.flash with selftestDigest := some s.runImage.digest, selftestBad := bad.filter failed } };
          ends (.stage4Cells x) (v.cellsFresh.stageEnd 4
            (if good.length < 128 ∨ ferry then 3 else if bad.isEmpty then 1 else 2) (good.length + spares * 2 ^ 8))))
    ∧ (due 5 → (let bad := sortBy id ((Config.fuseBadMesh ++ x.meshBad.map (·.toNat)).eraseDups)
        let u := s.unitsBad 5 bad;
        ends (.stage5Mesh x) (State.stageEnd { u with boot := { u.boot with meshBad := !bad.isEmpty } } 5 (if bad.isEmpty then 1 else 3) 0)))
    ∧ ((s.stageTurn 6 = true ∧ s.boot.phase ≠ .pending) → s.time.tickSet = true →
        (s.boot.warm = true ∨ (List.range 7).all s.portTried = true) →
        (let d := sumOf ((List.range 6).map fun q => if (s.port q).lanes < 8 then 2 ^ q else 0) + (!s.fab.pairUp).toNat * 2 ^ 6;
          ends (.stage6Ports x) ((s.waitFor 6 0).stageEnd 6 (if d = 0 then 1 else 2) d)))
    ∧ ((s.stageTurn 6 = true ∧ s.boot.phase ≠ .pending) → s.time.tickSet = false → ends (.stage6Ports x) (s.waitFor 6 0x8000))
    ∧ (due 7 → (x.dhcpOk = true ∨ s.boot.dhcpFlash = true ∨ (x.ethUp.1 = false ∧ x.ethUp.2 = false)) →
        (let u := if 4 ≤ x.hawserLanes ∧ s.hst.up = false then s.trained (decide (x.hawserLanes = 8)) x.adapterPort else s
          let v : State := { u with
            ethUp := sset false (sset false u.ethUp 0 x.ethUp.1) 1 x.ethUp.2
            ethAddr := if s.boot.dhcpFlash then s.flash.addr else sset 0 (sset 0 u.ethAddr 0 x.dhcpAddr.1) 1 x.dhcpAddr.2
            hst := if u.hst.up then u.hst else { u.hst with retryAt := s.now } }
          let d := v.hst.up.toNat + x.ethUp.1.toNat * 2 + x.ethUp.2.toNat * 4 + s.boot.dhcpFlash.toNat * 8;
          ends (.stage7Links x) (v.stageEnd 7 (if d % 8 = 7 then 1 else 2) d)))
    ∧ (s.stageTurn 7 = true → s.boot.phase ≠ .pending → s.boot.startedAt + msTicks 3000 ≤ s.now →
        ends .dhcpTimeout { s with boot := { s.boot with dhcpFlash := true } })
    ∧ (due 8 → ends (.stage8Join x) (s.join.announce s))
    ∧ (s.stageTurn 9 = true → s.boot.phase = .pending → (let b := s.stageBegin 9
        let low := b.belowFloor
        let u := if low then b.alertOn 0x05 else b.alertOff 0x05;
        ends (.stage9InService x) ((State.stageReport { u with
          boot := { u.boot with ended := true, phase := .ended }, tt := { u.tt with hgOpen := !low } } 9 (if low then 3 else 1) 0).announce s)))
    ∧ (∀ n, n < 6 → s.boot.stage = n → due n → s.boot.startedAt + msTicks (stageLimit n) ≤ s.now →
        ends .stageLimitExpiry ((if n = 0 then s.agentOut true else s).stageFailed n 0xFFFF))

/-! ### The service console and JTAG (R510, R511, R559 to R567) -/

/-- The service console answers while aux is present: what it shows, what it refuses and with which code, what it does; and JTAG
reads out a frozen module and opens run control (R510, R511, R559, R560, R561, R565, R566, R567). The model's own choices in it: logs
65, 66, 67, 68, 173 and 197. -/
def Obligations.ConsoleCommandsAnswer : Prop :=
  ∀ (s : State), s.rail .aux = .good →
    let shows (i : Instr) (lines : List String) : Prop := exec i s = .next (commit s (s.replyWith lines "OK"))
    let refuses (i : Instr) (code : Nat) : Prop := exec i s = .next (commit s (s.replyErr code))
    let test (i : Bool → Instr) (allowed : Bool) (u : State) (v : State) : Prop :=
      (s.confMode = true → ∀ p, refuses (i p) 3)
      ∧ (s.confMode = false → (s.frz.frozen = true ∨ s.rst.cold = true ∨ s.rst.warm = true ∨ allowed = false) → ∀ p, refuses (i p) 4)
      ∧ (s.confMode = false → s.frz.frozen = false → s.rst.cold = false → s.rst.warm = false → allowed = true →
          exec (i true) s = .next (commit s (u.replyWith ["pass"] "OK"))
          ∧ exec (i false) s = .next (commit s (State.replyWith { v with selftestFailed := true } ["fail"] "OK")))
    (shows .consoleHelp helpLines ∧ shows .consoleVer s.verLines ∧ shows .consoleStage [stageLine s.boot.report.toNat]
      ∧ shows .consoleStageLog s.stageLogLines ∧ shows .consoleState s.stateLines ∧ shows .consoleTemp s.tempLines
      ∧ shows .consoleVolt s.voltLines ∧ shows .consoleProc s.procLines ∧ shows .consolePower s.powerLines
      ∧ shows .consoleRails s.railLines ∧ shows .consolePorts s.portLines ∧ shows .consoleFab (fabOffsets.map s.regLine)
      ∧ shows .consoleMem (memOffsets.map s.regLine) ∧ shows .consoleEng (engOffsets.map s.regLine) ∧ shows .consoleCells s.cellLines)
    ∧ (∀ p : Fin 136,
        (let u := match s.logicalOf p with
          | some c => s.scramble ((List.range 0x200000).map fun a => cellAddr c a)
          | none => s;
        test (.consoleSelftestCell p) (s.cellTestable p) u
          { u with flash := { u.flash with faultCells := addNew u.flash.faultCells p } }))
    ∧ (∀ e : Fin 16, test (.consoleSelftestDecode e) (s.streams.all fun x => decide (x.engine ≠ e.val)) s
        { s with flash := { s.flash with faultDecode := addNew s.flash.faultDecode e } })
    ∧ (∀ c : Fin 256,
        (let u := if s.maps.live.contains c.val
          then s.scramble ((List.range s.capacity).filter fun a => decide (channelOf s.maps.live a = c.val)) else s;
        test (.consoleSelftestMem c) (s.noContexts || !s.maps.live.contains c.val) u
          { u with flash := { u.flash with faultChannels := addNew u.flash.faultChannels c } }))
    ∧ (∀ (a : BitVec 48) n,
        (s.confMode = true → regionOf a.toNat ≠ .regs → refuses (.consoleDump a n) 3)
        ∧ (s.confMode = false → s.frz.frozen = true → refuses (.consoleDump a n) 4)
        ∧ (∀ t bs, (s.confMode = false ∨ regionOf a.toNat = .regs) → s.frz.frozen = false → s.rst.cold = false →
            s.dumpBytes a.toNat n = some (t, bs) →
            exec (.consoleDump a n) s = .next (commit s (t.replyWith ((chunks 32 bs).map hexMarked) "OK")))
        ∧ ((s.confMode = false ∨ regionOf a.toNat = .regs) → s.frz.frozen = false → s.rst.cold = false → s.dumpBytes a.toNat n = none →
            refuses (.consoleDump a n) 2))
    ∧ (refuses (.consoleOosClear false) 5 ∧ refuses (.consoleResetWarm false) 5 ∧ refuses (.consoleResetCold false) 5
      ∧ refuses (.consoleFreeze false) 5)
    ∧ (s.frz.frozen = true → refuses (.consoleOosClear true) 4 ∧ refuses (.consoleResetWarm true) 4)
    ∧ (s.frz.frozen = false → exec (.consoleOosClear true) s = .next (commit s (s.clearLatch.replyWith [] "OK")))
    ∧ (s.frz.frozen = false → s.rst.cold = false → exec (.consoleResetWarm true) s = .next (commit s
        ((s.requestReset .compute 0x06 [] true false).replyWith [] "OK")))
    ∧ (s.rst.cold = false → exec (.consoleResetCold true) s = .next (commit s ((s.startCold false false).replyWith [] "OK")))
    ∧ exec (.consoleFreeze true) s = .next (commit s ((s.freezeNow 0x03).replyWith [] "OK"))
    ∧ exec .consoleLedTest s = .next (commit s (State.replyWith { s with ledTestEnd := s.now + 4 * msTicks 1000 } [] "OK"))
    ∧ (s.frz.frozen = false → refuses .consoleReadout 4)
    ∧ (s.frz.frozen = true → shows .consoleReadout
        ((chunks 32 s.readout.flatten).map readoutLine ++ s.lostLines ++ ["END " ++ toString s.readout.flatten.length]))
    ∧ (s.frz.frozen = true → s.frz.conf = true → exec .jtagReadout s = .next (commit s { s with jtag := s.readout.flatten }))
    ∧ (s.frz.frozen = true → s.frz.conf = false → s.frz.computeLost = false →
        exec .jtagReadout s = .next (commit s { s with jtag := s.readout.flatten ++ s.section7 }))
    ∧ (s.confMode = false → s.debugLocked = false → s.frz.frozen = false → exec .jtagDebug s = .next (commit s { s with debugOpen := true }))
    ∧ (s.frz.frozen = true → s.frz.computeLost = true → exec .jtagReadout s = .next (commit s { s with jtag := s.readout.flatten }))
    ∧ (s.confMode = true → exec .jtagDebug s = .next s)

/-! ### The queue, the step and reset -/

/-- A step with a command in front of the queue runs that command with the rest of the queue waiting. -/
def Obligations.FrontCommandRuns : Prop :=
  ∀ (c : Instr) (rest : List Instr) (s : State), step { s with pending := c :: rest } = exec c { s with pending := rest }

/-- A step with no command waiting is one tick (the model's choice, log 2): in a frozen or cold module time alone goes on, and the tick
count stands; else the tick count follows elapsed time once it is set (R297, R299). -/
def Obligations.EmptyQueueTicks : Prop :=
  ∀ (s : State), s.pending = [] →
    ((s.frz.frozen = true ∨ s.rst.cold = true) → step s = .next { s with
        time := { s.time with clock := s.time.clock + 1, live := s.time.live + 1 } })
    ∧ (s.frz.frozen = false → s.rst.cold = false → step s = .next (commit s
        ((((((s.timePasses).computeGoesOn).pumpHeld).pumpInject).pumpReds).slotStarts).stateReport))
    ∧ (s.time.tickSet = false → s.timePasses.time.tick = s.time.tick)
    ∧ (s.time.tickSet = true → s.time.hold = 0 → s.timePasses.time.tick = (s.time.tick + 1) % 2 ^ 64)

/-- Every well-formed command answers a next state in every state: none is refused, and none faults. The model's own choices in it: logs 1
and 148. -/
def Obligations.WellFormedCommandsRun : Prop :=
  ∀ (c : Instr) (s : State), c.wf = true → ∃ t, exec c s = .next t

/-- No command puts anything into the queue or takes anything from it. -/
def Obligations.CommandsKeepTheQueue : Prop :=
  ∀ (c : Instr) (s t : State), exec c s = .next t → t.pending = s.pending

/-- The machine right after reset (R298, R359, R412, R461, R477, R547, R548): every set-up register reads as its reset word and the lock is
clear, no set-up error is recorded, memory holds zero, only context 0 exists, no ring is open, the agent holds no plan and no lease, the
relays are closed, bring-up stands before stage 0, and no command waits. Set-up and memory hold their canonical form. The model's own
choices in it: logs 5, 6, 9 and 70. -/
def Obligations.ResetState : Prop :=
  (∀ off, State.reset.word off = resetWord off) ∧ State.reset.locked = false ∧ State.reset.setupErr = {} ∧ State.reset.pending = []
    ∧ (∀ a, sget 0 State.reset.mem a = 0) ∧ (∀ c, (State.reset.ctx c).live = decide (c = 0))
    ∧ (∀ n, (State.reset.sq n).isOpen = false ∧ (State.reset.cq n).isOpen = false) ∧ State.reset.flash.plan = none
    ∧ State.reset.leaseLive = false ∧ State.reset.tow.culvertOpen = false ∧ State.reset.boot.stage = 0 ∧ State.reset.boot.phase = .pending
    ∧ State.reset.frz.frozen = false ∧ setupCanonical 0 State.reset.setup = true ∧ State.reset.mem.wf = true

/-! ### Set-up (R541 to R548) -/

/-- Every step keeps set-up in its canonical form: the offsets rise, and no word equal to its reset word is listed. -/
def Obligations.SetupStaysCanonical : Prop :=
  ∀ (s t : State), setupCanonical 0 s.setup = true → step s = .next t → setupCanonical 0 t.setup = true

/-- Once the lock is set, no command and no tick changes a set-up register until the next cold reset, which brings every register back to its
reset word and clears the lock (R544, R547); a REG_WR to an RWL register is recorded with code 0x05; the words of ETH_Q_n, RST_CMD and
GEN_SETUP_ERR.valid are written under the lock as before it. -/
def Obligations.LockEndsSetup : Prop :=
  (∀ (s t : State), s.locked = true → step s = .next t → t.rst.colds = s.rst.colds → (∀ off, t.word off = s.word off) ∧ t.locked = true)
    ∧ (∀ (s t : State), step s = .next t → t.rst.colds ≠ s.rst.colds → (∀ off, t.word off = resetWord off) ∧ t.locked = false)
    ∧ (∀ (s : State) (off v : BitVec 32) m, s.locked = true → s.hostReach = true → rwlMask off.toNat = some m →
        ∃ t, exec (.regWr off (.write v)) s = .next t ∧ s.refusedWrite t off.toNat 0x05)
    ∧ (∀ (s : State) (q : Fin 32) (w : Fin 8) (v : BitVec 32), s.hostReach = true → w ≠ 0 → s.ethEnabled q.val = false →
        ∃ t, exec (.ethQWordWrite q w v) s = .next t ∧ t.ethq = sset 0 s.ethq (8 * q.val + w.val) (v &&& ethMask w.val))
    ∧ (∀ (s : State) (q : Fin 32) (v : BitVec 32), s.hostReach = true →
        (bitAt v 0 = false ∨ (fieldNat v 7 2 ≠ 0 ∧ (s.ctx (fieldNat v 7 2)).live = true ∧ s.ctxSlot (fieldNat v 7 2) = 0)) →
        ∃ t, exec (.ethQEnable q v) s = .next t ∧ t.ethq = sset 0 s.ethq (8 * q.val) (v &&& 0x00FFFFFF))
    ∧ (∀ (s : State) (v : BitVec 32), s.hostReach = true → exec (.regWr 0x900020 (.write v)) s = .next (commit s (s.rstCmd v)))
    ∧ (∀ (s : State) (v : BitVec 32), s.hostReach = true → bitAt v 31 = true →
        ∃ t, exec (.genSetupErrClear v) s = .next t ∧ t.setupErr = { count := s.setupErr.count })

/-! ### Memory and register files (R12, R60, R61) -/

/-- Memory: bytes written read back, every other byte is as it was, and the canonical form stays, in which memories that read the same
are the same list. -/
def Obligations.MemoryWritesHold : Prop :=
  (∀ (m : Memory) (a : Nat) (bs : List Byte), m.wf = true →
    memGet (memPut m a bs) a bs.length = bs ∧ (∀ o, o < a ∨ a + bs.length ≤ o → sget 0 (memPut m a bs) o = sget 0 m o)
      ∧ (memPut m a bs).wf = true)
    ∧ ∀ (m n : Memory), m.wf = true → n.wf = true → (∀ a, sget 0 m a = sget 0 n a) → m = n

/-- A write of a register of a thread writes that register alone: A0 takes no write (R53), and every other register, thread and cell, memory
and set-up are as they were. A slot that has taken effect leaves the rest of its bundle to its other slots, and the last one takes the thread
to the next bundle; nothing else changes. -/
def Obligations.RegisterWritesHold : Prop :=
  ∀ (s : State) (c : Nat) (t : Thread) (i : Nat),
    (swf {} s.cells = true → swf 0 (s.th c t).a = true → swf 0 (s.th c t).v = true → swf 0 (s.th c t).p = true →
      (∀ x, i ≠ 0 → sget 0 ((s.putA c t i x).th c t).a i = x) ∧ (∀ x, sget 0 ((s.putV c t i x).th c t).v i = x)
        ∧ (∀ x, sget 0 ((s.putP c t i x).th c t).p i = x)
        ∧ (∀ x k, k ≠ i → sget 0 ((s.putA c t i x).th c t).a k = sget 0 (s.th c t).a k)
        ∧ (∀ x k, k ≠ i → sget 0 ((s.putV c t i x).th c t).v k = sget 0 (s.th c t).v k)
        ∧ (∀ x k, k ≠ i → sget 0 ((s.putP c t i x).th c t).p k = sget 0 (s.th c t).p k))
    ∧ (∀ x, s.putA c t 0 x = s)
    ∧ (∀ u, ((∃ x, u = s.putA c t i x) ∨ (∃ x, u = s.putV c t i x) ∨ (∃ x, u = s.putP c t i x)) →
        (∀ o, o ≠ c → u.cell o = s.cell o) ∧ u = { s with cells := u.cells })
    ∧ (∀ (k : Slot) j, swf {} s.cells = true → (s.th c t).issue = some j →
        (let left := j.left &&& ~~~(1#5 <<< k.idx)
          let w := s.slotDone c t k
          let base := (s.th c t).base
          (left ≠ 0 → w.th c t = { s.th c t with issue := some { j with left := left } })
          ∧ (left = 0 → j.fault = none → base ≤ j.next → j.next < base + (s.th c t).count → sget 0 (s.cell c).imem j.next ≠ 0 →
              w.th c t = { s.th c t with issue := none, released := false, pc := j.next })
          ∧ (left ≠ 0 ∨ (j.fault = none ∧ base ≤ j.next ∧ j.next < base + (s.th c t).count ∧ sget 0 (s.cell c).imem j.next ≠ 0) →
              w = { s with cells := w.cells } ∧ ∀ o, o ≠ c → w.cell o = s.cell o)))

/-! ### Exact-window arithmetic (R33 to R47) -/

/-- A finite product (-1)^neg m 2^e enters the window as q = trunc(p / 2^wl), exactly modulo 2^120; R is set where |q| is 2^95 or more, and
then O of the sum is set; T is set where bits were cut; the other flags stay (R36, R37). -/
def Obligations.ProductsEnterTheWindow : Prop :=
  ∀ (a : Acc) (wl : Int) (neg : Bool) (m : Nat) (e : Int),
    let sign : ℤ := if neg then -1 else 1
    let q : ℤ := sign * ⌊(m : ℚ) * (2 : ℚ) ^ (e - wl)⌋
    let b := a.addProduct wl (.fin neg m e)
    b.s = a.s + BitVec.ofInt 120 q ∧ (b.r = true ↔ a.r = true ∨ 2 ^ 95 ≤ |q|) ∧ (2 ^ 95 ≤ |q| → b.o = true)
      ∧ (b.t = true ↔ a.t = true ∨ (q : ℚ) * (2 : ℚ) ^ wl ≠ sign * m * (2 : ℚ) ^ e) ∧ b.n = a.n ∧ b.p = a.p ∧ b.m = a.m

/-- Special inputs set flags and add nothing (R42): the first matching row; two finite factors add q of their product, with R, O and T as
for any product. Elements of E3M2, E2M3, E2M1, MXINT8, INT8 and INT4 are finite. -/
def Obligations.SpecialInputsSetFlags : Prop :=
  (∀ (acc : Acc) (wl : Int) (a b : Val) (ea eb : Nat),
    let c := acc.addProduct wl (mxProduct a b ea eb)
    ((a = .nan ∨ b = .nan ∨ ea = 255 ∨ eb = 255) → c = { acc with n := true })
    ∧ (ea ≠ 255 → eb ≠ 255 →
        (∀ x y e, (a = .inf x ∧ b = .fin y 0 e ∨ a = .fin y 0 e ∧ b = .inf x) → c = { acc with n := true })
        ∧ (∀ x y n e, 0 < n → (a = .inf x ∧ b = .fin y n e ∨ a = .fin y n e ∧ b = .inf x) →
            c = if x = y then { acc with p := true } else { acc with m := true })
        ∧ (∀ x y, a = .inf x → b = .inf y → c = if x = y then { acc with p := true } else { acc with m := true })
        ∧ (∀ x m e y n d, a = .fin x m e → b = .fin y n d →
            c = acc.addProduct wl (.fin (x != y) (m * n) (e + d + ea + eb - 254)) ∧ c.n = acc.n ∧ c.p = acc.p ∧ c.m = acc.m
            ∧ c.s = acc.s + BitVec.ofInt 120
                ((if x = y then 1 else -1) * ⌊((m * n : Nat) : ℚ) * (2 : ℚ) ^ (e + d + ea + eb - 254 - wl : Int)⌋))))
    ∧ ∀ code x, (code = 2 ∨ code = 3 ∨ code = 4 ∨ code = 5 ∨ code = 6 ∨ code = 7) → ∃ neg m e, elemVal code x = .fin neg m e

/-- A record holds an accumulator: S in bits 119 to 0, N, P, M, R, O and T above it, and 0 in the two reserved bits; read into an empty
accumulator it gives the accumulator again, whatever stands in its o bit and its reserved bits (R39, R40). -/
def Obligations.RecordsHoldAccumulators : Prop :=
  ∀ (a : Acc), slice a.record 0 120 = a.s ∧ bitAt a.record 120 = a.n ∧ bitAt a.record 121 = a.p ∧ bitAt a.record 122 = a.m
    ∧ bitAt a.record 123 = a.r ∧ bitAt a.record 124 = a.o ∧ bitAt a.record 125 = a.t ∧ bitAt a.record 126 = false ∧ bitAt a.record 127 = false
    ∧ ∀ x : BitVec 128, (∀ i, i < 126 → i ≠ 124 → bitAt x i = bitAt a.record i) → Acc.addRecord {} x = a

/-- A sum is the same bit for bit whatever the order of its products and records, and however it is split into partial sums that are
added as records (R37, R40, R47). -/
def Obligations.WindowSumOrderFree : Prop :=
  (∀ (wl : Int) (a : Acc) (ps qs : List Val), ps.Perm qs → ps.foldl (fun (a : Acc) p => a.addProduct wl p) a = qs.foldl (fun (a : Acc) p => a.addProduct wl p) a)
    ∧ (∀ (a : Acc) (xs ys : List (BitVec 128)), xs.Perm ys → xs.foldl Acc.addRecord a = ys.foldl Acc.addRecord a)
    ∧ (∀ (wl : Int) (a : Acc) (p : Val) (x : BitVec 128), (a.addProduct wl p).addRecord x = (a.addRecord x).addProduct wl p)
    ∧ (∀ (wl : Int) (a : Acc) (ps qs : List Val),
        (ps ++ qs).foldl (fun (a : Acc) p => a.addProduct wl p) a
          = (ps.foldl (fun (a : Acc) p => a.addProduct wl p) a).addRecord (qs.foldl (fun (a : Acc) p => a.addProduct wl p) {}).record)
end

