-- ==== Sys2Proof/Laws/Rows.lean ====
section
/-! SUPPORT. What each shape of command does, said once: the outcome of act, a descriptor that starts, a slot that takes effect, a wait
operation, a mailbox request. -/

namespace Sys2Proof.Machine

@[simp] theorem act_eq (f : State → State) (s : State) : act f s = .next (commit s (f s)) := rfl

theorem actIf_eq {ok : Bool} (h : ok = true) (f : State → State) (s : State) : actIf ok f s = .next (commit s (f s)) := by
  simp [actIf, h]

@[simp] theorem written_eq (s t : State) : written s t = .next { t with pending := s.pending } := rfl

/-! ### What commit leaves -/

@[simp] theorem commit_pending (s t : State) : (commit s t).pending = s.pending := by
  unfold commit; split <;> rfl

@[simp] theorem commit_rst (s t : State) : (commit s t).rst = t.rst := by
  unfold commit; split <;> rfl

theorem commit_setup_of_eq {s t : State} (h : t.rst.colds = s.rst.colds) : (commit s t).setup = s.setup := by
  simp [commit, h]

theorem commit_setupErr_of_eq {s t : State} (h : t.rst.colds = s.rst.colds) : (commit s t).setupErr = s.setupErr := by
  simp [commit, h]

/-- Set-up is as it was, or as a cold reset leaves it (R544, R547). -/
theorem commit_setup (s t : State) : (commit s t).setup = s.setup ∨ (commit s t).setup = [] := by
  unfold commit; split
  · exact .inl rfl
  · exact .inr rfl

/-! ### A descriptor starts (R252, R255) -/

/-- A ring whose oldest descriptor passes its checks has nothing to complete first. -/
theorem settleRing_of_headStarts {s : State} {sq slot : Nat} {d : Line} {rest : List Fetched} (h : s.headStarts sq slot d rest) :
    ∀ n, s.settleRing n sq = s := by
  intro n
  obtain ⟨h1, h2, -, h4, h5⟩ := h
  cases n with
  | zero => rfl
  | succ n => simp [State.settleRing, h1, h2, h4, h5]

/-- The descriptor at the head of the ring has its effect. -/
theorem startRow_of_headStarts {s : State} {sq slot : Nat} {d : Line} {rest : List Fetched} (h : s.headStarts sq slot d rest)
    {op : Nat} {p : Line → Bool} (hop : fieldNat d 7 0 = op) (hp : p d = true) (f : State → Nat → Line → State) :
    s.startRow sq op p f = (f (s.taken sq rest) slot d).followed sq := by
  have hs := settleRing_of_headStarts h
  obtain ⟨h1, h2, h3, h4, h5⟩ := h
  simp [State.startRow, hs, h1, h2, h4, hop, hp, State.followed, State.taken, Nat.not_le.mpr h3]

/-! ### A slot takes effect (R88 to R91) -/

theorem slotRow_of_slotTurn {s u : State} {c : Nat} {t : Thread} {k : Slot} {op : Nat} {i : Issue} {x : Nat}
    (h : s.slotTurn c t k op u i x) (f : State → Issue → Nat → State) :
    s.slotRow c t k op f = (f u i x).slotDone c t k := by
  obtain ⟨h1, h2, h3, h4, h5, rfl⟩ := h
  have : (!((s.ready c t).th c t).running && ((s.ready c t).th c t).issue.isNone) = false := by
    rcases h1 with h1 | h1
    · simp [h1]
    · cases hi : ((s.ready c t).th c t).issue <;> simp_all
  simp only [State.slotRow, this, h2, h3, h4, h5]
  simp

theorem waitRow_of_waitTurn {s u : State} {c : Nat} {t : Thread} {op x : Nat} (h : s.waitTurn c t op u x)
    (w : State → ThreadSt → Nat → State) : s.waitRow c t op w = w u (u.th c t) x := by
  obtain ⟨h1, h2, h3, h4, rfl, rfl⟩ := h
  simp [State.waitRow, h1, h2, h3, h4]

/-! ### A mailbox request is served (R270, R272) -/

theorem request_of_asks {s u : State} {n type : Nat} (h : s.asks n type u) (f : State → Nat → Nat → State) :
    s.request n type f = f u (s.asked n) (s.askSeq n) := by
  obtain ⟨h1, h2, h3, h4, h5, h6, rfl⟩ := h
  have : (s.mbox .h n).full ∧ fieldNat (sget 0 (s.mbox .h n).words 0) 7 0 = type ∧ !s.frz.frozen ∧ !s.rst.cold ∧ !s.rst.warm
      ∧ !s.hst.paused := ⟨h1, h2, by simp [h3], by simp [h4], by simp [h5], by simp [h6]⟩
  simp only [State.request, if_pos this]
  rfl

/-! ### Sequenced and operator commands (R387, R400) -/

theorem runCmd_of_inTurn {s : State} {env : BitVec 256} {sender : End} {i : Instr} (h : s.inTurn env) (hi : cmdEnv i = some (env, sender)) :
    s.runCmd env i = State.obeyed env sender (s.agentDo i) := by
  obtain ⟨h1, h2, h3, h4, h5⟩ := h
  have hh : s.handle i = State.answerCmd { (s.agentDo i).1 with agent := { (s.agentDo i).1.agent with
      kept := ((s.agentDo i).1.agent.kept ++ [(eSeq env, eCrc env, BitVec.ofNat 8 (s.agentDo i).2.1, eRole env)]).drop
        ((s.agentDo i).1.agent.kept.length - 255)
      nextSeq := eSeq env + 1 } } env sender (s.agentDo i).2.1 (s.agentDo i).2.2 := by
    simp only [State.handle, hi, h3, h4, h5]
    simp
  rw [State.runCmd, if_neg (by simp [h1, h2]), hh]
  rfl

theorem opRow_of_operates {s : State} {code : Nat} {h : BitVec 256} {b p : List Byte} (g : s.operates code h b p) (sig : BitVec 512) :
    s.opRow code h b sig = if signedBy p h b sig then (s.opExec h b).operated h b else s.opSay h opDenied 0x01 0 := by
  obtain ⟨h1, h0, h2, h3, h4, h5, h6, h7, h8, h9, -⟩ := g
  simp only [State.opRow, h1, h0, h2, h3, h4, h5, h6, h7]
  have e1 : ¬ ohSeq h < sget 0 s.wm.sh.keySeq (ohKey h) := by omega
  have e2 : ¬ ohSeq h = sget 0 s.wm.sh.keySeq (ohKey h) := by omega
  simp [h8, e1, e2, State.wmTake, h6, State.operated, State.wmApply]
  cases signedBy p h b sig <;> simp

/-! ### A reduction without an entry (R328) -/

theorem reductionNoEntry_waited {s : State} {port : Fin 7} {vc : Fin 6} {b : Buffered} {rest : List Buffered}
    (h1 : (if s.agentUp then s.redHead port vc else none) = some (b, rest))
    (h2 : ¬((s.redFind b.pkt.hdr).isSome ∨ s.redFree.isSome ∨ s.now < b.at_ + usTicks 1)) :
    execReductionNoEntryTimeout port vc s = .next (commit s
      (match s.redOut port { b.pkt with hdr := putField b.pkt.hdr 40 8 (hTtl b.pkt.hdr - 1) } with
        | some s1 => ((s1.setVc port vc rest).ticketLeft b.tkt).afterRoute port vc
        | none => s)) := by
  rw [reductionNoEntry_eq, h1]
  show Host.Outcome.next (commit s (if _ then _ else _)) = _
  rw [if_neg h2]
where
  /-- The row as it stands. -/
  reductionNoEntry_eq : execReductionNoEntryTimeout port vc s = .next (commit s
      (match (if s.agentUp then s.redHead port vc else none) with
      | none => s
      | some (b, rest) =>
        if (s.redFind b.pkt.hdr).isSome ∨ s.redFree.isSome ∨ s.now < b.at_ + usTicks 1 then s
        else
          match s.redOut port { b.pkt with hdr := putField b.pkt.hdr 40 8 (hTtl b.pkt.hdr - 1) } with
          | some s1 => ((s1.setVc port vc rest).ticketLeft b.tkt).afterRoute port vc
          | none => s)) := rfl

end Sys2Proof.Machine
end

