-- ==== Sys2Proof/Laws/Sparse.lean ====
section
/-! SUPPORT. Sparse tables, set-up words and memory: read after write, the frame of a write, and the canonical form. -/

namespace Sys2Proof.Machine

/-! ### Sparse tables -/

@[simp] theorem sget_nil {α : Type} (d : α) (k : Nat) : sget d [] k = d := rfl

@[simp] theorem supd_eq {α : Type} [DecidableEq α] (d : α) (m : List (Nat × α)) (k : Nat) (f : α → α) :
    supd d m k f = sset d m k (f (sget d m k)) := rfl

/-- A key below every key of a canonical table reads as the default. -/
theorem sget_of_lt {α : Type} [DecidableEq α] (d : α) : ∀ (m : List (Nat × α)) (lo k : Nat), swfFrom d lo m = true → k < lo →
    sget d m k = d
  | [], _, _, _, _ => rfl
  | (a, v) :: r, lo, k, h, hk => by
    simp only [swfFrom, Bool.and_eq_true, decide_eq_true_eq] at h
    have ha : a ≠ k := by omega
    simp only [sget, if_neg ha]
    exact sget_of_lt d r (a + 1) k h.2 (by omega)

/-- Read after write. -/
theorem sget_sset_same {α : Type} [DecidableEq α] (d : α) : ∀ (m : List (Nat × α)) (lo k : Nat) (v : α), swfFrom d lo m = true →
    sget d (sset d m k v) k = v
  | [], _, k, v, _ => by
    simp only [sset]; split
    · next h => simp [h]
    · simp [sget]
  | (a, w) :: r, lo, k, v, h => by
    simp only [swfFrom, Bool.and_eq_true, decide_eq_true_eq] at h
    simp only [sset]
    split
    · next hk =>
      have ha : a ≠ k := by omega
      split
      · next hv => simp only [sget, if_neg ha]; rw [hv]; exact sget_of_lt d r (a + 1) k h.2 (by omega)
      · simp [sget]
    · split
      · next hk =>
        subst hk
        split
        · next hv => rw [hv]; exact sget_of_lt d r (k + 1) k h.2 (by omega)
        · simp [sget]
      · next h1 h2 =>
        have ha : a ≠ k := fun e => h2 e.symm
        simp only [sget, if_neg ha]
        exact sget_sset_same d r (a + 1) k v h.2

/-- A write leaves every other key alone. -/
theorem sget_sset_ne {α : Type} [DecidableEq α] (d : α) (k o : Nat) (v : α) (ho : o ≠ k) : ∀ (m : List (Nat × α)),
    sget d (sset d m k v) o = sget d m o
  | [] => by simp only [sset]; split <;> simp [sget, Ne.symm ho]
  | (a, w) :: r => by
    simp only [sset]
    split
    · split
      · rfl
      · simp [sget, Ne.symm ho]
    · split
      · next hk =>
        subst hk
        split <;> simp [sget, Ne.symm ho]
      · simp only [sget, sget_sset_ne d k o v ho r]

/-- A lower bound on the keys may be lowered. -/
theorem swfFrom_mono {α : Type} [DecidableEq α] (d : α) : ∀ (m : List (Nat × α)) (lo lo' : Nat), swfFrom d lo m = true → lo' ≤ lo →
    swfFrom d lo' m = true
  | [], _, _, _, _ => rfl
  | (a, w) :: r, lo, lo', h, hl => by
    simp only [swfFrom, Bool.and_eq_true, decide_eq_true_eq] at h ⊢
    exact ⟨⟨by omega, h.1.2⟩, h.2⟩

/-- A write keeps the canonical form. -/
theorem swfFrom_sset {α : Type} [DecidableEq α] (d : α) : ∀ (m : List (Nat × α)) (lo k : Nat) (v : α), swfFrom d lo m = true → lo ≤ k →
    swfFrom d lo (sset d m k v) = true
  | [], lo, k, v, _, hk => by
    simp only [sset]; split
    · rfl
    · next hv => simp [swfFrom, hk, hv]
  | (a, w) :: r, lo, k, v, h, hk => by
    have h0 := h
    simp only [swfFrom, Bool.and_eq_true, decide_eq_true_eq] at h
    simp only [sset]
    split
    · split
      · exact h0
      · next h1 hv => simp [swfFrom, hk, hv, h.1.2, h.2]; omega
    · split
      · next h1 h2 =>
        subst h2
        split
        · exact swfFrom_mono d r (k + 1) lo h.2 (by omega)
        · next hv => simp [swfFrom, hk, hv, h.2]
      · next h1 h2 => simp [swfFrom, h.1, swfFrom_sset d r (a + 1) k v h.2 (by omega)]

/-- Clearing a run of keys keeps the canonical form. -/
theorem swfFrom_sclear {α : Type} [DecidableEq α] (d : α) (lo hi : Nat) : ∀ (m : List (Nat × α)) (b : Nat), swfFrom d b m = true →
    swfFrom d b (sclear m lo hi) = true
  | [], _, _ => rfl
  | (a, w) :: r, b, h => by
    simp only [swfFrom, Bool.and_eq_true, decide_eq_true_eq] at h
    have ih := swfFrom_sclear d lo hi r (a + 1) h.2
    simp only [sclear] at ih ⊢
    rw [List.filter_cons]
    split
    · simp [swfFrom, h.1, ih]
    · exact swfFrom_mono d _ (a + 1) b ih (by omega)

/-- A run of writes keeps the canonical form. -/
theorem swfFrom_ssetRun {α : Type} [DecidableEq α] (d : α) : ∀ (vs : List α) (m : List (Nat × α)) (lo k : Nat), swfFrom d lo m = true →
    lo ≤ k → swfFrom d lo (ssetRun d m k vs) = true
  | [], _, _, _, h, _ => h
  | v :: vs, m, lo, k, h, hk => swfFrom_ssetRun d vs _ lo (k + 1) (swfFrom_sset d m lo k v h hk) (by omega)

/-- A run of writes leaves every key outside the run alone. -/
theorem sget_ssetRun_out {α : Type} [DecidableEq α] (d : α) : ∀ (vs : List α) (m : List (Nat × α)) (k o : Nat),
    (o < k ∨ k + vs.length ≤ o) → sget d (ssetRun d m k vs) o = sget d m o
  | [], _, _, _, _ => rfl
  | v :: vs, m, k, o, h => by
    simp only [List.length_cons] at h
    simp only [ssetRun]
    rw [sget_ssetRun_out d vs _ (k + 1) o (by omega), sget_sset_ne d k o v (by omega)]

/-! ### Memory (R12, R84) -/

/-- Every memory write keeps the canonical form. -/
theorem memPut_wf (m : Memory) (a : Nat) (bs : List Byte) (h : m.wf = true) : (memPut m a bs).wf = true :=
  swfFrom_ssetRun 0 bs m 0 a h (Nat.zero_le a)

/-- A cleared range keeps the canonical form. -/
theorem sclear_wf (m : Memory) (lo hi : Nat) (h : m.wf = true) : Memory.wf (sclear m lo hi) = true := swfFrom_sclear 0 lo hi m 0 h

/-- A write of bytes leaves every other byte alone. -/
theorem memPut_out (m : Memory) (a o : Nat) (bs : List Byte) (h : o < a ∨ a + bs.length ≤ o) :
    sget 0 (memPut m a bs) o = sget 0 m o := sget_ssetRun_out 0 bs m a o h

/-! ### Set-up words (R541, R546, R548) -/

theorem lfind_sset_ne (d : BitVec 32) (k o : Nat) (v : BitVec 32) (h : o ≠ k) : ∀ (m : List (Nat × BitVec 32)),
    lfind (sset d m k v) o = lfind m o
  | [] => by simp only [sset]; split <;> simp [lfind, Ne.symm h]
  | (a, w) :: r => by
    have ih := lfind_sset_ne d k o v h r
    simp only [sset]
    split
    · split
      · rfl
      · simp [lfind, List.find?, Ne.symm h]
    · split
      · next hk =>
        subst hk
        split <;> simp [lfind, List.find?, Ne.symm h]
      · simp only [lfind, List.find?] at ih ⊢
        by_cases ha : a = o
        · simp [ha]
        · simpa [ha] using ih

theorem lfind_of_lt : ∀ (m : List (Nat × BitVec 32)) (lo k : Nat), setupCanonical lo m = true → k < lo → lfind m k = none
  | [], _, _, _, _ => rfl
  | (a, w) :: r, lo, k, h, hk => by
    simp only [setupCanonical, Bool.and_eq_true, decide_eq_true_eq] at h
    have ha : a ≠ k := by omega
    have ih := lfind_of_lt r (a + 1) k h.2 (by omega)
    simp only [lfind] at ih ⊢
    simp only [List.find?, ha, decide_false]
    exact ih

/-- A set-up word reads as it was written. -/
theorem lfind_sset_same (off : Nat) (v : BitVec 32) : ∀ (m : List (Nat × BitVec 32)) (lo : Nat), setupCanonical lo m = true →
    (lfind (sset (resetWord off) m off v) off).getD (resetWord off) = v
  | [], _, _ => by
    simp only [sset]; split
    · next h => simp [lfind, h]
    · simp [lfind]
  | (a, w) :: r, lo, h => by
    simp only [setupCanonical, Bool.and_eq_true, decide_eq_true_eq] at h
    simp only [sset]
    split
    · next hk =>
      split
      · next hv =>
        have hn : lfind ((a, w) :: r) off = none := by
          have ha : a ≠ off := by omega
          have ih := lfind_of_lt r (a + 1) off h.2 (by omega)
          simp only [lfind] at ih ⊢
          simp only [List.find?, ha, decide_false]
          exact ih
        rw [hn, hv]; rfl
      · simp [lfind, List.find?]
    · split
      · next hk =>
        subst hk
        split
        · next hv => rw [lfind_of_lt r (off + 1) off h.2 (by omega), hv]; rfl
        · simp [lfind, List.find?]
      · next h1 h2 =>
        have ha : a ≠ off := fun e => h2 e.symm
        have ih := lfind_sset_same off v r (a + 1) h.2
        simp only [lfind] at ih ⊢
        simpa [List.find?, ha] using ih

/-- A set-up write keeps the canonical form. -/
theorem setupCanonical_sset (off : Nat) (v : BitVec 32) : ∀ (m : List (Nat × BitVec 32)) (lo : Nat), setupCanonical lo m = true → lo ≤ off →
    setupCanonical lo (sset (resetWord off) m off v) = true
  | [], lo, _, hk => by
    simp only [sset]; split
    · rfl
    · next hv => simp [setupCanonical, hk, hv]
  | (a, w) :: r, lo, h, hk => by
    have h0 := h
    simp only [setupCanonical, Bool.and_eq_true, decide_eq_true_eq] at h
    simp only [sset]
    split
    · split
      · exact h0
      · next h1 hv => simp [setupCanonical, hk, hv, h.1.2, h.2]; omega
    · split
      · next h1 h2 =>
        subst h2
        split
        · exact mono r (off + 1) lo h.2 (by omega)
        · next hv => simp [setupCanonical, hk, hv, h.2]
      · next h1 h2 => simp [setupCanonical, h.1, setupCanonical_sset off v r (a + 1) h.2 (by omega)]
where
  /-- A lower bound on the offsets may be lowered. -/
  mono : ∀ (m : List (Nat × BitVec 32)) (lo lo' : Nat), setupCanonical lo m = true → lo' ≤ lo → setupCanonical lo' m = true
    | [], _, _, _, _ => rfl
    | (a, w) :: r, lo, lo', h, hl => by
      simp only [setupCanonical, Bool.and_eq_true, decide_eq_true_eq] at h ⊢
      exact ⟨⟨by omega, h.1.2⟩, h.2⟩

/-- A stored word reads back, whatever stood there. -/
theorem putWord_word (s : State) (off : Nat) (v : BitVec 32) (h : setupCanonical 0 s.setup = true) : (s.putWord off v).word off = v :=
  lfind_sset_same off v s.setup 0 h

/-- A stored word leaves every other register alone. -/
theorem putWord_word_ne (s : State) (off o : Nat) (v : BitVec 32) (h : o ≠ off) : (s.putWord off v).word o = s.word o := by
  simp only [State.word, State.putWord]
  rw [lfind_sset_ne _ off o v h]

/-- A stored word keeps the canonical form. -/
theorem putWord_canonical (s : State) (off : Nat) (v : BitVec 32) (h : setupCanonical 0 s.setup = true) :
    setupCanonical 0 (s.putWord off v).setup = true := setupCanonical_sset off v s.setup 0 h (Nat.zero_le off)

end Sys2Proof.Machine
end

