-- ==== Sys2Proof/Laws/Frame.lean ====
section
/-! SUPPORT. What any command can do to set-up, the register file of a thread, stages and resets, and small facts about sums and codes. -/

namespace Sys2Proof.Machine

/-! ### The outcomes of a command -/

theorem actIf_shape (ok : Bool) (f : State → State) (s : State) :
    (∃ u, actIf ok f s = .next (commit s u)) ∨ actIf ok f s = .fault .illFormedCommand := by
  cases ok
  · exact .inr rfl
  · exact .inl ⟨_, rfl⟩
theorem exec_shape (c : Instr) (s : State) :
    (∃ u, exec c s = .next (commit s u)) ∨ (∃ off v, exec c s = written s (s.hostWrite off v)) ∨ exec c s = .fault .illFormedCommand := by
  have hi : ∀ ok f, (∃ u, actIf ok f s = .next (commit s u)) ∨ (∃ off v, actIf ok f s = written s (s.hostWrite off v))
      ∨ actIf ok f s = .fault .illFormedCommand := fun ok f => (actIf_shape ok f s).imp id .inr
  cases c <;> first
    | exact .inl ⟨_, rfl⟩
    | exact .inr (.inl ⟨_, _, rfl⟩)
    | exact hi _ _
    | skip
  case regWr off v =>
    cases v
    · exact .inr (.inl ⟨_, _, rfl⟩)
    · exact .inl ⟨_, rfl⟩
  case ethQWordWrite q w v =>
    by_cases h : w.val = 0
    · exact .inr (.inr (if_pos h))
    · exact .inr (.inl ⟨_, _, if_neg h⟩)

/-! ### Set-up (R541 to R548) -/

theorem hostWrite_setup (s : State) (off : Nat) (v : BitVec 32) :
    (s.hostWrite off v = s ∨ (s.hostWrite off v = commit s (s.rstCmd v))) ∨ 
      ((s.hostWrite off v).setup = (s.regWr off v).setup ∧ (s.hostWrite off v).rst = (s.regWr off v).rst) := by
  simp only [State.hostWrite]
  split
  · exact .inl (.inl rfl)
  · split
    · exact .inl (.inr rfl)
    · exact .inr ⟨rfl, rfl⟩
theorem regWr_setup (s : State) (off : Nat) (v : BitVec 32) : (s.regWr off v).rst = s.rst ∧
    ((s.regWr off v).setup = s.setup ∨ (s.locked = false ∧ ∃ w, (s.regWr off v).setup = sset (resetWord off) s.setup off w)) := by
  simp only [State.regWr, State.writeChecked, State.setupRefuse, State.putWord, State.clearSetupErr, State.ethEnable, State.ethWord]
  split
  · exact ⟨rfl, .inl rfl⟩
  split
  · split
    · exact ⟨rfl, .inl rfl⟩
    · next h =>
      split
      · exact ⟨rfl, .inl rfl⟩
      · exact ⟨rfl, .inr ⟨by simpa using h, _, rfl⟩⟩
  · repeat' split
    all_goals exact ⟨rfl, .inl rfl⟩

theorem exec_setup (c : Instr) (s t : State) (h : exec c s = .next t) :
    (t.rst.colds = s.rst.colds ∧ (t.setup = s.setup ∨ (s.locked = false ∧ ∃ off w, t.setup = sset (resetWord off) s.setup off w)))
     ∨ (t.rst.colds ≠ s.rst.colds ∧ t.setup = []) := by
  have hc : ∀ u : State, (((commit s u).rst.colds = s.rst.colds ∧ (commit s u).setup = s.setup)
     ∨ ((commit s u).rst.colds ≠ s.rst.colds ∧ (commit s u).setup = [])) := by
    intro u; rw [commit]; split
    · next h => exact .inl ⟨h, rfl⟩
    · next h => exact .inr ⟨h, rfl⟩
  have hc' : ∀ u : State, ((commit s u).rst.colds = s.rst.colds ∧ ((commit s u).setup = s.setup ∨ (s.locked = false ∧ ∃ off w, (commit s u).setup = sset (resetWord off) s.setup off w)))
     ∨ ((commit s u).rst.colds ≠ s.rst.colds ∧ (commit s u).setup = []) := by
    intro u; rcases hc u with ⟨a, b⟩ | h
    · exact .inl ⟨a, .inl b⟩
    · exact .inr h
  rcases exec_shape c s with ⟨u, hu⟩ | ⟨o, v, hu⟩ | hu
  · rw [hu] at h; cases h; exact hc' u
  · rw [hu] at h; cases h
    rcases hostWrite_setup s o v with (h1 | h1) | ⟨h1, h2⟩
    · rw [h1]; exact .inl ⟨rfl, .inl rfl⟩
    · rw [h1]; exact hc' _
    · obtain ⟨g1, g2⟩ := regWr_setup s o v
      refine .inl ⟨?_, ?_⟩
      · show (s.hostWrite o v).rst.colds = _; rw [h2, g1]
      · show (s.hostWrite o v).setup = _ ∨ (_ ∧ ∃ off w, (s.hostWrite o v).setup = _)
        rw [h1]
        rcases g2 with g2 | ⟨g2, w, g3⟩
        · exact .inl g2
        · exact .inr ⟨g2, o, w, g3⟩
  · rw [hu] at h; cases h

/-! ### Threads -/

theorem updTh_th (s : State) (c : Nat) (t : Thread) (f) (h : swf {} s.cells = true) : ((s.updTh c t f).th c t) = f (s.th c t) := by
  simp only [State.th, State.updTh, State.cell, State.updCell, supd_eq]
  rw [sget_sset_same _ _ 0 c _ h]
  cases t <;> rfl
theorem updTh_cell (s : State) (c o : Nat) (t : Thread) (f) (h : o ≠ c) : (s.updTh c t f).cell o = s.cell o := by
  simp only [State.updTh, State.cell, State.updCell, supd_eq]
  rw [sget_sset_ne _ c o _ h]

/-! ### What leaves the power controller alone -/

theorem hostMsg_pw (s : State) (m) : (s.hostMsg m).pw = s.pw := by simp only [State.hostMsg]; (try split_ifs) <;> rfl
theorem hostEvent_pw (s : State) (m) : (s.hostEvent m).pw = s.pw := by simp only [State.hostEvent]; rw [hostMsg_pw]
theorem stateMsg_pw (s : State) : s.stateMsg.pw = s.pw := by
  simp only [State.stateMsg, State.fwPost, State.fwSend, State.setMbox]; split_ifs <;> simp only [hostEvent_pw]
theorem towSend_pw (s : State) (a b c) : (s.towSend a b c).pw = s.pw := by simp only [State.towSend]; split_ifs <;> rfl
theorem say_pw (s : State) (a) : (s.say a).pw = s.pw := by simp only [State.say]
theorem stageBegin_pw (s : State) (n) : (s.stageBegin n).pw = s.pw := by
  simp only [State.stageBegin, State.stageReport, stateMsg_pw, towSend_pw, say_pw]

/-! ### Stages and resets (R446, R477) -/

theorem stageRow_begin {s : State} {n : Nat} (h1 : s.stageTurn n = true) (h2 : s.boot.phase = .pending) (b g : State → State) :
    s.stageRow n b g = b (s.stageBegin n) := by rw [State.stageRow, h1, h2]; rfl
theorem stageRow_go {s : State} {n : Nat} (h1 : s.stageTurn n = true) (h2 : s.boot.phase ≠ .pending) (b g : State → State) :
    s.stageRow n b g = g s := by
  rw [State.stageRow, h1]; cases h : s.boot.phase <;> simp_all

theorem requestReset_of_mayReset {s : State} {d : Domain} (h : s.mayReset d) (c b e) (hd : d ≠ .compute) : s.requestReset d c b e false = s.startReset d c b := by
  obtain ⟨h1, h2, h3, h4, h5⟩ := h
  simp only [State.requestReset, h1, h2, h3, h4, h5]
  cases d <;> simp_all
theorem requestReset_compute {s : State} (h : s.mayReset .compute) (c b e) : s.requestReset .compute c b e false = s.startWarm c e := by
  obtain ⟨h1, h2, h3, h4, h5⟩ := h
  simp only [State.requestReset, h1, h2, h3, h4, h5]
  simp

/-! ### Exact-window sums (R37, R40) -/

theorem floor_unit (m : Nat) (sh : Int) :
    ⌊(m : ℚ) * (2 : ℚ) ^ (-sh)⌋ = ((if sh ≤ 0 then m * 2 ^ (-sh).toNat else m / 2 ^ sh.toNat : Nat) : ℤ) := by
  split
  · next h =>
    have : (2 : ℚ) ^ (-sh) = ((2 ^ (-sh).toNat : Nat) : ℚ) := by
      push_cast
      rw [← zpow_natCast]; congr 1; omega
    rw [this, ← Nat.cast_mul, Int.floor_natCast]
  · next h =>
    have : (2 : ℚ) ^ (-sh) = ((2 ^ sh.toNat : Nat) : ℚ)⁻¹ := by
      push_cast
      rw [← zpow_natCast, ← zpow_neg]; congr 1; omega
    rw [this, ← div_eq_mul_inv]
    have := Nat.floor_div_eq_div (K := ℚ) m (2 ^ sh.toNat)
    rw [← this, Int.natCast_floor_eq_floor (by positivity)]

theorem addProduct_comm (wl : Int) (a : Acc) (p q : Val) : (a.addProduct wl p).addProduct wl q = (a.addProduct wl q).addProduct wl p := by
  cases p with
  | nan => cases q with
    | nan => rfl
    | inf x => cases x <;> rfl
    | fin => rfl
  | inf x => cases x <;> (cases q with
    | nan => rfl
    | inf x => cases x <;> rfl
    | fin => rfl)
  | fin x m e => cases q with
    | nan => rfl
    | inf x => cases x <;> rfl
    | fin => simp only [Acc.addProduct, Acc.mk.injEq]; refine ⟨by ac_rfl, trivial, trivial, trivial, ?_, ?_⟩ <;> ac_rfl
theorem addProduct_addRecord (wl : Int) (a : Acc) (p : Val) (x : BitVec 128) : (a.addProduct wl p).addRecord x = (a.addRecord x).addProduct wl p := by
  cases p with
  | nan => simp [Acc.addProduct, Acc.addRecord]
  | inf y => cases y <;> simp [Acc.addProduct, Acc.addRecord]
  | fin y m e => simp only [Acc.addProduct, Acc.addRecord, Acc.mk.injEq]; refine ⟨by ac_rfl, trivial, trivial, trivial, ?_, ?_⟩ <;> ac_rfl

/-! ### FP32 codes (R75) -/

theorem round32_le (neg m e) : fFP32.round .nearest (.fin neg m e) % 2 ^ 31 ≤ 0x7F800000 := by
  cases m with
  | zero => cases neg <;> simp [Fmt.round, Fmt.signed, fFP32]
  | succ m =>
    simp only [Fmt.round]
    split
    · next h =>
      have h' : fFP32.roundCode .nearest neg (m + 1) e ≤ 2139095039 := h
      cases neg <;> simp only [Fmt.signed, fFP32, Bool.toNat_true, Bool.toNat_false] at * <;> omega
    · cases neg <;> decide
theorem near32_self {c : Nat} (h : c % 2 ^ 31 ≤ 0x7F800000) : near32 c c = true := by simp [near32]; omega
theorem near32_fixed (f : BitVec 32 → BitVec 32) {c : Nat} (a : Nat) (h : c % 2 ^ 31 ≤ 0x7F800000) : near32 c (fixed32 f c a) = true := by
  simp only [fixed32]; split
  · assumption
  · exact near32_self h
theorem expExact_le (neg m e) : expExact neg m e % 2 ^ 31 ≤ 0x7F800000 := by
  simp only [expExact]; split
  · cases neg <;> decide
  · exact round32_le _ _ _

end Sys2Proof.Machine
end

