-- ==== Sys2Proof/Laws/State.lean ====
section
/-! SUPPORT. What each shared update of the state leaves: the field it writes, and every other field as it was. -/

namespace Sys2Proof.Machine

/-! ### updCell -/

@[simp] theorem updCell_pending (s : State) (c : Nat) (f : CellSt → CellSt) : (s.updCell c f).pending = s.pending := rfl
@[simp] theorem updCell_freeCtr (s : State) (c : Nat) (f : CellSt → CellSt) : (s.updCell c f).freeCtr = s.freeCtr := rfl
@[simp] theorem updCell_time (s : State) (c : Nat) (f : CellSt → CellSt) : (s.updCell c f).time = s.time := rfl
@[simp] theorem updCell_setup (s : State) (c : Nat) (f : CellSt → CellSt) : (s.updCell c f).setup = s.setup := rfl
@[simp] theorem updCell_setupErr (s : State) (c : Nat) (f : CellSt → CellSt) : (s.updCell c f).setupErr = s.setupErr := rfl
@[simp] theorem updCell_cnt (s : State) (c : Nat) (f : CellSt → CellSt) : (s.updCell c f).cnt = s.cnt := rfl
@[simp] theorem updCell_mem (s : State) (c : Nat) (f : CellSt → CellSt) : (s.updCell c f).mem = s.mem := rfl
@[simp] theorem updCell_tags (s : State) (c : Nat) (f : CellSt → CellSt) : (s.updCell c f).tags = s.tags := rfl
@[simp] theorem updCell_pages (s : State) (c : Nat) (f : CellSt → CellSt) : (s.updCell c f).pages = s.pages := rfl
@[simp] theorem updCell_movers (s : State) (c : Nat) (f : CellSt → CellSt) : (s.updCell c f).movers = s.movers := rfl
@[simp] theorem updCell_memErrs (s : State) (c : Nat) (f : CellSt → CellSt) : (s.updCell c f).memErrs = s.memErrs := rfl
@[simp] theorem updCell_scrubLine (s : State) (c : Nat) (f : CellSt → CellSt) : (s.updCell c f).scrubLine = s.scrubLine := rfl
@[simp] theorem updCell_cells (s : State) (c : Nat) (f : CellSt → CellSt) : (s.updCell c f).cells = supd {} s.cells c f := rfl
@[simp] theorem updCell_faultRecs (s : State) (c : Nat) (f : CellSt → CellSt) : (s.updCell c f).faultRecs = s.faultRecs := rfl
@[simp] theorem updCell_sync (s : State) (c : Nat) (f : CellSt → CellSt) : (s.updCell c f).sync = s.sync := rfl
@[simp] theorem updCell_syncWaits (s : State) (c : Nat) (f : CellSt → CellSt) : (s.updCell c f).syncWaits = s.syncWaits := rfl
@[simp] theorem updCell_hst (s : State) (c : Nat) (f : CellSt → CellSt) : (s.updCell c f).hst = s.hst := rfl
@[simp] theorem updCell_ctxs (s : State) (c : Nat) (f : CellSt → CellSt) : (s.updCell c f).ctxs = s.ctxs := rfl
@[simp] theorem updCell_jobs (s : State) (c : Nat) (f : CellSt → CellSt) : (s.updCell c f).jobs = s.jobs := rfl
@[simp] theorem updCell_tt (s : State) (c : Nat) (f : CellSt → CellSt) : (s.updCell c f).tt = s.tt := rfl
@[simp] theorem updCell_fry (s : State) (c : Nat) (f : CellSt → CellSt) : (s.updCell c f).fry = s.fry := rfl
@[simp] theorem updCell_streams (s : State) (c : Nat) (f : CellSt → CellSt) : (s.updCell c f).streams = s.streams := rfl
@[simp] theorem updCell_itkReset (s : State) (c : Nat) (f : CellSt → CellSt) : (s.updCell c f).itkReset = s.itkReset := rfl
@[simp] theorem updCell_ethq (s : State) (c : Nat) (f : CellSt → CellSt) : (s.updCell c f).ethq = s.ethq := rfl
@[simp] theorem updCell_eth (s : State) (c : Nat) (f : CellSt → CellSt) : (s.updCell c f).eth = s.eth := rfl
@[simp] theorem updCell_ethUp (s : State) (c : Nat) (f : CellSt → CellSt) : (s.updCell c f).ethUp = s.ethUp := rfl
@[simp] theorem updCell_ethAddr (s : State) (c : Nat) (f : CellSt → CellSt) : (s.updCell c f).ethAddr = s.ethAddr := rfl
@[simp] theorem updCell_ethOut (s : State) (c : Nat) (f : CellSt → CellSt) : (s.updCell c f).ethOut = s.ethOut := rfl
@[simp] theorem updCell_mgmtRx (s : State) (c : Nat) (f : CellSt → CellSt) : (s.updCell c f).mgmtRx = s.mgmtRx := rfl
@[simp] theorem updCell_tow (s : State) (c : Nat) (f : CellSt → CellSt) : (s.updCell c f).tow = s.tow := rfl
@[simp] theorem updCell_fab (s : State) (c : Nat) (f : CellSt → CellSt) : (s.updCell c f).fab = s.fab := rfl
@[simp] theorem updCell_agent (s : State) (c : Nat) (f : CellSt → CellSt) : (s.updCell c f).agent = s.agent := rfl
@[simp] theorem updCell_wm (s : State) (c : Nat) (f : CellSt → CellSt) : (s.updCell c f).wm = s.wm := rfl
@[simp] theorem updCell_pw (s : State) (c : Nat) (f : CellSt → CellSt) : (s.updCell c f).pw = s.pw := rfl
@[simp] theorem updCell_mon (s : State) (c : Nat) (f : CellSt → CellSt) : (s.updCell c f).mon = s.mon := rfl
@[simp] theorem updCell_keys (s : State) (c : Nat) (f : CellSt → CellSt) : (s.updCell c f).keys = s.keys := rfl
@[simp] theorem updCell_ids (s : State) (c : Nat) (f : CellSt → CellSt) : (s.updCell c f).ids = s.ids := rfl
@[simp] theorem updCell_removal (s : State) (c : Nat) (f : CellSt → CellSt) : (s.updCell c f).removal = s.removal := rfl
@[simp] theorem updCell_removeQueue (s : State) (c : Nat) (f : CellSt → CellSt) : (s.updCell c f).removeQueue = s.removeQueue := rfl
@[simp] theorem updCell_fw (s : State) (c : Nat) (f : CellSt → CellSt) : (s.updCell c f).fw = s.fw := rfl
@[simp] theorem updCell_flash (s : State) (c : Nat) (f : CellSt → CellSt) : (s.updCell c f).flash = s.flash := rfl
@[simp] theorem updCell_rst (s : State) (c : Nat) (f : CellSt → CellSt) : (s.updCell c f).rst = s.rst := rfl
@[simp] theorem updCell_boot (s : State) (c : Nat) (f : CellSt → CellSt) : (s.updCell c f).boot = s.boot := rfl
@[simp] theorem updCell_maps (s : State) (c : Nat) (f : CellSt → CellSt) : (s.updCell c f).maps = s.maps := rfl
@[simp] theorem updCell_frz (s : State) (c : Nat) (f : CellSt → CellSt) : (s.updCell c f).frz = s.frz := rfl
@[simp] theorem updCell_sup (s : State) (c : Nat) (f : CellSt → CellSt) : (s.updCell c f).sup = s.sup := rfl
@[simp] theorem updCell_uart (s : State) (c : Nat) (f : CellSt → CellSt) : (s.updCell c f).uart = s.uart := rfl
@[simp] theorem updCell_jtag (s : State) (c : Nat) (f : CellSt → CellSt) : (s.updCell c f).jtag = s.jtag := rfl
@[simp] theorem updCell_ledTestEnd (s : State) (c : Nat) (f : CellSt → CellSt) : (s.updCell c f).ledTestEnd = s.ledTestEnd := rfl
@[simp] theorem updCell_debugLocked (s : State) (c : Nat) (f : CellSt → CellSt) : (s.updCell c f).debugLocked = s.debugLocked := rfl
@[simp] theorem updCell_debugOpen (s : State) (c : Nat) (f : CellSt → CellSt) : (s.updCell c f).debugOpen = s.debugOpen := rfl
@[simp] theorem updCell_selftestFailed (s : State) (c : Nat) (f : CellSt → CellSt) : (s.updCell c f).selftestFailed = s.selftestFailed := rfl

/-! ### updTh -/

@[simp] theorem updTh_pending (s : State) (c : Nat) (t : Thread) (f : ThreadSt → ThreadSt) : (s.updTh c t f).pending = s.pending := rfl
@[simp] theorem updTh_freeCtr (s : State) (c : Nat) (t : Thread) (f : ThreadSt → ThreadSt) : (s.updTh c t f).freeCtr = s.freeCtr := rfl
@[simp] theorem updTh_time (s : State) (c : Nat) (t : Thread) (f : ThreadSt → ThreadSt) : (s.updTh c t f).time = s.time := rfl
@[simp] theorem updTh_setup (s : State) (c : Nat) (t : Thread) (f : ThreadSt → ThreadSt) : (s.updTh c t f).setup = s.setup := rfl
@[simp] theorem updTh_setupErr (s : State) (c : Nat) (t : Thread) (f : ThreadSt → ThreadSt) : (s.updTh c t f).setupErr = s.setupErr := rfl
@[simp] theorem updTh_cnt (s : State) (c : Nat) (t : Thread) (f : ThreadSt → ThreadSt) : (s.updTh c t f).cnt = s.cnt := rfl
@[simp] theorem updTh_mem (s : State) (c : Nat) (t : Thread) (f : ThreadSt → ThreadSt) : (s.updTh c t f).mem = s.mem := rfl
@[simp] theorem updTh_tags (s : State) (c : Nat) (t : Thread) (f : ThreadSt → ThreadSt) : (s.updTh c t f).tags = s.tags := rfl
@[simp] theorem updTh_pages (s : State) (c : Nat) (t : Thread) (f : ThreadSt → ThreadSt) : (s.updTh c t f).pages = s.pages := rfl
@[simp] theorem updTh_movers (s : State) (c : Nat) (t : Thread) (f : ThreadSt → ThreadSt) : (s.updTh c t f).movers = s.movers := rfl
@[simp] theorem updTh_memErrs (s : State) (c : Nat) (t : Thread) (f : ThreadSt → ThreadSt) : (s.updTh c t f).memErrs = s.memErrs := rfl
@[simp] theorem updTh_scrubLine (s : State) (c : Nat) (t : Thread) (f : ThreadSt → ThreadSt) : (s.updTh c t f).scrubLine = s.scrubLine := rfl
@[simp] theorem updTh_cells (s : State) (c : Nat) (t : Thread) (f : ThreadSt → ThreadSt) : (s.updTh c t f).cells = supd {} s.cells c fun x => x.updTh t f := rfl
@[simp] theorem updTh_faultRecs (s : State) (c : Nat) (t : Thread) (f : ThreadSt → ThreadSt) : (s.updTh c t f).faultRecs = s.faultRecs := rfl
@[simp] theorem updTh_sync (s : State) (c : Nat) (t : Thread) (f : ThreadSt → ThreadSt) : (s.updTh c t f).sync = s.sync := rfl
@[simp] theorem updTh_syncWaits (s : State) (c : Nat) (t : Thread) (f : ThreadSt → ThreadSt) : (s.updTh c t f).syncWaits = s.syncWaits := rfl
@[simp] theorem updTh_hst (s : State) (c : Nat) (t : Thread) (f : ThreadSt → ThreadSt) : (s.updTh c t f).hst = s.hst := rfl
@[simp] theorem updTh_ctxs (s : State) (c : Nat) (t : Thread) (f : ThreadSt → ThreadSt) : (s.updTh c t f).ctxs = s.ctxs := rfl
@[simp] theorem updTh_jobs (s : State) (c : Nat) (t : Thread) (f : ThreadSt → ThreadSt) : (s.updTh c t f).jobs = s.jobs := rfl
@[simp] theorem updTh_tt (s : State) (c : Nat) (t : Thread) (f : ThreadSt → ThreadSt) : (s.updTh c t f).tt = s.tt := rfl
@[simp] theorem updTh_fry (s : State) (c : Nat) (t : Thread) (f : ThreadSt → ThreadSt) : (s.updTh c t f).fry = s.fry := rfl
@[simp] theorem updTh_streams (s : State) (c : Nat) (t : Thread) (f : ThreadSt → ThreadSt) : (s.updTh c t f).streams = s.streams := rfl
@[simp] theorem updTh_itkReset (s : State) (c : Nat) (t : Thread) (f : ThreadSt → ThreadSt) : (s.updTh c t f).itkReset = s.itkReset := rfl
@[simp] theorem updTh_ethq (s : State) (c : Nat) (t : Thread) (f : ThreadSt → ThreadSt) : (s.updTh c t f).ethq = s.ethq := rfl
@[simp] theorem updTh_eth (s : State) (c : Nat) (t : Thread) (f : ThreadSt → ThreadSt) : (s.updTh c t f).eth = s.eth := rfl
@[simp] theorem updTh_ethUp (s : State) (c : Nat) (t : Thread) (f : ThreadSt → ThreadSt) : (s.updTh c t f).ethUp = s.ethUp := rfl
@[simp] theorem updTh_ethAddr (s : State) (c : Nat) (t : Thread) (f : ThreadSt → ThreadSt) : (s.updTh c t f).ethAddr = s.ethAddr := rfl
@[simp] theorem updTh_ethOut (s : State) (c : Nat) (t : Thread) (f : ThreadSt → ThreadSt) : (s.updTh c t f).ethOut = s.ethOut := rfl
@[simp] theorem updTh_mgmtRx (s : State) (c : Nat) (t : Thread) (f : ThreadSt → ThreadSt) : (s.updTh c t f).mgmtRx = s.mgmtRx := rfl
@[simp] theorem updTh_tow (s : State) (c : Nat) (t : Thread) (f : ThreadSt → ThreadSt) : (s.updTh c t f).tow = s.tow := rfl
@[simp] theorem updTh_fab (s : State) (c : Nat) (t : Thread) (f : ThreadSt → ThreadSt) : (s.updTh c t f).fab = s.fab := rfl
@[simp] theorem updTh_agent (s : State) (c : Nat) (t : Thread) (f : ThreadSt → ThreadSt) : (s.updTh c t f).agent = s.agent := rfl
@[simp] theorem updTh_wm (s : State) (c : Nat) (t : Thread) (f : ThreadSt → ThreadSt) : (s.updTh c t f).wm = s.wm := rfl
@[simp] theorem updTh_pw (s : State) (c : Nat) (t : Thread) (f : ThreadSt → ThreadSt) : (s.updTh c t f).pw = s.pw := rfl
@[simp] theorem updTh_mon (s : State) (c : Nat) (t : Thread) (f : ThreadSt → ThreadSt) : (s.updTh c t f).mon = s.mon := rfl
@[simp] theorem updTh_keys (s : State) (c : Nat) (t : Thread) (f : ThreadSt → ThreadSt) : (s.updTh c t f).keys = s.keys := rfl
@[simp] theorem updTh_ids (s : State) (c : Nat) (t : Thread) (f : ThreadSt → ThreadSt) : (s.updTh c t f).ids = s.ids := rfl
@[simp] theorem updTh_removal (s : State) (c : Nat) (t : Thread) (f : ThreadSt → ThreadSt) : (s.updTh c t f).removal = s.removal := rfl
@[simp] theorem updTh_removeQueue (s : State) (c : Nat) (t : Thread) (f : ThreadSt → ThreadSt) : (s.updTh c t f).removeQueue = s.removeQueue := rfl
@[simp] theorem updTh_fw (s : State) (c : Nat) (t : Thread) (f : ThreadSt → ThreadSt) : (s.updTh c t f).fw = s.fw := rfl
@[simp] theorem updTh_flash (s : State) (c : Nat) (t : Thread) (f : ThreadSt → ThreadSt) : (s.updTh c t f).flash = s.flash := rfl
@[simp] theorem updTh_rst (s : State) (c : Nat) (t : Thread) (f : ThreadSt → ThreadSt) : (s.updTh c t f).rst = s.rst := rfl
@[simp] theorem updTh_boot (s : State) (c : Nat) (t : Thread) (f : ThreadSt → ThreadSt) : (s.updTh c t f).boot = s.boot := rfl
@[simp] theorem updTh_maps (s : State) (c : Nat) (t : Thread) (f : ThreadSt → ThreadSt) : (s.updTh c t f).maps = s.maps := rfl
@[simp] theorem updTh_frz (s : State) (c : Nat) (t : Thread) (f : ThreadSt → ThreadSt) : (s.updTh c t f).frz = s.frz := rfl
@[simp] theorem updTh_sup (s : State) (c : Nat) (t : Thread) (f : ThreadSt → ThreadSt) : (s.updTh c t f).sup = s.sup := rfl
@[simp] theorem updTh_uart (s : State) (c : Nat) (t : Thread) (f : ThreadSt → ThreadSt) : (s.updTh c t f).uart = s.uart := rfl
@[simp] theorem updTh_jtag (s : State) (c : Nat) (t : Thread) (f : ThreadSt → ThreadSt) : (s.updTh c t f).jtag = s.jtag := rfl
@[simp] theorem updTh_ledTestEnd (s : State) (c : Nat) (t : Thread) (f : ThreadSt → ThreadSt) : (s.updTh c t f).ledTestEnd = s.ledTestEnd := rfl
@[simp] theorem updTh_debugLocked (s : State) (c : Nat) (t : Thread) (f : ThreadSt → ThreadSt) : (s.updTh c t f).debugLocked = s.debugLocked := rfl
@[simp] theorem updTh_debugOpen (s : State) (c : Nat) (t : Thread) (f : ThreadSt → ThreadSt) : (s.updTh c t f).debugOpen = s.debugOpen := rfl
@[simp] theorem updTh_selftestFailed (s : State) (c : Nat) (t : Thread) (f : ThreadSt → ThreadSt) : (s.updTh c t f).selftestFailed = s.selftestFailed := rfl

/-! ### updMover -/

@[simp] theorem updMover_pending (s : State) (m : Nat) (f : Mover → Mover) : (s.updMover m f).pending = s.pending := rfl
@[simp] theorem updMover_freeCtr (s : State) (m : Nat) (f : Mover → Mover) : (s.updMover m f).freeCtr = s.freeCtr := rfl
@[simp] theorem updMover_time (s : State) (m : Nat) (f : Mover → Mover) : (s.updMover m f).time = s.time := rfl
@[simp] theorem updMover_setup (s : State) (m : Nat) (f : Mover → Mover) : (s.updMover m f).setup = s.setup := rfl
@[simp] theorem updMover_setupErr (s : State) (m : Nat) (f : Mover → Mover) : (s.updMover m f).setupErr = s.setupErr := rfl
@[simp] theorem updMover_cnt (s : State) (m : Nat) (f : Mover → Mover) : (s.updMover m f).cnt = s.cnt := rfl
@[simp] theorem updMover_mem (s : State) (m : Nat) (f : Mover → Mover) : (s.updMover m f).mem = s.mem := rfl
@[simp] theorem updMover_tags (s : State) (m : Nat) (f : Mover → Mover) : (s.updMover m f).tags = s.tags := rfl
@[simp] theorem updMover_pages (s : State) (m : Nat) (f : Mover → Mover) : (s.updMover m f).pages = s.pages := rfl
@[simp] theorem updMover_movers (s : State) (m : Nat) (f : Mover → Mover) : (s.updMover m f).movers = supd {} s.movers m f := rfl
@[simp] theorem updMover_memErrs (s : State) (m : Nat) (f : Mover → Mover) : (s.updMover m f).memErrs = s.memErrs := rfl
@[simp] theorem updMover_scrubLine (s : State) (m : Nat) (f : Mover → Mover) : (s.updMover m f).scrubLine = s.scrubLine := rfl
@[simp] theorem updMover_cells (s : State) (m : Nat) (f : Mover → Mover) : (s.updMover m f).cells = s.cells := rfl
@[simp] theorem updMover_faultRecs (s : State) (m : Nat) (f : Mover → Mover) : (s.updMover m f).faultRecs = s.faultRecs := rfl
@[simp] theorem updMover_sync (s : State) (m : Nat) (f : Mover → Mover) : (s.updMover m f).sync = s.sync := rfl
@[simp] theorem updMover_syncWaits (s : State) (m : Nat) (f : Mover → Mover) : (s.updMover m f).syncWaits = s.syncWaits := rfl
@[simp] theorem updMover_hst (s : State) (m : Nat) (f : Mover → Mover) : (s.updMover m f).hst = s.hst := rfl
@[simp] theorem updMover_ctxs (s : State) (m : Nat) (f : Mover → Mover) : (s.updMover m f).ctxs = s.ctxs := rfl
@[simp] theorem updMover_jobs (s : State) (m : Nat) (f : Mover → Mover) : (s.updMover m f).jobs = s.jobs := rfl
@[simp] theorem updMover_tt (s : State) (m : Nat) (f : Mover → Mover) : (s.updMover m f).tt = s.tt := rfl
@[simp] theorem updMover_fry (s : State) (m : Nat) (f : Mover → Mover) : (s.updMover m f).fry = s.fry := rfl
@[simp] theorem updMover_streams (s : State) (m : Nat) (f : Mover → Mover) : (s.updMover m f).streams = s.streams := rfl
@[simp] theorem updMover_itkReset (s : State) (m : Nat) (f : Mover → Mover) : (s.updMover m f).itkReset = s.itkReset := rfl
@[simp] theorem updMover_ethq (s : State) (m : Nat) (f : Mover → Mover) : (s.updMover m f).ethq = s.ethq := rfl
@[simp] theorem updMover_eth (s : State) (m : Nat) (f : Mover → Mover) : (s.updMover m f).eth = s.eth := rfl
@[simp] theorem updMover_ethUp (s : State) (m : Nat) (f : Mover → Mover) : (s.updMover m f).ethUp = s.ethUp := rfl
@[simp] theorem updMover_ethAddr (s : State) (m : Nat) (f : Mover → Mover) : (s.updMover m f).ethAddr = s.ethAddr := rfl
@[simp] theorem updMover_ethOut (s : State) (m : Nat) (f : Mover → Mover) : (s.updMover m f).ethOut = s.ethOut := rfl
@[simp] theorem updMover_mgmtRx (s : State) (m : Nat) (f : Mover → Mover) : (s.updMover m f).mgmtRx = s.mgmtRx := rfl
@[simp] theorem updMover_tow (s : State) (m : Nat) (f : Mover → Mover) : (s.updMover m f).tow = s.tow := rfl
@[simp] theorem updMover_fab (s : State) (m : Nat) (f : Mover → Mover) : (s.updMover m f).fab = s.fab := rfl
@[simp] theorem updMover_agent (s : State) (m : Nat) (f : Mover → Mover) : (s.updMover m f).agent = s.agent := rfl
@[simp] theorem updMover_wm (s : State) (m : Nat) (f : Mover → Mover) : (s.updMover m f).wm = s.wm := rfl
@[simp] theorem updMover_pw (s : State) (m : Nat) (f : Mover → Mover) : (s.updMover m f).pw = s.pw := rfl
@[simp] theorem updMover_mon (s : State) (m : Nat) (f : Mover → Mover) : (s.updMover m f).mon = s.mon := rfl
@[simp] theorem updMover_keys (s : State) (m : Nat) (f : Mover → Mover) : (s.updMover m f).keys = s.keys := rfl
@[simp] theorem updMover_ids (s : State) (m : Nat) (f : Mover → Mover) : (s.updMover m f).ids = s.ids := rfl
@[simp] theorem updMover_removal (s : State) (m : Nat) (f : Mover → Mover) : (s.updMover m f).removal = s.removal := rfl
@[simp] theorem updMover_removeQueue (s : State) (m : Nat) (f : Mover → Mover) : (s.updMover m f).removeQueue = s.removeQueue := rfl
@[simp] theorem updMover_fw (s : State) (m : Nat) (f : Mover → Mover) : (s.updMover m f).fw = s.fw := rfl
@[simp] theorem updMover_flash (s : State) (m : Nat) (f : Mover → Mover) : (s.updMover m f).flash = s.flash := rfl
@[simp] theorem updMover_rst (s : State) (m : Nat) (f : Mover → Mover) : (s.updMover m f).rst = s.rst := rfl
@[simp] theorem updMover_boot (s : State) (m : Nat) (f : Mover → Mover) : (s.updMover m f).boot = s.boot := rfl
@[simp] theorem updMover_maps (s : State) (m : Nat) (f : Mover → Mover) : (s.updMover m f).maps = s.maps := rfl
@[simp] theorem updMover_frz (s : State) (m : Nat) (f : Mover → Mover) : (s.updMover m f).frz = s.frz := rfl
@[simp] theorem updMover_sup (s : State) (m : Nat) (f : Mover → Mover) : (s.updMover m f).sup = s.sup := rfl
@[simp] theorem updMover_uart (s : State) (m : Nat) (f : Mover → Mover) : (s.updMover m f).uart = s.uart := rfl
@[simp] theorem updMover_jtag (s : State) (m : Nat) (f : Mover → Mover) : (s.updMover m f).jtag = s.jtag := rfl
@[simp] theorem updMover_ledTestEnd (s : State) (m : Nat) (f : Mover → Mover) : (s.updMover m f).ledTestEnd = s.ledTestEnd := rfl
@[simp] theorem updMover_debugLocked (s : State) (m : Nat) (f : Mover → Mover) : (s.updMover m f).debugLocked = s.debugLocked := rfl
@[simp] theorem updMover_debugOpen (s : State) (m : Nat) (f : Mover → Mover) : (s.updMover m f).debugOpen = s.debugOpen := rfl
@[simp] theorem updMover_selftestFailed (s : State) (m : Nat) (f : Mover → Mover) : (s.updMover m f).selftestFailed = s.selftestFailed := rfl

/-! ### updCtx -/

@[simp] theorem updCtx_pending (s : State) (c : Nat) (f : Context → Context) : (s.updCtx c f).pending = s.pending := rfl
@[simp] theorem updCtx_freeCtr (s : State) (c : Nat) (f : Context → Context) : (s.updCtx c f).freeCtr = s.freeCtr := rfl
@[simp] theorem updCtx_time (s : State) (c : Nat) (f : Context → Context) : (s.updCtx c f).time = s.time := rfl
@[simp] theorem updCtx_setup (s : State) (c : Nat) (f : Context → Context) : (s.updCtx c f).setup = s.setup := rfl
@[simp] theorem updCtx_setupErr (s : State) (c : Nat) (f : Context → Context) : (s.updCtx c f).setupErr = s.setupErr := rfl
@[simp] theorem updCtx_cnt (s : State) (c : Nat) (f : Context → Context) : (s.updCtx c f).cnt = s.cnt := rfl
@[simp] theorem updCtx_mem (s : State) (c : Nat) (f : Context → Context) : (s.updCtx c f).mem = s.mem := rfl
@[simp] theorem updCtx_tags (s : State) (c : Nat) (f : Context → Context) : (s.updCtx c f).tags = s.tags := rfl
@[simp] theorem updCtx_pages (s : State) (c : Nat) (f : Context → Context) : (s.updCtx c f).pages = s.pages := rfl
@[simp] theorem updCtx_movers (s : State) (c : Nat) (f : Context → Context) : (s.updCtx c f).movers = s.movers := rfl
@[simp] theorem updCtx_memErrs (s : State) (c : Nat) (f : Context → Context) : (s.updCtx c f).memErrs = s.memErrs := rfl
@[simp] theorem updCtx_scrubLine (s : State) (c : Nat) (f : Context → Context) : (s.updCtx c f).scrubLine = s.scrubLine := rfl
@[simp] theorem updCtx_cells (s : State) (c : Nat) (f : Context → Context) : (s.updCtx c f).cells = s.cells := rfl
@[simp] theorem updCtx_faultRecs (s : State) (c : Nat) (f : Context → Context) : (s.updCtx c f).faultRecs = s.faultRecs := rfl
@[simp] theorem updCtx_sync (s : State) (c : Nat) (f : Context → Context) : (s.updCtx c f).sync = s.sync := rfl
@[simp] theorem updCtx_syncWaits (s : State) (c : Nat) (f : Context → Context) : (s.updCtx c f).syncWaits = s.syncWaits := rfl
@[simp] theorem updCtx_hst (s : State) (c : Nat) (f : Context → Context) : (s.updCtx c f).hst = s.hst := rfl
@[simp] theorem updCtx_ctxs (s : State) (c : Nat) (f : Context → Context) : (s.updCtx c f).ctxs = supd {} s.ctxs c f := rfl
@[simp] theorem updCtx_jobs (s : State) (c : Nat) (f : Context → Context) : (s.updCtx c f).jobs = s.jobs := rfl
@[simp] theorem updCtx_tt (s : State) (c : Nat) (f : Context → Context) : (s.updCtx c f).tt = s.tt := rfl
@[simp] theorem updCtx_fry (s : State) (c : Nat) (f : Context → Context) : (s.updCtx c f).fry = s.fry := rfl
@[simp] theorem updCtx_streams (s : State) (c : Nat) (f : Context → Context) : (s.updCtx c f).streams = s.streams := rfl
@[simp] theorem updCtx_itkReset (s : State) (c : Nat) (f : Context → Context) : (s.updCtx c f).itkReset = s.itkReset := rfl
@[simp] theorem updCtx_ethq (s : State) (c : Nat) (f : Context → Context) : (s.updCtx c f).ethq = s.ethq := rfl
@[simp] theorem updCtx_eth (s : State) (c : Nat) (f : Context → Context) : (s.updCtx c f).eth = s.eth := rfl
@[simp] theorem updCtx_ethUp (s : State) (c : Nat) (f : Context → Context) : (s.updCtx c f).ethUp = s.ethUp := rfl
@[simp] theorem updCtx_ethAddr (s : State) (c : Nat) (f : Context → Context) : (s.updCtx c f).ethAddr = s.ethAddr := rfl
@[simp] theorem updCtx_ethOut (s : State) (c : Nat) (f : Context → Context) : (s.updCtx c f).ethOut = s.ethOut := rfl
@[simp] theorem updCtx_mgmtRx (s : State) (c : Nat) (f : Context → Context) : (s.updCtx c f).mgmtRx = s.mgmtRx := rfl
@[simp] theorem updCtx_tow (s : State) (c : Nat) (f : Context → Context) : (s.updCtx c f).tow = s.tow := rfl
@[simp] theorem updCtx_fab (s : State) (c : Nat) (f : Context → Context) : (s.updCtx c f).fab = s.fab := rfl
@[simp] theorem updCtx_agent (s : State) (c : Nat) (f : Context → Context) : (s.updCtx c f).agent = s.agent := rfl
@[simp] theorem updCtx_wm (s : State) (c : Nat) (f : Context → Context) : (s.updCtx c f).wm = s.wm := rfl
@[simp] theorem updCtx_pw (s : State) (c : Nat) (f : Context → Context) : (s.updCtx c f).pw = s.pw := rfl
@[simp] theorem updCtx_mon (s : State) (c : Nat) (f : Context → Context) : (s.updCtx c f).mon = s.mon := rfl
@[simp] theorem updCtx_keys (s : State) (c : Nat) (f : Context → Context) : (s.updCtx c f).keys = s.keys := rfl
@[simp] theorem updCtx_ids (s : State) (c : Nat) (f : Context → Context) : (s.updCtx c f).ids = s.ids := rfl
@[simp] theorem updCtx_removal (s : State) (c : Nat) (f : Context → Context) : (s.updCtx c f).removal = s.removal := rfl
@[simp] theorem updCtx_removeQueue (s : State) (c : Nat) (f : Context → Context) : (s.updCtx c f).removeQueue = s.removeQueue := rfl
@[simp] theorem updCtx_fw (s : State) (c : Nat) (f : Context → Context) : (s.updCtx c f).fw = s.fw := rfl
@[simp] theorem updCtx_flash (s : State) (c : Nat) (f : Context → Context) : (s.updCtx c f).flash = s.flash := rfl
@[simp] theorem updCtx_rst (s : State) (c : Nat) (f : Context → Context) : (s.updCtx c f).rst = s.rst := rfl
@[simp] theorem updCtx_boot (s : State) (c : Nat) (f : Context → Context) : (s.updCtx c f).boot = s.boot := rfl
@[simp] theorem updCtx_maps (s : State) (c : Nat) (f : Context → Context) : (s.updCtx c f).maps = s.maps := rfl
@[simp] theorem updCtx_frz (s : State) (c : Nat) (f : Context → Context) : (s.updCtx c f).frz = s.frz := rfl
@[simp] theorem updCtx_sup (s : State) (c : Nat) (f : Context → Context) : (s.updCtx c f).sup = s.sup := rfl
@[simp] theorem updCtx_uart (s : State) (c : Nat) (f : Context → Context) : (s.updCtx c f).uart = s.uart := rfl
@[simp] theorem updCtx_jtag (s : State) (c : Nat) (f : Context → Context) : (s.updCtx c f).jtag = s.jtag := rfl
@[simp] theorem updCtx_ledTestEnd (s : State) (c : Nat) (f : Context → Context) : (s.updCtx c f).ledTestEnd = s.ledTestEnd := rfl
@[simp] theorem updCtx_debugLocked (s : State) (c : Nat) (f : Context → Context) : (s.updCtx c f).debugLocked = s.debugLocked := rfl
@[simp] theorem updCtx_debugOpen (s : State) (c : Nat) (f : Context → Context) : (s.updCtx c f).debugOpen = s.debugOpen := rfl
@[simp] theorem updCtx_selftestFailed (s : State) (c : Nat) (f : Context → Context) : (s.updCtx c f).selftestFailed = s.selftestFailed := rfl

/-! ### updSq -/

@[simp] theorem updSq_pending (s : State) (n : Nat) (f : Sq → Sq) : (s.updSq n f).pending = s.pending := rfl
@[simp] theorem updSq_freeCtr (s : State) (n : Nat) (f : Sq → Sq) : (s.updSq n f).freeCtr = s.freeCtr := rfl
@[simp] theorem updSq_time (s : State) (n : Nat) (f : Sq → Sq) : (s.updSq n f).time = s.time := rfl
@[simp] theorem updSq_setup (s : State) (n : Nat) (f : Sq → Sq) : (s.updSq n f).setup = s.setup := rfl
@[simp] theorem updSq_setupErr (s : State) (n : Nat) (f : Sq → Sq) : (s.updSq n f).setupErr = s.setupErr := rfl
@[simp] theorem updSq_cnt (s : State) (n : Nat) (f : Sq → Sq) : (s.updSq n f).cnt = s.cnt := rfl
@[simp] theorem updSq_mem (s : State) (n : Nat) (f : Sq → Sq) : (s.updSq n f).mem = s.mem := rfl
@[simp] theorem updSq_tags (s : State) (n : Nat) (f : Sq → Sq) : (s.updSq n f).tags = s.tags := rfl
@[simp] theorem updSq_pages (s : State) (n : Nat) (f : Sq → Sq) : (s.updSq n f).pages = s.pages := rfl
@[simp] theorem updSq_movers (s : State) (n : Nat) (f : Sq → Sq) : (s.updSq n f).movers = s.movers := rfl
@[simp] theorem updSq_memErrs (s : State) (n : Nat) (f : Sq → Sq) : (s.updSq n f).memErrs = s.memErrs := rfl
@[simp] theorem updSq_scrubLine (s : State) (n : Nat) (f : Sq → Sq) : (s.updSq n f).scrubLine = s.scrubLine := rfl
@[simp] theorem updSq_cells (s : State) (n : Nat) (f : Sq → Sq) : (s.updSq n f).cells = s.cells := rfl
@[simp] theorem updSq_faultRecs (s : State) (n : Nat) (f : Sq → Sq) : (s.updSq n f).faultRecs = s.faultRecs := rfl
@[simp] theorem updSq_sync (s : State) (n : Nat) (f : Sq → Sq) : (s.updSq n f).sync = s.sync := rfl
@[simp] theorem updSq_syncWaits (s : State) (n : Nat) (f : Sq → Sq) : (s.updSq n f).syncWaits = s.syncWaits := rfl
@[simp] theorem updSq_hst (s : State) (n : Nat) (f : Sq → Sq) : (s.updSq n f).hst = { s.hst with sqs := supd {} s.hst.sqs n f } := rfl
@[simp] theorem updSq_ctxs (s : State) (n : Nat) (f : Sq → Sq) : (s.updSq n f).ctxs = s.ctxs := rfl
@[simp] theorem updSq_jobs (s : State) (n : Nat) (f : Sq → Sq) : (s.updSq n f).jobs = s.jobs := rfl
@[simp] theorem updSq_tt (s : State) (n : Nat) (f : Sq → Sq) : (s.updSq n f).tt = s.tt := rfl
@[simp] theorem updSq_fry (s : State) (n : Nat) (f : Sq → Sq) : (s.updSq n f).fry = s.fry := rfl
@[simp] theorem updSq_streams (s : State) (n : Nat) (f : Sq → Sq) : (s.updSq n f).streams = s.streams := rfl
@[simp] theorem updSq_itkReset (s : State) (n : Nat) (f : Sq → Sq) : (s.updSq n f).itkReset = s.itkReset := rfl
@[simp] theorem updSq_ethq (s : State) (n : Nat) (f : Sq → Sq) : (s.updSq n f).ethq = s.ethq := rfl
@[simp] theorem updSq_eth (s : State) (n : Nat) (f : Sq → Sq) : (s.updSq n f).eth = s.eth := rfl
@[simp] theorem updSq_ethUp (s : State) (n : Nat) (f : Sq → Sq) : (s.updSq n f).ethUp = s.ethUp := rfl
@[simp] theorem updSq_ethAddr (s : State) (n : Nat) (f : Sq → Sq) : (s.updSq n f).ethAddr = s.ethAddr := rfl
@[simp] theorem updSq_ethOut (s : State) (n : Nat) (f : Sq → Sq) : (s.updSq n f).ethOut = s.ethOut := rfl
@[simp] theorem updSq_mgmtRx (s : State) (n : Nat) (f : Sq → Sq) : (s.updSq n f).mgmtRx = s.mgmtRx := rfl
@[simp] theorem updSq_tow (s : State) (n : Nat) (f : Sq → Sq) : (s.updSq n f).tow = s.tow := rfl
@[simp] theorem updSq_fab (s : State) (n : Nat) (f : Sq → Sq) : (s.updSq n f).fab = s.fab := rfl
@[simp] theorem updSq_agent (s : State) (n : Nat) (f : Sq → Sq) : (s.updSq n f).agent = s.agent := rfl
@[simp] theorem updSq_wm (s : State) (n : Nat) (f : Sq → Sq) : (s.updSq n f).wm = s.wm := rfl
@[simp] theorem updSq_pw (s : State) (n : Nat) (f : Sq → Sq) : (s.updSq n f).pw = s.pw := rfl
@[simp] theorem updSq_mon (s : State) (n : Nat) (f : Sq → Sq) : (s.updSq n f).mon = s.mon := rfl
@[simp] theorem updSq_keys (s : State) (n : Nat) (f : Sq → Sq) : (s.updSq n f).keys = s.keys := rfl
@[simp] theorem updSq_ids (s : State) (n : Nat) (f : Sq → Sq) : (s.updSq n f).ids = s.ids := rfl
@[simp] theorem updSq_removal (s : State) (n : Nat) (f : Sq → Sq) : (s.updSq n f).removal = s.removal := rfl
@[simp] theorem updSq_removeQueue (s : State) (n : Nat) (f : Sq → Sq) : (s.updSq n f).removeQueue = s.removeQueue := rfl
@[simp] theorem updSq_fw (s : State) (n : Nat) (f : Sq → Sq) : (s.updSq n f).fw = s.fw := rfl
@[simp] theorem updSq_flash (s : State) (n : Nat) (f : Sq → Sq) : (s.updSq n f).flash = s.flash := rfl
@[simp] theorem updSq_rst (s : State) (n : Nat) (f : Sq → Sq) : (s.updSq n f).rst = s.rst := rfl
@[simp] theorem updSq_boot (s : State) (n : Nat) (f : Sq → Sq) : (s.updSq n f).boot = s.boot := rfl
@[simp] theorem updSq_maps (s : State) (n : Nat) (f : Sq → Sq) : (s.updSq n f).maps = s.maps := rfl
@[simp] theorem updSq_frz (s : State) (n : Nat) (f : Sq → Sq) : (s.updSq n f).frz = s.frz := rfl
@[simp] theorem updSq_sup (s : State) (n : Nat) (f : Sq → Sq) : (s.updSq n f).sup = s.sup := rfl
@[simp] theorem updSq_uart (s : State) (n : Nat) (f : Sq → Sq) : (s.updSq n f).uart = s.uart := rfl
@[simp] theorem updSq_jtag (s : State) (n : Nat) (f : Sq → Sq) : (s.updSq n f).jtag = s.jtag := rfl
@[simp] theorem updSq_ledTestEnd (s : State) (n : Nat) (f : Sq → Sq) : (s.updSq n f).ledTestEnd = s.ledTestEnd := rfl
@[simp] theorem updSq_debugLocked (s : State) (n : Nat) (f : Sq → Sq) : (s.updSq n f).debugLocked = s.debugLocked := rfl
@[simp] theorem updSq_debugOpen (s : State) (n : Nat) (f : Sq → Sq) : (s.updSq n f).debugOpen = s.debugOpen := rfl
@[simp] theorem updSq_selftestFailed (s : State) (n : Nat) (f : Sq → Sq) : (s.updSq n f).selftestFailed = s.selftestFailed := rfl

/-! ### updCq -/

@[simp] theorem updCq_pending (s : State) (n : Nat) (f : Cq → Cq) : (s.updCq n f).pending = s.pending := rfl
@[simp] theorem updCq_freeCtr (s : State) (n : Nat) (f : Cq → Cq) : (s.updCq n f).freeCtr = s.freeCtr := rfl
@[simp] theorem updCq_time (s : State) (n : Nat) (f : Cq → Cq) : (s.updCq n f).time = s.time := rfl
@[simp] theorem updCq_setup (s : State) (n : Nat) (f : Cq → Cq) : (s.updCq n f).setup = s.setup := rfl
@[simp] theorem updCq_setupErr (s : State) (n : Nat) (f : Cq → Cq) : (s.updCq n f).setupErr = s.setupErr := rfl
@[simp] theorem updCq_cnt (s : State) (n : Nat) (f : Cq → Cq) : (s.updCq n f).cnt = s.cnt := rfl
@[simp] theorem updCq_mem (s : State) (n : Nat) (f : Cq → Cq) : (s.updCq n f).mem = s.mem := rfl
@[simp] theorem updCq_tags (s : State) (n : Nat) (f : Cq → Cq) : (s.updCq n f).tags = s.tags := rfl
@[simp] theorem updCq_pages (s : State) (n : Nat) (f : Cq → Cq) : (s.updCq n f).pages = s.pages := rfl
@[simp] theorem updCq_movers (s : State) (n : Nat) (f : Cq → Cq) : (s.updCq n f).movers = s.movers := rfl
@[simp] theorem updCq_memErrs (s : State) (n : Nat) (f : Cq → Cq) : (s.updCq n f).memErrs = s.memErrs := rfl
@[simp] theorem updCq_scrubLine (s : State) (n : Nat) (f : Cq → Cq) : (s.updCq n f).scrubLine = s.scrubLine := rfl
@[simp] theorem updCq_cells (s : State) (n : Nat) (f : Cq → Cq) : (s.updCq n f).cells = s.cells := rfl
@[simp] theorem updCq_faultRecs (s : State) (n : Nat) (f : Cq → Cq) : (s.updCq n f).faultRecs = s.faultRecs := rfl
@[simp] theorem updCq_sync (s : State) (n : Nat) (f : Cq → Cq) : (s.updCq n f).sync = s.sync := rfl
@[simp] theorem updCq_syncWaits (s : State) (n : Nat) (f : Cq → Cq) : (s.updCq n f).syncWaits = s.syncWaits := rfl
@[simp] theorem updCq_hst (s : State) (n : Nat) (f : Cq → Cq) : (s.updCq n f).hst = { s.hst with cqs := supd {} s.hst.cqs n f } := rfl
@[simp] theorem updCq_ctxs (s : State) (n : Nat) (f : Cq → Cq) : (s.updCq n f).ctxs = s.ctxs := rfl
@[simp] theorem updCq_jobs (s : State) (n : Nat) (f : Cq → Cq) : (s.updCq n f).jobs = s.jobs := rfl
@[simp] theorem updCq_tt (s : State) (n : Nat) (f : Cq → Cq) : (s.updCq n f).tt = s.tt := rfl
@[simp] theorem updCq_fry (s : State) (n : Nat) (f : Cq → Cq) : (s.updCq n f).fry = s.fry := rfl
@[simp] theorem updCq_streams (s : State) (n : Nat) (f : Cq → Cq) : (s.updCq n f).streams = s.streams := rfl
@[simp] theorem updCq_itkReset (s : State) (n : Nat) (f : Cq → Cq) : (s.updCq n f).itkReset = s.itkReset := rfl
@[simp] theorem updCq_ethq (s : State) (n : Nat) (f : Cq → Cq) : (s.updCq n f).ethq = s.ethq := rfl
@[simp] theorem updCq_eth (s : State) (n : Nat) (f : Cq → Cq) : (s.updCq n f).eth = s.eth := rfl
@[simp] theorem updCq_ethUp (s : State) (n : Nat) (f : Cq → Cq) : (s.updCq n f).ethUp = s.ethUp := rfl
@[simp] theorem updCq_ethAddr (s : State) (n : Nat) (f : Cq → Cq) : (s.updCq n f).ethAddr = s.ethAddr := rfl
@[simp] theorem updCq_ethOut (s : State) (n : Nat) (f : Cq → Cq) : (s.updCq n f).ethOut = s.ethOut := rfl
@[simp] theorem updCq_mgmtRx (s : State) (n : Nat) (f : Cq → Cq) : (s.updCq n f).mgmtRx = s.mgmtRx := rfl
@[simp] theorem updCq_tow (s : State) (n : Nat) (f : Cq → Cq) : (s.updCq n f).tow = s.tow := rfl
@[simp] theorem updCq_fab (s : State) (n : Nat) (f : Cq → Cq) : (s.updCq n f).fab = s.fab := rfl
@[simp] theorem updCq_agent (s : State) (n : Nat) (f : Cq → Cq) : (s.updCq n f).agent = s.agent := rfl
@[simp] theorem updCq_wm (s : State) (n : Nat) (f : Cq → Cq) : (s.updCq n f).wm = s.wm := rfl
@[simp] theorem updCq_pw (s : State) (n : Nat) (f : Cq → Cq) : (s.updCq n f).pw = s.pw := rfl
@[simp] theorem updCq_mon (s : State) (n : Nat) (f : Cq → Cq) : (s.updCq n f).mon = s.mon := rfl
@[simp] theorem updCq_keys (s : State) (n : Nat) (f : Cq → Cq) : (s.updCq n f).keys = s.keys := rfl
@[simp] theorem updCq_ids (s : State) (n : Nat) (f : Cq → Cq) : (s.updCq n f).ids = s.ids := rfl
@[simp] theorem updCq_removal (s : State) (n : Nat) (f : Cq → Cq) : (s.updCq n f).removal = s.removal := rfl
@[simp] theorem updCq_removeQueue (s : State) (n : Nat) (f : Cq → Cq) : (s.updCq n f).removeQueue = s.removeQueue := rfl
@[simp] theorem updCq_fw (s : State) (n : Nat) (f : Cq → Cq) : (s.updCq n f).fw = s.fw := rfl
@[simp] theorem updCq_flash (s : State) (n : Nat) (f : Cq → Cq) : (s.updCq n f).flash = s.flash := rfl
@[simp] theorem updCq_rst (s : State) (n : Nat) (f : Cq → Cq) : (s.updCq n f).rst = s.rst := rfl
@[simp] theorem updCq_boot (s : State) (n : Nat) (f : Cq → Cq) : (s.updCq n f).boot = s.boot := rfl
@[simp] theorem updCq_maps (s : State) (n : Nat) (f : Cq → Cq) : (s.updCq n f).maps = s.maps := rfl
@[simp] theorem updCq_frz (s : State) (n : Nat) (f : Cq → Cq) : (s.updCq n f).frz = s.frz := rfl
@[simp] theorem updCq_sup (s : State) (n : Nat) (f : Cq → Cq) : (s.updCq n f).sup = s.sup := rfl
@[simp] theorem updCq_uart (s : State) (n : Nat) (f : Cq → Cq) : (s.updCq n f).uart = s.uart := rfl
@[simp] theorem updCq_jtag (s : State) (n : Nat) (f : Cq → Cq) : (s.updCq n f).jtag = s.jtag := rfl
@[simp] theorem updCq_ledTestEnd (s : State) (n : Nat) (f : Cq → Cq) : (s.updCq n f).ledTestEnd = s.ledTestEnd := rfl
@[simp] theorem updCq_debugLocked (s : State) (n : Nat) (f : Cq → Cq) : (s.updCq n f).debugLocked = s.debugLocked := rfl
@[simp] theorem updCq_debugOpen (s : State) (n : Nat) (f : Cq → Cq) : (s.updCq n f).debugOpen = s.debugOpen := rfl
@[simp] theorem updCq_selftestFailed (s : State) (n : Nat) (f : Cq → Cq) : (s.updCq n f).selftestFailed = s.selftestFailed := rfl

/-! ### setObj -/

@[simp] theorem setObj_pending (s : State) (i : Nat) (o : SyncObj) : (s.setObj i o).pending = s.pending := rfl
@[simp] theorem setObj_freeCtr (s : State) (i : Nat) (o : SyncObj) : (s.setObj i o).freeCtr = s.freeCtr := rfl
@[simp] theorem setObj_time (s : State) (i : Nat) (o : SyncObj) : (s.setObj i o).time = s.time := rfl
@[simp] theorem setObj_setup (s : State) (i : Nat) (o : SyncObj) : (s.setObj i o).setup = s.setup := rfl
@[simp] theorem setObj_setupErr (s : State) (i : Nat) (o : SyncObj) : (s.setObj i o).setupErr = s.setupErr := rfl
@[simp] theorem setObj_cnt (s : State) (i : Nat) (o : SyncObj) : (s.setObj i o).cnt = s.cnt := rfl
@[simp] theorem setObj_mem (s : State) (i : Nat) (o : SyncObj) : (s.setObj i o).mem = s.mem := rfl
@[simp] theorem setObj_tags (s : State) (i : Nat) (o : SyncObj) : (s.setObj i o).tags = s.tags := rfl
@[simp] theorem setObj_pages (s : State) (i : Nat) (o : SyncObj) : (s.setObj i o).pages = s.pages := rfl
@[simp] theorem setObj_movers (s : State) (i : Nat) (o : SyncObj) : (s.setObj i o).movers = s.movers := rfl
@[simp] theorem setObj_memErrs (s : State) (i : Nat) (o : SyncObj) : (s.setObj i o).memErrs = s.memErrs := rfl
@[simp] theorem setObj_scrubLine (s : State) (i : Nat) (o : SyncObj) : (s.setObj i o).scrubLine = s.scrubLine := rfl
@[simp] theorem setObj_cells (s : State) (i : Nat) (o : SyncObj) : (s.setObj i o).cells = s.cells := rfl
@[simp] theorem setObj_faultRecs (s : State) (i : Nat) (o : SyncObj) : (s.setObj i o).faultRecs = s.faultRecs := rfl
@[simp] theorem setObj_sync (s : State) (i : Nat) (o : SyncObj) : (s.setObj i o).sync = sset {} s.sync i o := rfl
@[simp] theorem setObj_syncWaits (s : State) (i : Nat) (o : SyncObj) : (s.setObj i o).syncWaits = s.syncWaits := rfl
@[simp] theorem setObj_hst (s : State) (i : Nat) (o : SyncObj) : (s.setObj i o).hst = s.hst := rfl
@[simp] theorem setObj_ctxs (s : State) (i : Nat) (o : SyncObj) : (s.setObj i o).ctxs = s.ctxs := rfl
@[simp] theorem setObj_jobs (s : State) (i : Nat) (o : SyncObj) : (s.setObj i o).jobs = s.jobs := rfl
@[simp] theorem setObj_tt (s : State) (i : Nat) (o : SyncObj) : (s.setObj i o).tt = s.tt := rfl
@[simp] theorem setObj_fry (s : State) (i : Nat) (o : SyncObj) : (s.setObj i o).fry = s.fry := rfl
@[simp] theorem setObj_streams (s : State) (i : Nat) (o : SyncObj) : (s.setObj i o).streams = s.streams := rfl
@[simp] theorem setObj_itkReset (s : State) (i : Nat) (o : SyncObj) : (s.setObj i o).itkReset = s.itkReset := rfl
@[simp] theorem setObj_ethq (s : State) (i : Nat) (o : SyncObj) : (s.setObj i o).ethq = s.ethq := rfl
@[simp] theorem setObj_eth (s : State) (i : Nat) (o : SyncObj) : (s.setObj i o).eth = s.eth := rfl
@[simp] theorem setObj_ethUp (s : State) (i : Nat) (o : SyncObj) : (s.setObj i o).ethUp = s.ethUp := rfl
@[simp] theorem setObj_ethAddr (s : State) (i : Nat) (o : SyncObj) : (s.setObj i o).ethAddr = s.ethAddr := rfl
@[simp] theorem setObj_ethOut (s : State) (i : Nat) (o : SyncObj) : (s.setObj i o).ethOut = s.ethOut := rfl
@[simp] theorem setObj_mgmtRx (s : State) (i : Nat) (o : SyncObj) : (s.setObj i o).mgmtRx = s.mgmtRx := rfl
@[simp] theorem setObj_tow (s : State) (i : Nat) (o : SyncObj) : (s.setObj i o).tow = s.tow := rfl
@[simp] theorem setObj_fab (s : State) (i : Nat) (o : SyncObj) : (s.setObj i o).fab = s.fab := rfl
@[simp] theorem setObj_agent (s : State) (i : Nat) (o : SyncObj) : (s.setObj i o).agent = s.agent := rfl
@[simp] theorem setObj_wm (s : State) (i : Nat) (o : SyncObj) : (s.setObj i o).wm = s.wm := rfl
@[simp] theorem setObj_pw (s : State) (i : Nat) (o : SyncObj) : (s.setObj i o).pw = s.pw := rfl
@[simp] theorem setObj_mon (s : State) (i : Nat) (o : SyncObj) : (s.setObj i o).mon = s.mon := rfl
@[simp] theorem setObj_keys (s : State) (i : Nat) (o : SyncObj) : (s.setObj i o).keys = s.keys := rfl
@[simp] theorem setObj_ids (s : State) (i : Nat) (o : SyncObj) : (s.setObj i o).ids = s.ids := rfl
@[simp] theorem setObj_removal (s : State) (i : Nat) (o : SyncObj) : (s.setObj i o).removal = s.removal := rfl
@[simp] theorem setObj_removeQueue (s : State) (i : Nat) (o : SyncObj) : (s.setObj i o).removeQueue = s.removeQueue := rfl
@[simp] theorem setObj_fw (s : State) (i : Nat) (o : SyncObj) : (s.setObj i o).fw = s.fw := rfl
@[simp] theorem setObj_flash (s : State) (i : Nat) (o : SyncObj) : (s.setObj i o).flash = s.flash := rfl
@[simp] theorem setObj_rst (s : State) (i : Nat) (o : SyncObj) : (s.setObj i o).rst = s.rst := rfl
@[simp] theorem setObj_boot (s : State) (i : Nat) (o : SyncObj) : (s.setObj i o).boot = s.boot := rfl
@[simp] theorem setObj_maps (s : State) (i : Nat) (o : SyncObj) : (s.setObj i o).maps = s.maps := rfl
@[simp] theorem setObj_frz (s : State) (i : Nat) (o : SyncObj) : (s.setObj i o).frz = s.frz := rfl
@[simp] theorem setObj_sup (s : State) (i : Nat) (o : SyncObj) : (s.setObj i o).sup = s.sup := rfl
@[simp] theorem setObj_uart (s : State) (i : Nat) (o : SyncObj) : (s.setObj i o).uart = s.uart := rfl
@[simp] theorem setObj_jtag (s : State) (i : Nat) (o : SyncObj) : (s.setObj i o).jtag = s.jtag := rfl
@[simp] theorem setObj_ledTestEnd (s : State) (i : Nat) (o : SyncObj) : (s.setObj i o).ledTestEnd = s.ledTestEnd := rfl
@[simp] theorem setObj_debugLocked (s : State) (i : Nat) (o : SyncObj) : (s.setObj i o).debugLocked = s.debugLocked := rfl
@[simp] theorem setObj_debugOpen (s : State) (i : Nat) (o : SyncObj) : (s.setObj i o).debugOpen = s.debugOpen := rfl
@[simp] theorem setObj_selftestFailed (s : State) (i : Nat) (o : SyncObj) : (s.setObj i o).selftestFailed = s.selftestFailed := rfl

/-! ### setTicket -/

@[simp] theorem setTicket_pending (s : State) (k : Nat) (t : Ticket) : (s.setTicket k t).pending = s.pending := rfl
@[simp] theorem setTicket_freeCtr (s : State) (k : Nat) (t : Ticket) : (s.setTicket k t).freeCtr = s.freeCtr := rfl
@[simp] theorem setTicket_time (s : State) (k : Nat) (t : Ticket) : (s.setTicket k t).time = s.time := rfl
@[simp] theorem setTicket_setup (s : State) (k : Nat) (t : Ticket) : (s.setTicket k t).setup = s.setup := rfl
@[simp] theorem setTicket_setupErr (s : State) (k : Nat) (t : Ticket) : (s.setTicket k t).setupErr = s.setupErr := rfl
@[simp] theorem setTicket_cnt (s : State) (k : Nat) (t : Ticket) : (s.setTicket k t).cnt = s.cnt := rfl
@[simp] theorem setTicket_mem (s : State) (k : Nat) (t : Ticket) : (s.setTicket k t).mem = s.mem := rfl
@[simp] theorem setTicket_tags (s : State) (k : Nat) (t : Ticket) : (s.setTicket k t).tags = s.tags := rfl
@[simp] theorem setTicket_pages (s : State) (k : Nat) (t : Ticket) : (s.setTicket k t).pages = s.pages := rfl
@[simp] theorem setTicket_movers (s : State) (k : Nat) (t : Ticket) : (s.setTicket k t).movers = s.movers := rfl
@[simp] theorem setTicket_memErrs (s : State) (k : Nat) (t : Ticket) : (s.setTicket k t).memErrs = s.memErrs := rfl
@[simp] theorem setTicket_scrubLine (s : State) (k : Nat) (t : Ticket) : (s.setTicket k t).scrubLine = s.scrubLine := rfl
@[simp] theorem setTicket_cells (s : State) (k : Nat) (t : Ticket) : (s.setTicket k t).cells = s.cells := rfl
@[simp] theorem setTicket_faultRecs (s : State) (k : Nat) (t : Ticket) : (s.setTicket k t).faultRecs = s.faultRecs := rfl
@[simp] theorem setTicket_sync (s : State) (k : Nat) (t : Ticket) : (s.setTicket k t).sync = s.sync := rfl
@[simp] theorem setTicket_syncWaits (s : State) (k : Nat) (t : Ticket) : (s.setTicket k t).syncWaits = s.syncWaits := rfl
@[simp] theorem setTicket_hst (s : State) (k : Nat) (t : Ticket) : (s.setTicket k t).hst = s.hst := rfl
@[simp] theorem setTicket_ctxs (s : State) (k : Nat) (t : Ticket) : (s.setTicket k t).ctxs = s.ctxs := rfl
@[simp] theorem setTicket_jobs (s : State) (k : Nat) (t : Ticket) : (s.setTicket k t).jobs = s.jobs := rfl
@[simp] theorem setTicket_tt (s : State) (k : Nat) (t : Ticket) : (s.setTicket k t).tt = s.tt := rfl
@[simp] theorem setTicket_fry (s : State) (k : Nat) (t : Ticket) : (s.setTicket k t).fry = { s.fry with tickets := sset {} s.fry.tickets k t } := rfl
@[simp] theorem setTicket_streams (s : State) (k : Nat) (t : Ticket) : (s.setTicket k t).streams = s.streams := rfl
@[simp] theorem setTicket_itkReset (s : State) (k : Nat) (t : Ticket) : (s.setTicket k t).itkReset = s.itkReset := rfl
@[simp] theorem setTicket_ethq (s : State) (k : Nat) (t : Ticket) : (s.setTicket k t).ethq = s.ethq := rfl
@[simp] theorem setTicket_eth (s : State) (k : Nat) (t : Ticket) : (s.setTicket k t).eth = s.eth := rfl
@[simp] theorem setTicket_ethUp (s : State) (k : Nat) (t : Ticket) : (s.setTicket k t).ethUp = s.ethUp := rfl
@[simp] theorem setTicket_ethAddr (s : State) (k : Nat) (t : Ticket) : (s.setTicket k t).ethAddr = s.ethAddr := rfl
@[simp] theorem setTicket_ethOut (s : State) (k : Nat) (t : Ticket) : (s.setTicket k t).ethOut = s.ethOut := rfl
@[simp] theorem setTicket_mgmtRx (s : State) (k : Nat) (t : Ticket) : (s.setTicket k t).mgmtRx = s.mgmtRx := rfl
@[simp] theorem setTicket_tow (s : State) (k : Nat) (t : Ticket) : (s.setTicket k t).tow = s.tow := rfl
@[simp] theorem setTicket_fab (s : State) (k : Nat) (t : Ticket) : (s.setTicket k t).fab = s.fab := rfl
@[simp] theorem setTicket_agent (s : State) (k : Nat) (t : Ticket) : (s.setTicket k t).agent = s.agent := rfl
@[simp] theorem setTicket_wm (s : State) (k : Nat) (t : Ticket) : (s.setTicket k t).wm = s.wm := rfl
@[simp] theorem setTicket_pw (s : State) (k : Nat) (t : Ticket) : (s.setTicket k t).pw = s.pw := rfl
@[simp] theorem setTicket_mon (s : State) (k : Nat) (t : Ticket) : (s.setTicket k t).mon = s.mon := rfl
@[simp] theorem setTicket_keys (s : State) (k : Nat) (t : Ticket) : (s.setTicket k t).keys = s.keys := rfl
@[simp] theorem setTicket_ids (s : State) (k : Nat) (t : Ticket) : (s.setTicket k t).ids = s.ids := rfl
@[simp] theorem setTicket_removal (s : State) (k : Nat) (t : Ticket) : (s.setTicket k t).removal = s.removal := rfl
@[simp] theorem setTicket_removeQueue (s : State) (k : Nat) (t : Ticket) : (s.setTicket k t).removeQueue = s.removeQueue := rfl
@[simp] theorem setTicket_fw (s : State) (k : Nat) (t : Ticket) : (s.setTicket k t).fw = s.fw := rfl
@[simp] theorem setTicket_flash (s : State) (k : Nat) (t : Ticket) : (s.setTicket k t).flash = s.flash := rfl
@[simp] theorem setTicket_rst (s : State) (k : Nat) (t : Ticket) : (s.setTicket k t).rst = s.rst := rfl
@[simp] theorem setTicket_boot (s : State) (k : Nat) (t : Ticket) : (s.setTicket k t).boot = s.boot := rfl
@[simp] theorem setTicket_maps (s : State) (k : Nat) (t : Ticket) : (s.setTicket k t).maps = s.maps := rfl
@[simp] theorem setTicket_frz (s : State) (k : Nat) (t : Ticket) : (s.setTicket k t).frz = s.frz := rfl
@[simp] theorem setTicket_sup (s : State) (k : Nat) (t : Ticket) : (s.setTicket k t).sup = s.sup := rfl
@[simp] theorem setTicket_uart (s : State) (k : Nat) (t : Ticket) : (s.setTicket k t).uart = s.uart := rfl
@[simp] theorem setTicket_jtag (s : State) (k : Nat) (t : Ticket) : (s.setTicket k t).jtag = s.jtag := rfl
@[simp] theorem setTicket_ledTestEnd (s : State) (k : Nat) (t : Ticket) : (s.setTicket k t).ledTestEnd = s.ledTestEnd := rfl
@[simp] theorem setTicket_debugLocked (s : State) (k : Nat) (t : Ticket) : (s.setTicket k t).debugLocked = s.debugLocked := rfl
@[simp] theorem setTicket_debugOpen (s : State) (k : Nat) (t : Ticket) : (s.setTicket k t).debugOpen = s.debugOpen := rfl
@[simp] theorem setTicket_selftestFailed (s : State) (k : Nat) (t : Ticket) : (s.setTicket k t).selftestFailed = s.selftestFailed := rfl

/-! ### updStream -/

@[simp] theorem updStream_pending (s : State) (i : Nat) (f : Stream → Stream) : (s.updStream i f).pending = s.pending := rfl
@[simp] theorem updStream_freeCtr (s : State) (i : Nat) (f : Stream → Stream) : (s.updStream i f).freeCtr = s.freeCtr := rfl
@[simp] theorem updStream_time (s : State) (i : Nat) (f : Stream → Stream) : (s.updStream i f).time = s.time := rfl
@[simp] theorem updStream_setup (s : State) (i : Nat) (f : Stream → Stream) : (s.updStream i f).setup = s.setup := rfl
@[simp] theorem updStream_setupErr (s : State) (i : Nat) (f : Stream → Stream) : (s.updStream i f).setupErr = s.setupErr := rfl
@[simp] theorem updStream_cnt (s : State) (i : Nat) (f : Stream → Stream) : (s.updStream i f).cnt = s.cnt := rfl
@[simp] theorem updStream_mem (s : State) (i : Nat) (f : Stream → Stream) : (s.updStream i f).mem = s.mem := rfl
@[simp] theorem updStream_tags (s : State) (i : Nat) (f : Stream → Stream) : (s.updStream i f).tags = s.tags := rfl
@[simp] theorem updStream_pages (s : State) (i : Nat) (f : Stream → Stream) : (s.updStream i f).pages = s.pages := rfl
@[simp] theorem updStream_movers (s : State) (i : Nat) (f : Stream → Stream) : (s.updStream i f).movers = s.movers := rfl
@[simp] theorem updStream_memErrs (s : State) (i : Nat) (f : Stream → Stream) : (s.updStream i f).memErrs = s.memErrs := rfl
@[simp] theorem updStream_scrubLine (s : State) (i : Nat) (f : Stream → Stream) : (s.updStream i f).scrubLine = s.scrubLine := rfl
@[simp] theorem updStream_cells (s : State) (i : Nat) (f : Stream → Stream) : (s.updStream i f).cells = s.cells := rfl
@[simp] theorem updStream_faultRecs (s : State) (i : Nat) (f : Stream → Stream) : (s.updStream i f).faultRecs = s.faultRecs := rfl
@[simp] theorem updStream_sync (s : State) (i : Nat) (f : Stream → Stream) : (s.updStream i f).sync = s.sync := rfl
@[simp] theorem updStream_syncWaits (s : State) (i : Nat) (f : Stream → Stream) : (s.updStream i f).syncWaits = s.syncWaits := rfl
@[simp] theorem updStream_hst (s : State) (i : Nat) (f : Stream → Stream) : (s.updStream i f).hst = s.hst := rfl
@[simp] theorem updStream_ctxs (s : State) (i : Nat) (f : Stream → Stream) : (s.updStream i f).ctxs = s.ctxs := rfl
@[simp] theorem updStream_jobs (s : State) (i : Nat) (f : Stream → Stream) : (s.updStream i f).jobs = s.jobs := rfl
@[simp] theorem updStream_tt (s : State) (i : Nat) (f : Stream → Stream) : (s.updStream i f).tt = s.tt := rfl
@[simp] theorem updStream_fry (s : State) (i : Nat) (f : Stream → Stream) : (s.updStream i f).fry = s.fry := rfl
@[simp] theorem updStream_streams (s : State) (i : Nat) (f : Stream → Stream) : (s.updStream i f).streams = s.streams.map fun x => if x.inst = i then f x else x := rfl
@[simp] theorem updStream_itkReset (s : State) (i : Nat) (f : Stream → Stream) : (s.updStream i f).itkReset = s.itkReset := rfl
@[simp] theorem updStream_ethq (s : State) (i : Nat) (f : Stream → Stream) : (s.updStream i f).ethq = s.ethq := rfl
@[simp] theorem updStream_eth (s : State) (i : Nat) (f : Stream → Stream) : (s.updStream i f).eth = s.eth := rfl
@[simp] theorem updStream_ethUp (s : State) (i : Nat) (f : Stream → Stream) : (s.updStream i f).ethUp = s.ethUp := rfl
@[simp] theorem updStream_ethAddr (s : State) (i : Nat) (f : Stream → Stream) : (s.updStream i f).ethAddr = s.ethAddr := rfl
@[simp] theorem updStream_ethOut (s : State) (i : Nat) (f : Stream → Stream) : (s.updStream i f).ethOut = s.ethOut := rfl
@[simp] theorem updStream_mgmtRx (s : State) (i : Nat) (f : Stream → Stream) : (s.updStream i f).mgmtRx = s.mgmtRx := rfl
@[simp] theorem updStream_tow (s : State) (i : Nat) (f : Stream → Stream) : (s.updStream i f).tow = s.tow := rfl
@[simp] theorem updStream_fab (s : State) (i : Nat) (f : Stream → Stream) : (s.updStream i f).fab = s.fab := rfl
@[simp] theorem updStream_agent (s : State) (i : Nat) (f : Stream → Stream) : (s.updStream i f).agent = s.agent := rfl
@[simp] theorem updStream_wm (s : State) (i : Nat) (f : Stream → Stream) : (s.updStream i f).wm = s.wm := rfl
@[simp] theorem updStream_pw (s : State) (i : Nat) (f : Stream → Stream) : (s.updStream i f).pw = s.pw := rfl
@[simp] theorem updStream_mon (s : State) (i : Nat) (f : Stream → Stream) : (s.updStream i f).mon = s.mon := rfl
@[simp] theorem updStream_keys (s : State) (i : Nat) (f : Stream → Stream) : (s.updStream i f).keys = s.keys := rfl
@[simp] theorem updStream_ids (s : State) (i : Nat) (f : Stream → Stream) : (s.updStream i f).ids = s.ids := rfl
@[simp] theorem updStream_removal (s : State) (i : Nat) (f : Stream → Stream) : (s.updStream i f).removal = s.removal := rfl
@[simp] theorem updStream_removeQueue (s : State) (i : Nat) (f : Stream → Stream) : (s.updStream i f).removeQueue = s.removeQueue := rfl
@[simp] theorem updStream_fw (s : State) (i : Nat) (f : Stream → Stream) : (s.updStream i f).fw = s.fw := rfl
@[simp] theorem updStream_flash (s : State) (i : Nat) (f : Stream → Stream) : (s.updStream i f).flash = s.flash := rfl
@[simp] theorem updStream_rst (s : State) (i : Nat) (f : Stream → Stream) : (s.updStream i f).rst = s.rst := rfl
@[simp] theorem updStream_boot (s : State) (i : Nat) (f : Stream → Stream) : (s.updStream i f).boot = s.boot := rfl
@[simp] theorem updStream_maps (s : State) (i : Nat) (f : Stream → Stream) : (s.updStream i f).maps = s.maps := rfl
@[simp] theorem updStream_frz (s : State) (i : Nat) (f : Stream → Stream) : (s.updStream i f).frz = s.frz := rfl
@[simp] theorem updStream_sup (s : State) (i : Nat) (f : Stream → Stream) : (s.updStream i f).sup = s.sup := rfl
@[simp] theorem updStream_uart (s : State) (i : Nat) (f : Stream → Stream) : (s.updStream i f).uart = s.uart := rfl
@[simp] theorem updStream_jtag (s : State) (i : Nat) (f : Stream → Stream) : (s.updStream i f).jtag = s.jtag := rfl
@[simp] theorem updStream_ledTestEnd (s : State) (i : Nat) (f : Stream → Stream) : (s.updStream i f).ledTestEnd = s.ledTestEnd := rfl
@[simp] theorem updStream_debugLocked (s : State) (i : Nat) (f : Stream → Stream) : (s.updStream i f).debugLocked = s.debugLocked := rfl
@[simp] theorem updStream_debugOpen (s : State) (i : Nat) (f : Stream → Stream) : (s.updStream i f).debugOpen = s.debugOpen := rfl
@[simp] theorem updStream_selftestFailed (s : State) (i : Nat) (f : Stream → Stream) : (s.updStream i f).selftestFailed = s.selftestFailed := rfl

/-! ### setVc -/

@[simp] theorem setVc_pending (s : State) (port vc : Nat) (b : List Buffered) : (s.setVc port vc b).pending = s.pending := rfl
@[simp] theorem setVc_freeCtr (s : State) (port vc : Nat) (b : List Buffered) : (s.setVc port vc b).freeCtr = s.freeCtr := rfl
@[simp] theorem setVc_time (s : State) (port vc : Nat) (b : List Buffered) : (s.setVc port vc b).time = s.time := rfl
@[simp] theorem setVc_setup (s : State) (port vc : Nat) (b : List Buffered) : (s.setVc port vc b).setup = s.setup := rfl
@[simp] theorem setVc_setupErr (s : State) (port vc : Nat) (b : List Buffered) : (s.setVc port vc b).setupErr = s.setupErr := rfl
@[simp] theorem setVc_cnt (s : State) (port vc : Nat) (b : List Buffered) : (s.setVc port vc b).cnt = s.cnt := rfl
@[simp] theorem setVc_mem (s : State) (port vc : Nat) (b : List Buffered) : (s.setVc port vc b).mem = s.mem := rfl
@[simp] theorem setVc_tags (s : State) (port vc : Nat) (b : List Buffered) : (s.setVc port vc b).tags = s.tags := rfl
@[simp] theorem setVc_pages (s : State) (port vc : Nat) (b : List Buffered) : (s.setVc port vc b).pages = s.pages := rfl
@[simp] theorem setVc_movers (s : State) (port vc : Nat) (b : List Buffered) : (s.setVc port vc b).movers = s.movers := rfl
@[simp] theorem setVc_memErrs (s : State) (port vc : Nat) (b : List Buffered) : (s.setVc port vc b).memErrs = s.memErrs := rfl
@[simp] theorem setVc_scrubLine (s : State) (port vc : Nat) (b : List Buffered) : (s.setVc port vc b).scrubLine = s.scrubLine := rfl
@[simp] theorem setVc_cells (s : State) (port vc : Nat) (b : List Buffered) : (s.setVc port vc b).cells = s.cells := rfl
@[simp] theorem setVc_faultRecs (s : State) (port vc : Nat) (b : List Buffered) : (s.setVc port vc b).faultRecs = s.faultRecs := rfl
@[simp] theorem setVc_sync (s : State) (port vc : Nat) (b : List Buffered) : (s.setVc port vc b).sync = s.sync := rfl
@[simp] theorem setVc_syncWaits (s : State) (port vc : Nat) (b : List Buffered) : (s.setVc port vc b).syncWaits = s.syncWaits := rfl
@[simp] theorem setVc_hst (s : State) (port vc : Nat) (b : List Buffered) : (s.setVc port vc b).hst = s.hst := rfl
@[simp] theorem setVc_ctxs (s : State) (port vc : Nat) (b : List Buffered) : (s.setVc port vc b).ctxs = s.ctxs := rfl
@[simp] theorem setVc_jobs (s : State) (port vc : Nat) (b : List Buffered) : (s.setVc port vc b).jobs = s.jobs := rfl
@[simp] theorem setVc_tt (s : State) (port vc : Nat) (b : List Buffered) : (s.setVc port vc b).tt = s.tt := rfl
@[simp] theorem setVc_fry (s : State) (port vc : Nat) (b : List Buffered) : (s.setVc port vc b).fry = s.fry := rfl
@[simp] theorem setVc_streams (s : State) (port vc : Nat) (b : List Buffered) : (s.setVc port vc b).streams = s.streams := rfl
@[simp] theorem setVc_itkReset (s : State) (port vc : Nat) (b : List Buffered) : (s.setVc port vc b).itkReset = s.itkReset := rfl
@[simp] theorem setVc_ethq (s : State) (port vc : Nat) (b : List Buffered) : (s.setVc port vc b).ethq = s.ethq := rfl
@[simp] theorem setVc_eth (s : State) (port vc : Nat) (b : List Buffered) : (s.setVc port vc b).eth = s.eth := rfl
@[simp] theorem setVc_ethUp (s : State) (port vc : Nat) (b : List Buffered) : (s.setVc port vc b).ethUp = s.ethUp := rfl
@[simp] theorem setVc_ethAddr (s : State) (port vc : Nat) (b : List Buffered) : (s.setVc port vc b).ethAddr = s.ethAddr := rfl
@[simp] theorem setVc_ethOut (s : State) (port vc : Nat) (b : List Buffered) : (s.setVc port vc b).ethOut = s.ethOut := rfl
@[simp] theorem setVc_mgmtRx (s : State) (port vc : Nat) (b : List Buffered) : (s.setVc port vc b).mgmtRx = s.mgmtRx := rfl
@[simp] theorem setVc_tow (s : State) (port vc : Nat) (b : List Buffered) : (s.setVc port vc b).tow = s.tow := rfl
@[simp] theorem setVc_fab (s : State) (port vc : Nat) (b : List Buffered) : (s.setVc port vc b).fab = { s.fab with vcs := sset [] s.fab.vcs (6 * port + vc) b } := rfl
@[simp] theorem setVc_agent (s : State) (port vc : Nat) (b : List Buffered) : (s.setVc port vc b).agent = s.agent := rfl
@[simp] theorem setVc_wm (s : State) (port vc : Nat) (b : List Buffered) : (s.setVc port vc b).wm = s.wm := rfl
@[simp] theorem setVc_pw (s : State) (port vc : Nat) (b : List Buffered) : (s.setVc port vc b).pw = s.pw := rfl
@[simp] theorem setVc_mon (s : State) (port vc : Nat) (b : List Buffered) : (s.setVc port vc b).mon = s.mon := rfl
@[simp] theorem setVc_keys (s : State) (port vc : Nat) (b : List Buffered) : (s.setVc port vc b).keys = s.keys := rfl
@[simp] theorem setVc_ids (s : State) (port vc : Nat) (b : List Buffered) : (s.setVc port vc b).ids = s.ids := rfl
@[simp] theorem setVc_removal (s : State) (port vc : Nat) (b : List Buffered) : (s.setVc port vc b).removal = s.removal := rfl
@[simp] theorem setVc_removeQueue (s : State) (port vc : Nat) (b : List Buffered) : (s.setVc port vc b).removeQueue = s.removeQueue := rfl
@[simp] theorem setVc_fw (s : State) (port vc : Nat) (b : List Buffered) : (s.setVc port vc b).fw = s.fw := rfl
@[simp] theorem setVc_flash (s : State) (port vc : Nat) (b : List Buffered) : (s.setVc port vc b).flash = s.flash := rfl
@[simp] theorem setVc_rst (s : State) (port vc : Nat) (b : List Buffered) : (s.setVc port vc b).rst = s.rst := rfl
@[simp] theorem setVc_boot (s : State) (port vc : Nat) (b : List Buffered) : (s.setVc port vc b).boot = s.boot := rfl
@[simp] theorem setVc_maps (s : State) (port vc : Nat) (b : List Buffered) : (s.setVc port vc b).maps = s.maps := rfl
@[simp] theorem setVc_frz (s : State) (port vc : Nat) (b : List Buffered) : (s.setVc port vc b).frz = s.frz := rfl
@[simp] theorem setVc_sup (s : State) (port vc : Nat) (b : List Buffered) : (s.setVc port vc b).sup = s.sup := rfl
@[simp] theorem setVc_uart (s : State) (port vc : Nat) (b : List Buffered) : (s.setVc port vc b).uart = s.uart := rfl
@[simp] theorem setVc_jtag (s : State) (port vc : Nat) (b : List Buffered) : (s.setVc port vc b).jtag = s.jtag := rfl
@[simp] theorem setVc_ledTestEnd (s : State) (port vc : Nat) (b : List Buffered) : (s.setVc port vc b).ledTestEnd = s.ledTestEnd := rfl
@[simp] theorem setVc_debugLocked (s : State) (port vc : Nat) (b : List Buffered) : (s.setVc port vc b).debugLocked = s.debugLocked := rfl
@[simp] theorem setVc_debugOpen (s : State) (port vc : Nat) (b : List Buffered) : (s.setVc port vc b).debugOpen = s.debugOpen := rfl
@[simp] theorem setVc_selftestFailed (s : State) (port vc : Nat) (b : List Buffered) : (s.setVc port vc b).selftestFailed = s.selftestFailed := rfl

/-! ### updPort -/

@[simp] theorem updPort_pending (s : State) (q : Nat) (f : PortSt → PortSt) : (s.updPort q f).pending = s.pending := rfl
@[simp] theorem updPort_freeCtr (s : State) (q : Nat) (f : PortSt → PortSt) : (s.updPort q f).freeCtr = s.freeCtr := rfl
@[simp] theorem updPort_time (s : State) (q : Nat) (f : PortSt → PortSt) : (s.updPort q f).time = s.time := rfl
@[simp] theorem updPort_setup (s : State) (q : Nat) (f : PortSt → PortSt) : (s.updPort q f).setup = s.setup := rfl
@[simp] theorem updPort_setupErr (s : State) (q : Nat) (f : PortSt → PortSt) : (s.updPort q f).setupErr = s.setupErr := rfl
@[simp] theorem updPort_cnt (s : State) (q : Nat) (f : PortSt → PortSt) : (s.updPort q f).cnt = s.cnt := rfl
@[simp] theorem updPort_mem (s : State) (q : Nat) (f : PortSt → PortSt) : (s.updPort q f).mem = s.mem := rfl
@[simp] theorem updPort_tags (s : State) (q : Nat) (f : PortSt → PortSt) : (s.updPort q f).tags = s.tags := rfl
@[simp] theorem updPort_pages (s : State) (q : Nat) (f : PortSt → PortSt) : (s.updPort q f).pages = s.pages := rfl
@[simp] theorem updPort_movers (s : State) (q : Nat) (f : PortSt → PortSt) : (s.updPort q f).movers = s.movers := rfl
@[simp] theorem updPort_memErrs (s : State) (q : Nat) (f : PortSt → PortSt) : (s.updPort q f).memErrs = s.memErrs := rfl
@[simp] theorem updPort_scrubLine (s : State) (q : Nat) (f : PortSt → PortSt) : (s.updPort q f).scrubLine = s.scrubLine := rfl
@[simp] theorem updPort_cells (s : State) (q : Nat) (f : PortSt → PortSt) : (s.updPort q f).cells = s.cells := rfl
@[simp] theorem updPort_faultRecs (s : State) (q : Nat) (f : PortSt → PortSt) : (s.updPort q f).faultRecs = s.faultRecs := rfl
@[simp] theorem updPort_sync (s : State) (q : Nat) (f : PortSt → PortSt) : (s.updPort q f).sync = s.sync := rfl
@[simp] theorem updPort_syncWaits (s : State) (q : Nat) (f : PortSt → PortSt) : (s.updPort q f).syncWaits = s.syncWaits := rfl
@[simp] theorem updPort_hst (s : State) (q : Nat) (f : PortSt → PortSt) : (s.updPort q f).hst = s.hst := rfl
@[simp] theorem updPort_ctxs (s : State) (q : Nat) (f : PortSt → PortSt) : (s.updPort q f).ctxs = s.ctxs := rfl
@[simp] theorem updPort_jobs (s : State) (q : Nat) (f : PortSt → PortSt) : (s.updPort q f).jobs = s.jobs := rfl
@[simp] theorem updPort_tt (s : State) (q : Nat) (f : PortSt → PortSt) : (s.updPort q f).tt = s.tt := rfl
@[simp] theorem updPort_fry (s : State) (q : Nat) (f : PortSt → PortSt) : (s.updPort q f).fry = s.fry := rfl
@[simp] theorem updPort_streams (s : State) (q : Nat) (f : PortSt → PortSt) : (s.updPort q f).streams = s.streams := rfl
@[simp] theorem updPort_itkReset (s : State) (q : Nat) (f : PortSt → PortSt) : (s.updPort q f).itkReset = s.itkReset := rfl
@[simp] theorem updPort_ethq (s : State) (q : Nat) (f : PortSt → PortSt) : (s.updPort q f).ethq = s.ethq := rfl
@[simp] theorem updPort_eth (s : State) (q : Nat) (f : PortSt → PortSt) : (s.updPort q f).eth = s.eth := rfl
@[simp] theorem updPort_ethUp (s : State) (q : Nat) (f : PortSt → PortSt) : (s.updPort q f).ethUp = s.ethUp := rfl
@[simp] theorem updPort_ethAddr (s : State) (q : Nat) (f : PortSt → PortSt) : (s.updPort q f).ethAddr = s.ethAddr := rfl
@[simp] theorem updPort_ethOut (s : State) (q : Nat) (f : PortSt → PortSt) : (s.updPort q f).ethOut = s.ethOut := rfl
@[simp] theorem updPort_mgmtRx (s : State) (q : Nat) (f : PortSt → PortSt) : (s.updPort q f).mgmtRx = s.mgmtRx := rfl
@[simp] theorem updPort_tow (s : State) (q : Nat) (f : PortSt → PortSt) : (s.updPort q f).tow = s.tow := rfl
@[simp] theorem updPort_fab (s : State) (q : Nat) (f : PortSt → PortSt) : (s.updPort q f).fab = { s.fab with ports := supd {} s.fab.ports q f } := rfl
@[simp] theorem updPort_agent (s : State) (q : Nat) (f : PortSt → PortSt) : (s.updPort q f).agent = s.agent := rfl
@[simp] theorem updPort_wm (s : State) (q : Nat) (f : PortSt → PortSt) : (s.updPort q f).wm = s.wm := rfl
@[simp] theorem updPort_pw (s : State) (q : Nat) (f : PortSt → PortSt) : (s.updPort q f).pw = s.pw := rfl
@[simp] theorem updPort_mon (s : State) (q : Nat) (f : PortSt → PortSt) : (s.updPort q f).mon = s.mon := rfl
@[simp] theorem updPort_keys (s : State) (q : Nat) (f : PortSt → PortSt) : (s.updPort q f).keys = s.keys := rfl
@[simp] theorem updPort_ids (s : State) (q : Nat) (f : PortSt → PortSt) : (s.updPort q f).ids = s.ids := rfl
@[simp] theorem updPort_removal (s : State) (q : Nat) (f : PortSt → PortSt) : (s.updPort q f).removal = s.removal := rfl
@[simp] theorem updPort_removeQueue (s : State) (q : Nat) (f : PortSt → PortSt) : (s.updPort q f).removeQueue = s.removeQueue := rfl
@[simp] theorem updPort_fw (s : State) (q : Nat) (f : PortSt → PortSt) : (s.updPort q f).fw = s.fw := rfl
@[simp] theorem updPort_flash (s : State) (q : Nat) (f : PortSt → PortSt) : (s.updPort q f).flash = s.flash := rfl
@[simp] theorem updPort_rst (s : State) (q : Nat) (f : PortSt → PortSt) : (s.updPort q f).rst = s.rst := rfl
@[simp] theorem updPort_boot (s : State) (q : Nat) (f : PortSt → PortSt) : (s.updPort q f).boot = s.boot := rfl
@[simp] theorem updPort_maps (s : State) (q : Nat) (f : PortSt → PortSt) : (s.updPort q f).maps = s.maps := rfl
@[simp] theorem updPort_frz (s : State) (q : Nat) (f : PortSt → PortSt) : (s.updPort q f).frz = s.frz := rfl
@[simp] theorem updPort_sup (s : State) (q : Nat) (f : PortSt → PortSt) : (s.updPort q f).sup = s.sup := rfl
@[simp] theorem updPort_uart (s : State) (q : Nat) (f : PortSt → PortSt) : (s.updPort q f).uart = s.uart := rfl
@[simp] theorem updPort_jtag (s : State) (q : Nat) (f : PortSt → PortSt) : (s.updPort q f).jtag = s.jtag := rfl
@[simp] theorem updPort_ledTestEnd (s : State) (q : Nat) (f : PortSt → PortSt) : (s.updPort q f).ledTestEnd = s.ledTestEnd := rfl
@[simp] theorem updPort_debugLocked (s : State) (q : Nat) (f : PortSt → PortSt) : (s.updPort q f).debugLocked = s.debugLocked := rfl
@[simp] theorem updPort_debugOpen (s : State) (q : Nat) (f : PortSt → PortSt) : (s.updPort q f).debugOpen = s.debugOpen := rfl
@[simp] theorem updPort_selftestFailed (s : State) (q : Nat) (f : PortSt → PortSt) : (s.updPort q f).selftestFailed = s.selftestFailed := rfl

/-! ### updInst -/

@[simp] theorem updInst_pending (s : State) (id : Nat) (f : Instance → Instance) : (s.updInst id f).pending = s.pending := rfl
@[simp] theorem updInst_freeCtr (s : State) (id : Nat) (f : Instance → Instance) : (s.updInst id f).freeCtr = s.freeCtr := rfl
@[simp] theorem updInst_time (s : State) (id : Nat) (f : Instance → Instance) : (s.updInst id f).time = s.time := rfl
@[simp] theorem updInst_setup (s : State) (id : Nat) (f : Instance → Instance) : (s.updInst id f).setup = s.setup := rfl
@[simp] theorem updInst_setupErr (s : State) (id : Nat) (f : Instance → Instance) : (s.updInst id f).setupErr = s.setupErr := rfl
@[simp] theorem updInst_cnt (s : State) (id : Nat) (f : Instance → Instance) : (s.updInst id f).cnt = s.cnt := rfl
@[simp] theorem updInst_mem (s : State) (id : Nat) (f : Instance → Instance) : (s.updInst id f).mem = s.mem := rfl
@[simp] theorem updInst_tags (s : State) (id : Nat) (f : Instance → Instance) : (s.updInst id f).tags = s.tags := rfl
@[simp] theorem updInst_pages (s : State) (id : Nat) (f : Instance → Instance) : (s.updInst id f).pages = s.pages := rfl
@[simp] theorem updInst_movers (s : State) (id : Nat) (f : Instance → Instance) : (s.updInst id f).movers = s.movers := rfl
@[simp] theorem updInst_memErrs (s : State) (id : Nat) (f : Instance → Instance) : (s.updInst id f).memErrs = s.memErrs := rfl
@[simp] theorem updInst_scrubLine (s : State) (id : Nat) (f : Instance → Instance) : (s.updInst id f).scrubLine = s.scrubLine := rfl
@[simp] theorem updInst_cells (s : State) (id : Nat) (f : Instance → Instance) : (s.updInst id f).cells = s.cells := rfl
@[simp] theorem updInst_faultRecs (s : State) (id : Nat) (f : Instance → Instance) : (s.updInst id f).faultRecs = s.faultRecs := rfl
@[simp] theorem updInst_sync (s : State) (id : Nat) (f : Instance → Instance) : (s.updInst id f).sync = s.sync := rfl
@[simp] theorem updInst_syncWaits (s : State) (id : Nat) (f : Instance → Instance) : (s.updInst id f).syncWaits = s.syncWaits := rfl
@[simp] theorem updInst_hst (s : State) (id : Nat) (f : Instance → Instance) : (s.updInst id f).hst = s.hst := rfl
@[simp] theorem updInst_ctxs (s : State) (id : Nat) (f : Instance → Instance) : (s.updInst id f).ctxs = s.ctxs := rfl
@[simp] theorem updInst_jobs (s : State) (id : Nat) (f : Instance → Instance) : (s.updInst id f).jobs = s.jobs := rfl
@[simp] theorem updInst_tt (s : State) (id : Nat) (f : Instance → Instance) : (s.updInst id f).tt = { s.tt with instances := s.tt.instances.map fun i => if i.id = id then f i else i } := rfl
@[simp] theorem updInst_fry (s : State) (id : Nat) (f : Instance → Instance) : (s.updInst id f).fry = s.fry := rfl
@[simp] theorem updInst_streams (s : State) (id : Nat) (f : Instance → Instance) : (s.updInst id f).streams = s.streams := rfl
@[simp] theorem updInst_itkReset (s : State) (id : Nat) (f : Instance → Instance) : (s.updInst id f).itkReset = s.itkReset := rfl
@[simp] theorem updInst_ethq (s : State) (id : Nat) (f : Instance → Instance) : (s.updInst id f).ethq = s.ethq := rfl
@[simp] theorem updInst_eth (s : State) (id : Nat) (f : Instance → Instance) : (s.updInst id f).eth = s.eth := rfl
@[simp] theorem updInst_ethUp (s : State) (id : Nat) (f : Instance → Instance) : (s.updInst id f).ethUp = s.ethUp := rfl
@[simp] theorem updInst_ethAddr (s : State) (id : Nat) (f : Instance → Instance) : (s.updInst id f).ethAddr = s.ethAddr := rfl
@[simp] theorem updInst_ethOut (s : State) (id : Nat) (f : Instance → Instance) : (s.updInst id f).ethOut = s.ethOut := rfl
@[simp] theorem updInst_mgmtRx (s : State) (id : Nat) (f : Instance → Instance) : (s.updInst id f).mgmtRx = s.mgmtRx := rfl
@[simp] theorem updInst_tow (s : State) (id : Nat) (f : Instance → Instance) : (s.updInst id f).tow = s.tow := rfl
@[simp] theorem updInst_fab (s : State) (id : Nat) (f : Instance → Instance) : (s.updInst id f).fab = s.fab := rfl
@[simp] theorem updInst_agent (s : State) (id : Nat) (f : Instance → Instance) : (s.updInst id f).agent = s.agent := rfl
@[simp] theorem updInst_wm (s : State) (id : Nat) (f : Instance → Instance) : (s.updInst id f).wm = s.wm := rfl
@[simp] theorem updInst_pw (s : State) (id : Nat) (f : Instance → Instance) : (s.updInst id f).pw = s.pw := rfl
@[simp] theorem updInst_mon (s : State) (id : Nat) (f : Instance → Instance) : (s.updInst id f).mon = s.mon := rfl
@[simp] theorem updInst_keys (s : State) (id : Nat) (f : Instance → Instance) : (s.updInst id f).keys = s.keys := rfl
@[simp] theorem updInst_ids (s : State) (id : Nat) (f : Instance → Instance) : (s.updInst id f).ids = s.ids := rfl
@[simp] theorem updInst_removal (s : State) (id : Nat) (f : Instance → Instance) : (s.updInst id f).removal = s.removal := rfl
@[simp] theorem updInst_removeQueue (s : State) (id : Nat) (f : Instance → Instance) : (s.updInst id f).removeQueue = s.removeQueue := rfl
@[simp] theorem updInst_fw (s : State) (id : Nat) (f : Instance → Instance) : (s.updInst id f).fw = s.fw := rfl
@[simp] theorem updInst_flash (s : State) (id : Nat) (f : Instance → Instance) : (s.updInst id f).flash = s.flash := rfl
@[simp] theorem updInst_rst (s : State) (id : Nat) (f : Instance → Instance) : (s.updInst id f).rst = s.rst := rfl
@[simp] theorem updInst_boot (s : State) (id : Nat) (f : Instance → Instance) : (s.updInst id f).boot = s.boot := rfl
@[simp] theorem updInst_maps (s : State) (id : Nat) (f : Instance → Instance) : (s.updInst id f).maps = s.maps := rfl
@[simp] theorem updInst_frz (s : State) (id : Nat) (f : Instance → Instance) : (s.updInst id f).frz = s.frz := rfl
@[simp] theorem updInst_sup (s : State) (id : Nat) (f : Instance → Instance) : (s.updInst id f).sup = s.sup := rfl
@[simp] theorem updInst_uart (s : State) (id : Nat) (f : Instance → Instance) : (s.updInst id f).uart = s.uart := rfl
@[simp] theorem updInst_jtag (s : State) (id : Nat) (f : Instance → Instance) : (s.updInst id f).jtag = s.jtag := rfl
@[simp] theorem updInst_ledTestEnd (s : State) (id : Nat) (f : Instance → Instance) : (s.updInst id f).ledTestEnd = s.ledTestEnd := rfl
@[simp] theorem updInst_debugLocked (s : State) (id : Nat) (f : Instance → Instance) : (s.updInst id f).debugLocked = s.debugLocked := rfl
@[simp] theorem updInst_debugOpen (s : State) (id : Nat) (f : Instance → Instance) : (s.updInst id f).debugOpen = s.debugOpen := rfl
@[simp] theorem updInst_selftestFailed (s : State) (id : Nat) (f : Instance → Instance) : (s.updInst id f).selftestFailed = s.selftestFailed := rfl

/-! ### updSh -/

@[simp] theorem updSh_pending (s : State) (f : WmShared → WmShared) : (s.updSh f).pending = s.pending := rfl
@[simp] theorem updSh_freeCtr (s : State) (f : WmShared → WmShared) : (s.updSh f).freeCtr = s.freeCtr := rfl
@[simp] theorem updSh_time (s : State) (f : WmShared → WmShared) : (s.updSh f).time = s.time := rfl
@[simp] theorem updSh_setup (s : State) (f : WmShared → WmShared) : (s.updSh f).setup = s.setup := rfl
@[simp] theorem updSh_setupErr (s : State) (f : WmShared → WmShared) : (s.updSh f).setupErr = s.setupErr := rfl
@[simp] theorem updSh_cnt (s : State) (f : WmShared → WmShared) : (s.updSh f).cnt = s.cnt := rfl
@[simp] theorem updSh_mem (s : State) (f : WmShared → WmShared) : (s.updSh f).mem = s.mem := rfl
@[simp] theorem updSh_tags (s : State) (f : WmShared → WmShared) : (s.updSh f).tags = s.tags := rfl
@[simp] theorem updSh_pages (s : State) (f : WmShared → WmShared) : (s.updSh f).pages = s.pages := rfl
@[simp] theorem updSh_movers (s : State) (f : WmShared → WmShared) : (s.updSh f).movers = s.movers := rfl
@[simp] theorem updSh_memErrs (s : State) (f : WmShared → WmShared) : (s.updSh f).memErrs = s.memErrs := rfl
@[simp] theorem updSh_scrubLine (s : State) (f : WmShared → WmShared) : (s.updSh f).scrubLine = s.scrubLine := rfl
@[simp] theorem updSh_cells (s : State) (f : WmShared → WmShared) : (s.updSh f).cells = s.cells := rfl
@[simp] theorem updSh_faultRecs (s : State) (f : WmShared → WmShared) : (s.updSh f).faultRecs = s.faultRecs := rfl
@[simp] theorem updSh_sync (s : State) (f : WmShared → WmShared) : (s.updSh f).sync = s.sync := rfl
@[simp] theorem updSh_syncWaits (s : State) (f : WmShared → WmShared) : (s.updSh f).syncWaits = s.syncWaits := rfl
@[simp] theorem updSh_hst (s : State) (f : WmShared → WmShared) : (s.updSh f).hst = s.hst := rfl
@[simp] theorem updSh_ctxs (s : State) (f : WmShared → WmShared) : (s.updSh f).ctxs = s.ctxs := rfl
@[simp] theorem updSh_jobs (s : State) (f : WmShared → WmShared) : (s.updSh f).jobs = s.jobs := rfl
@[simp] theorem updSh_tt (s : State) (f : WmShared → WmShared) : (s.updSh f).tt = s.tt := rfl
@[simp] theorem updSh_fry (s : State) (f : WmShared → WmShared) : (s.updSh f).fry = s.fry := rfl
@[simp] theorem updSh_streams (s : State) (f : WmShared → WmShared) : (s.updSh f).streams = s.streams := rfl
@[simp] theorem updSh_itkReset (s : State) (f : WmShared → WmShared) : (s.updSh f).itkReset = s.itkReset := rfl
@[simp] theorem updSh_ethq (s : State) (f : WmShared → WmShared) : (s.updSh f).ethq = s.ethq := rfl
@[simp] theorem updSh_eth (s : State) (f : WmShared → WmShared) : (s.updSh f).eth = s.eth := rfl
@[simp] theorem updSh_ethUp (s : State) (f : WmShared → WmShared) : (s.updSh f).ethUp = s.ethUp := rfl
@[simp] theorem updSh_ethAddr (s : State) (f : WmShared → WmShared) : (s.updSh f).ethAddr = s.ethAddr := rfl
@[simp] theorem updSh_ethOut (s : State) (f : WmShared → WmShared) : (s.updSh f).ethOut = s.ethOut := rfl
@[simp] theorem updSh_mgmtRx (s : State) (f : WmShared → WmShared) : (s.updSh f).mgmtRx = s.mgmtRx := rfl
@[simp] theorem updSh_tow (s : State) (f : WmShared → WmShared) : (s.updSh f).tow = s.tow := rfl
@[simp] theorem updSh_fab (s : State) (f : WmShared → WmShared) : (s.updSh f).fab = s.fab := rfl
@[simp] theorem updSh_agent (s : State) (f : WmShared → WmShared) : (s.updSh f).agent = s.agent := rfl
@[simp] theorem updSh_wm (s : State) (f : WmShared → WmShared) : (s.updSh f).wm = { s.wm with sh := f s.wm.sh } := rfl
@[simp] theorem updSh_pw (s : State) (f : WmShared → WmShared) : (s.updSh f).pw = s.pw := rfl
@[simp] theorem updSh_mon (s : State) (f : WmShared → WmShared) : (s.updSh f).mon = s.mon := rfl
@[simp] theorem updSh_keys (s : State) (f : WmShared → WmShared) : (s.updSh f).keys = s.keys := rfl
@[simp] theorem updSh_ids (s : State) (f : WmShared → WmShared) : (s.updSh f).ids = s.ids := rfl
@[simp] theorem updSh_removal (s : State) (f : WmShared → WmShared) : (s.updSh f).removal = s.removal := rfl
@[simp] theorem updSh_removeQueue (s : State) (f : WmShared → WmShared) : (s.updSh f).removeQueue = s.removeQueue := rfl
@[simp] theorem updSh_fw (s : State) (f : WmShared → WmShared) : (s.updSh f).fw = s.fw := rfl
@[simp] theorem updSh_flash (s : State) (f : WmShared → WmShared) : (s.updSh f).flash = s.flash := rfl
@[simp] theorem updSh_rst (s : State) (f : WmShared → WmShared) : (s.updSh f).rst = s.rst := rfl
@[simp] theorem updSh_boot (s : State) (f : WmShared → WmShared) : (s.updSh f).boot = s.boot := rfl
@[simp] theorem updSh_maps (s : State) (f : WmShared → WmShared) : (s.updSh f).maps = s.maps := rfl
@[simp] theorem updSh_frz (s : State) (f : WmShared → WmShared) : (s.updSh f).frz = s.frz := rfl
@[simp] theorem updSh_sup (s : State) (f : WmShared → WmShared) : (s.updSh f).sup = s.sup := rfl
@[simp] theorem updSh_uart (s : State) (f : WmShared → WmShared) : (s.updSh f).uart = s.uart := rfl
@[simp] theorem updSh_jtag (s : State) (f : WmShared → WmShared) : (s.updSh f).jtag = s.jtag := rfl
@[simp] theorem updSh_ledTestEnd (s : State) (f : WmShared → WmShared) : (s.updSh f).ledTestEnd = s.ledTestEnd := rfl
@[simp] theorem updSh_debugLocked (s : State) (f : WmShared → WmShared) : (s.updSh f).debugLocked = s.debugLocked := rfl
@[simp] theorem updSh_debugOpen (s : State) (f : WmShared → WmShared) : (s.updSh f).debugOpen = s.debugOpen := rfl
@[simp] theorem updSh_selftestFailed (s : State) (f : WmShared → WmShared) : (s.updSh f).selftestFailed = s.selftestFailed := rfl

/-! ### putWord -/

@[simp] theorem putWord_pending (s : State) (off : Nat) (v : BitVec 32) : (s.putWord off v).pending = s.pending := rfl
@[simp] theorem putWord_freeCtr (s : State) (off : Nat) (v : BitVec 32) : (s.putWord off v).freeCtr = s.freeCtr := rfl
@[simp] theorem putWord_time (s : State) (off : Nat) (v : BitVec 32) : (s.putWord off v).time = s.time := rfl
@[simp] theorem putWord_setup (s : State) (off : Nat) (v : BitVec 32) : (s.putWord off v).setup = sset (resetWord off) s.setup off v := rfl
@[simp] theorem putWord_setupErr (s : State) (off : Nat) (v : BitVec 32) : (s.putWord off v).setupErr = s.setupErr := rfl
@[simp] theorem putWord_cnt (s : State) (off : Nat) (v : BitVec 32) : (s.putWord off v).cnt = s.cnt := rfl
@[simp] theorem putWord_mem (s : State) (off : Nat) (v : BitVec 32) : (s.putWord off v).mem = s.mem := rfl
@[simp] theorem putWord_tags (s : State) (off : Nat) (v : BitVec 32) : (s.putWord off v).tags = s.tags := rfl
@[simp] theorem putWord_pages (s : State) (off : Nat) (v : BitVec 32) : (s.putWord off v).pages = s.pages := rfl
@[simp] theorem putWord_movers (s : State) (off : Nat) (v : BitVec 32) : (s.putWord off v).movers = s.movers := rfl
@[simp] theorem putWord_memErrs (s : State) (off : Nat) (v : BitVec 32) : (s.putWord off v).memErrs = s.memErrs := rfl
@[simp] theorem putWord_scrubLine (s : State) (off : Nat) (v : BitVec 32) : (s.putWord off v).scrubLine = s.scrubLine := rfl
@[simp] theorem putWord_cells (s : State) (off : Nat) (v : BitVec 32) : (s.putWord off v).cells = s.cells := rfl
@[simp] theorem putWord_faultRecs (s : State) (off : Nat) (v : BitVec 32) : (s.putWord off v).faultRecs = s.faultRecs := rfl
@[simp] theorem putWord_sync (s : State) (off : Nat) (v : BitVec 32) : (s.putWord off v).sync = s.sync := rfl
@[simp] theorem putWord_syncWaits (s : State) (off : Nat) (v : BitVec 32) : (s.putWord off v).syncWaits = s.syncWaits := rfl
@[simp] theorem putWord_hst (s : State) (off : Nat) (v : BitVec 32) : (s.putWord off v).hst = s.hst := rfl
@[simp] theorem putWord_ctxs (s : State) (off : Nat) (v : BitVec 32) : (s.putWord off v).ctxs = s.ctxs := rfl
@[simp] theorem putWord_jobs (s : State) (off : Nat) (v : BitVec 32) : (s.putWord off v).jobs = s.jobs := rfl
@[simp] theorem putWord_tt (s : State) (off : Nat) (v : BitVec 32) : (s.putWord off v).tt = s.tt := rfl
@[simp] theorem putWord_fry (s : State) (off : Nat) (v : BitVec 32) : (s.putWord off v).fry = s.fry := rfl
@[simp] theorem putWord_streams (s : State) (off : Nat) (v : BitVec 32) : (s.putWord off v).streams = s.streams := rfl
@[simp] theorem putWord_itkReset (s : State) (off : Nat) (v : BitVec 32) : (s.putWord off v).itkReset = s.itkReset := rfl
@[simp] theorem putWord_ethq (s : State) (off : Nat) (v : BitVec 32) : (s.putWord off v).ethq = s.ethq := rfl
@[simp] theorem putWord_eth (s : State) (off : Nat) (v : BitVec 32) : (s.putWord off v).eth = s.eth := rfl
@[simp] theorem putWord_ethUp (s : State) (off : Nat) (v : BitVec 32) : (s.putWord off v).ethUp = s.ethUp := rfl
@[simp] theorem putWord_ethAddr (s : State) (off : Nat) (v : BitVec 32) : (s.putWord off v).ethAddr = s.ethAddr := rfl
@[simp] theorem putWord_ethOut (s : State) (off : Nat) (v : BitVec 32) : (s.putWord off v).ethOut = s.ethOut := rfl
@[simp] theorem putWord_mgmtRx (s : State) (off : Nat) (v : BitVec 32) : (s.putWord off v).mgmtRx = s.mgmtRx := rfl
@[simp] theorem putWord_tow (s : State) (off : Nat) (v : BitVec 32) : (s.putWord off v).tow = s.tow := rfl
@[simp] theorem putWord_fab (s : State) (off : Nat) (v : BitVec 32) : (s.putWord off v).fab = s.fab := rfl
@[simp] theorem putWord_agent (s : State) (off : Nat) (v : BitVec 32) : (s.putWord off v).agent = s.agent := rfl
@[simp] theorem putWord_wm (s : State) (off : Nat) (v : BitVec 32) : (s.putWord off v).wm = s.wm := rfl
@[simp] theorem putWord_pw (s : State) (off : Nat) (v : BitVec 32) : (s.putWord off v).pw = s.pw := rfl
@[simp] theorem putWord_mon (s : State) (off : Nat) (v : BitVec 32) : (s.putWord off v).mon = s.mon := rfl
@[simp] theorem putWord_keys (s : State) (off : Nat) (v : BitVec 32) : (s.putWord off v).keys = s.keys := rfl
@[simp] theorem putWord_ids (s : State) (off : Nat) (v : BitVec 32) : (s.putWord off v).ids = s.ids := rfl
@[simp] theorem putWord_removal (s : State) (off : Nat) (v : BitVec 32) : (s.putWord off v).removal = s.removal := rfl
@[simp] theorem putWord_removeQueue (s : State) (off : Nat) (v : BitVec 32) : (s.putWord off v).removeQueue = s.removeQueue := rfl
@[simp] theorem putWord_fw (s : State) (off : Nat) (v : BitVec 32) : (s.putWord off v).fw = s.fw := rfl
@[simp] theorem putWord_flash (s : State) (off : Nat) (v : BitVec 32) : (s.putWord off v).flash = s.flash := rfl
@[simp] theorem putWord_rst (s : State) (off : Nat) (v : BitVec 32) : (s.putWord off v).rst = s.rst := rfl
@[simp] theorem putWord_boot (s : State) (off : Nat) (v : BitVec 32) : (s.putWord off v).boot = s.boot := rfl
@[simp] theorem putWord_maps (s : State) (off : Nat) (v : BitVec 32) : (s.putWord off v).maps = s.maps := rfl
@[simp] theorem putWord_frz (s : State) (off : Nat) (v : BitVec 32) : (s.putWord off v).frz = s.frz := rfl
@[simp] theorem putWord_sup (s : State) (off : Nat) (v : BitVec 32) : (s.putWord off v).sup = s.sup := rfl
@[simp] theorem putWord_uart (s : State) (off : Nat) (v : BitVec 32) : (s.putWord off v).uart = s.uart := rfl
@[simp] theorem putWord_jtag (s : State) (off : Nat) (v : BitVec 32) : (s.putWord off v).jtag = s.jtag := rfl
@[simp] theorem putWord_ledTestEnd (s : State) (off : Nat) (v : BitVec 32) : (s.putWord off v).ledTestEnd = s.ledTestEnd := rfl
@[simp] theorem putWord_debugLocked (s : State) (off : Nat) (v : BitVec 32) : (s.putWord off v).debugLocked = s.debugLocked := rfl
@[simp] theorem putWord_debugOpen (s : State) (off : Nat) (v : BitVec 32) : (s.putWord off v).debugOpen = s.debugOpen := rfl
@[simp] theorem putWord_selftestFailed (s : State) (off : Nat) (v : BitVec 32) : (s.putWord off v).selftestFailed = s.selftestFailed := rfl

/-! ### updEth -/

@[simp] theorem updEth_pending (s : State) (n : Nat) (f : EthRing → EthRing) : (s.updEth n f).pending = s.pending := rfl
@[simp] theorem updEth_freeCtr (s : State) (n : Nat) (f : EthRing → EthRing) : (s.updEth n f).freeCtr = s.freeCtr := rfl
@[simp] theorem updEth_time (s : State) (n : Nat) (f : EthRing → EthRing) : (s.updEth n f).time = s.time := rfl
@[simp] theorem updEth_setup (s : State) (n : Nat) (f : EthRing → EthRing) : (s.updEth n f).setup = s.setup := rfl
@[simp] theorem updEth_setupErr (s : State) (n : Nat) (f : EthRing → EthRing) : (s.updEth n f).setupErr = s.setupErr := rfl
@[simp] theorem updEth_cnt (s : State) (n : Nat) (f : EthRing → EthRing) : (s.updEth n f).cnt = s.cnt := rfl
@[simp] theorem updEth_mem (s : State) (n : Nat) (f : EthRing → EthRing) : (s.updEth n f).mem = s.mem := rfl
@[simp] theorem updEth_tags (s : State) (n : Nat) (f : EthRing → EthRing) : (s.updEth n f).tags = s.tags := rfl
@[simp] theorem updEth_pages (s : State) (n : Nat) (f : EthRing → EthRing) : (s.updEth n f).pages = s.pages := rfl
@[simp] theorem updEth_movers (s : State) (n : Nat) (f : EthRing → EthRing) : (s.updEth n f).movers = s.movers := rfl
@[simp] theorem updEth_memErrs (s : State) (n : Nat) (f : EthRing → EthRing) : (s.updEth n f).memErrs = s.memErrs := rfl
@[simp] theorem updEth_scrubLine (s : State) (n : Nat) (f : EthRing → EthRing) : (s.updEth n f).scrubLine = s.scrubLine := rfl
@[simp] theorem updEth_cells (s : State) (n : Nat) (f : EthRing → EthRing) : (s.updEth n f).cells = s.cells := rfl
@[simp] theorem updEth_faultRecs (s : State) (n : Nat) (f : EthRing → EthRing) : (s.updEth n f).faultRecs = s.faultRecs := rfl
@[simp] theorem updEth_sync (s : State) (n : Nat) (f : EthRing → EthRing) : (s.updEth n f).sync = s.sync := rfl
@[simp] theorem updEth_syncWaits (s : State) (n : Nat) (f : EthRing → EthRing) : (s.updEth n f).syncWaits = s.syncWaits := rfl
@[simp] theorem updEth_hst (s : State) (n : Nat) (f : EthRing → EthRing) : (s.updEth n f).hst = s.hst := rfl
@[simp] theorem updEth_ctxs (s : State) (n : Nat) (f : EthRing → EthRing) : (s.updEth n f).ctxs = s.ctxs := rfl
@[simp] theorem updEth_jobs (s : State) (n : Nat) (f : EthRing → EthRing) : (s.updEth n f).jobs = s.jobs := rfl
@[simp] theorem updEth_tt (s : State) (n : Nat) (f : EthRing → EthRing) : (s.updEth n f).tt = s.tt := rfl
@[simp] theorem updEth_fry (s : State) (n : Nat) (f : EthRing → EthRing) : (s.updEth n f).fry = s.fry := rfl
@[simp] theorem updEth_streams (s : State) (n : Nat) (f : EthRing → EthRing) : (s.updEth n f).streams = s.streams := rfl
@[simp] theorem updEth_itkReset (s : State) (n : Nat) (f : EthRing → EthRing) : (s.updEth n f).itkReset = s.itkReset := rfl
@[simp] theorem updEth_ethq (s : State) (n : Nat) (f : EthRing → EthRing) : (s.updEth n f).ethq = s.ethq := rfl
@[simp] theorem updEth_eth (s : State) (n : Nat) (f : EthRing → EthRing) : (s.updEth n f).eth = supd {} s.eth n f := rfl
@[simp] theorem updEth_ethUp (s : State) (n : Nat) (f : EthRing → EthRing) : (s.updEth n f).ethUp = s.ethUp := rfl
@[simp] theorem updEth_ethAddr (s : State) (n : Nat) (f : EthRing → EthRing) : (s.updEth n f).ethAddr = s.ethAddr := rfl
@[simp] theorem updEth_ethOut (s : State) (n : Nat) (f : EthRing → EthRing) : (s.updEth n f).ethOut = s.ethOut := rfl
@[simp] theorem updEth_mgmtRx (s : State) (n : Nat) (f : EthRing → EthRing) : (s.updEth n f).mgmtRx = s.mgmtRx := rfl
@[simp] theorem updEth_tow (s : State) (n : Nat) (f : EthRing → EthRing) : (s.updEth n f).tow = s.tow := rfl
@[simp] theorem updEth_fab (s : State) (n : Nat) (f : EthRing → EthRing) : (s.updEth n f).fab = s.fab := rfl
@[simp] theorem updEth_agent (s : State) (n : Nat) (f : EthRing → EthRing) : (s.updEth n f).agent = s.agent := rfl
@[simp] theorem updEth_wm (s : State) (n : Nat) (f : EthRing → EthRing) : (s.updEth n f).wm = s.wm := rfl
@[simp] theorem updEth_pw (s : State) (n : Nat) (f : EthRing → EthRing) : (s.updEth n f).pw = s.pw := rfl
@[simp] theorem updEth_mon (s : State) (n : Nat) (f : EthRing → EthRing) : (s.updEth n f).mon = s.mon := rfl
@[simp] theorem updEth_keys (s : State) (n : Nat) (f : EthRing → EthRing) : (s.updEth n f).keys = s.keys := rfl
@[simp] theorem updEth_ids (s : State) (n : Nat) (f : EthRing → EthRing) : (s.updEth n f).ids = s.ids := rfl
@[simp] theorem updEth_removal (s : State) (n : Nat) (f : EthRing → EthRing) : (s.updEth n f).removal = s.removal := rfl
@[simp] theorem updEth_removeQueue (s : State) (n : Nat) (f : EthRing → EthRing) : (s.updEth n f).removeQueue = s.removeQueue := rfl
@[simp] theorem updEth_fw (s : State) (n : Nat) (f : EthRing → EthRing) : (s.updEth n f).fw = s.fw := rfl
@[simp] theorem updEth_flash (s : State) (n : Nat) (f : EthRing → EthRing) : (s.updEth n f).flash = s.flash := rfl
@[simp] theorem updEth_rst (s : State) (n : Nat) (f : EthRing → EthRing) : (s.updEth n f).rst = s.rst := rfl
@[simp] theorem updEth_boot (s : State) (n : Nat) (f : EthRing → EthRing) : (s.updEth n f).boot = s.boot := rfl
@[simp] theorem updEth_maps (s : State) (n : Nat) (f : EthRing → EthRing) : (s.updEth n f).maps = s.maps := rfl
@[simp] theorem updEth_frz (s : State) (n : Nat) (f : EthRing → EthRing) : (s.updEth n f).frz = s.frz := rfl
@[simp] theorem updEth_sup (s : State) (n : Nat) (f : EthRing → EthRing) : (s.updEth n f).sup = s.sup := rfl
@[simp] theorem updEth_uart (s : State) (n : Nat) (f : EthRing → EthRing) : (s.updEth n f).uart = s.uart := rfl
@[simp] theorem updEth_jtag (s : State) (n : Nat) (f : EthRing → EthRing) : (s.updEth n f).jtag = s.jtag := rfl
@[simp] theorem updEth_ledTestEnd (s : State) (n : Nat) (f : EthRing → EthRing) : (s.updEth n f).ledTestEnd = s.ledTestEnd := rfl
@[simp] theorem updEth_debugLocked (s : State) (n : Nat) (f : EthRing → EthRing) : (s.updEth n f).debugLocked = s.debugLocked := rfl
@[simp] theorem updEth_debugOpen (s : State) (n : Nat) (f : EthRing → EthRing) : (s.updEth n f).debugOpen = s.debugOpen := rfl
@[simp] theorem updEth_selftestFailed (s : State) (n : Nat) (f : EthRing → EthRing) : (s.updEth n f).selftestFailed = s.selftestFailed := rfl

end Sys2Proof.Machine
end

