-- ==== Sys2Proof/Tests/Slice0.lean ====
section
/-! SUPPORT. Witnesses that the hypotheses of each statement can be met, by its name, and tests from the spec's own examples. -/

open Sys2Proof Sys2Proof.Machine

namespace Sys2Proof.Tests

set_option Elab.async false

/-! ### Small states -/

/-- A number as a descriptor: fields by their lowest bit. -/
def line (fs : List (Nat × Nat)) : Line := BitVec.ofNat 512 (sumOf (fs.map fun f => f.2 * 2 ^ f.1))

/-- A module in service, with its Hawser link up and its relays open. -/
def up : State := { boot := { ended := true }, hst := { up := true }, tow := { agentOn := true, culvertOpen := true }, tt := { hgOpen := true } }

/-- The same with context 1 and 128 channels, the first page owned by context 1. -/
def work : State := { up with
  ctxs := [(0, { live := true }), (1, { live := true })]
  maps := { live := List.range 128, cells := List.range 128, good := 128, memDone := true, cellsDone := true }
  pages := [(0, { state := .owned, ctx := 1 })] }

/-- A descriptor at the head of ring 1 of a context. -/
def ring (s : State) (c : BitVec 6) (d : Line) : State :=
  let q : Sq := {
    isOpen := true, ctx := c, cq := 1, log2n := 4, producer := 1, fetched := 1, ready := [{ slot := 0, desc := d }] }
  { s with hst := { s.hst with sqs := [(1, q)], cqs := [(1, { isOpen := true, log2n := 4 })] } }

/-! ### Witnesses: descriptors -/

def dNop := line [(0, 0), (8, 1)]
def dAdd := line [(0, 0x0B), (8, 1), (144, 5), (192, 7)]
def dAlloc := line [(0, 0x0B), (8, 1), (128, 1), (160, 4)]
def dRel := line [(0, 0x0B), (8, 1), (128, 2), (144, 5), (160, 1)]
def dWait := line [(0, 0x0C), (8, 1), (144, 5), (192, 9)]
def dHint := line [(0, 0x0D), (8, 1), (192, 16), (224, 1)]

/-- Sync object 5 of context 1. -/
def withObj (s : State) : State := { s with sync := [(5, { count := 1, ctx := 1, valid := true })] }

theorem wit_SyncDescriptorsRun :
    (ring work 1 dNop).headStarts 1 0 dNop [] ∧ fieldNat dNop 7 0 = 0
    ∧ ((ring (withObj work) 1 dAdd).headStarts 1 0 dAdd [] ∧ fieldNat dAdd 7 0 = 0x0B ∧ sigAction dAdd = 0 ∧ sigBad dAdd = none
      ∧ ((ring (withObj work) 1 dAdd).taken 1 []).objOk (fieldNat dAdd 156 144) 1 = true)
    ∧ ((ring work 1 dAlloc).headStarts 1 0 dAlloc [] ∧ fieldNat dAlloc 7 0 = 0x0B ∧ sigAction dAlloc = 1 ∧ sigBad dAlloc = none
      ∧ ((ring work 1 dAlloc).taken 1 []).freeRun (fieldNat dAlloc 173 160) = some 0)
    ∧ ((ring (withObj work) 1 dRel).headStarts 1 0 dRel [] ∧ fieldNat dRel 7 0 = 0x0B ∧ sigAction dRel = 2 ∧ sigBad dRel = none
      ∧ (∀ k < 1, ((ring (withObj work) 1 dRel).taken 1 []).objOk (5 + k) 1 = true)
      ∧ ((ring (withObj work) 1 dRel).taken 1 []).objWaited 5 1 = false)
    ∧ ((ring (withObj work) 1 dWait).headStarts 1 0 dWait [] ∧ fieldNat dWait 7 0 = 0x0C ∧ waitBad dWait = none
      ∧ ((ring (withObj work) 1 dWait).taken 1 []).objOk (fieldNat dWait 156 144) 1 = true
      ∧ (((ring (withObj work) 1 dWait).taken 1 []).obj (fieldNat dWait 156 144)).aborted = false)
    ∧ ((ring work 1 dHint).headStarts 1 0 dHint [] ∧ fieldNat dHint 7 0 = 0x0D ∧ fieldNat dHint 223 192 ≠ 0
      ∧ fieldNat dHint 227 224 = 1 ∧ fieldNat dHint 511 228 = 0) := by decide +kernel

def dCopy := line [(0, 0x01), (8, 1), (128, 0), (192, 0x1000), (288, 64)]
def dFill := line [(0, 0x02), (8, 1), (192, 0x1000), (288, 64)]
def dWeight := line [(0, 0x04), (8, 1), (192, 0x1000), (256, 64)]

theorem wit_MoveDescriptorsStart :
    ((ring work 1 dCopy).headStarts 1 0 dCopy [] ∧ fieldNat dCopy 7 0 = 0x01 ∧ moveBad true dCopy = none
      ∧ (let u := (ring work 1 dCopy).taken 1 []
        let m := moveCmd true 1 0 1 dCopy
        m.srcSpace = 0 ∧ u.beyond m.src m.len = false ∧ u.rangePage 1 false m.src m.len = none ∧ m.dstSpace = 0
          ∧ u.beyond m.dst m.len = false ∧ u.rangePage 1 true m.dst m.len = none ∧ u.conf 1 = false))
    ∧ ((ring work 1 dFill).headStarts 1 0 dFill [] ∧ fieldNat dFill 7 0 = 0x02 ∧ moveBad false dFill = none
      ∧ (let u := (ring work 1 dFill).taken 1 []
        let f := moveCmd false 1 0 1 dFill
        f.srcSpace = 0 ∧ f.dstSpace = 0 ∧ u.beyond f.dst f.len = false ∧ u.rangePage 1 true f.dst f.len = none))
    ∧ ((ring work 1 dWeight).headStarts 1 0 dWeight [] ∧ fieldNat dWeight 7 0 = 0x04 ∧ weightBad dWeight = none
      ∧ (let u := (ring work 1 dWeight).taken 1 []
        u.beyond 0x1000 64 = false ∧ u.rangePage 1 true 0x1000 64 = none ∧ (u.ctx 1).weights.length < 1024)) := by decide +kernel

/-- A number of n bytes as bytes, at its place in a header. -/
def hdr (n : Nat) (fs : List (Nat × Nat)) : List Byte := leBytes n (sumOf (fs.map fun f => f.2 * 2 ^ f.1))

/-- A program image of one bundle that halts, for the foreground thread (R112, R113). -/
def image : List Byte :=
  let body := hdr 32 [(0, 0x10)]
  hdr 128 [(0, 0x4950434B), (32, 0x8130), (48, 1), (80, 1), (112, 1), (512, (sha384Nat body).toNat)] ++ body

def dLoad := line [(0, 0x03), (8, 1), (224, 160), (256, 1)]
def dLaunch := line [(0, 0x05), (8, 1), (192, 1)]
def dTrick := line [(0, 0x06), (8, 1), (224, 1)]
def dPre := line [(0, 0x06), (8, 1), (128, 1), (272, 0x1000), (320, 64)]

/-- Cell 0 holds an image of context 1 for a thread. -/
def withImage (s : State) (t : Thread) : State :=
  { s with cells := [(0, { images := [{ ctx := 1, base := 0, count := 1, thread := t }] })] }

theorem wit_ProgramDescriptorsRun_load :
    (let s := ring { work with mem := memPut [] 0 image } 1 dLoad
      let u := s.taken 1 []
      s.headStarts 1 0 dLoad [] ∧ fieldNat dLoad 7 0 = 0x03 ∧ fieldNat dLoad 193 192 = 0 ∧ regionOf 0 = .lpddr ∧ 0 + 160 ≤ u.capacity
      ∧ fieldNat dLoad 223 194 = 0 ∧ imgLenOk 160 = true ∧ fieldNat dLoad 383 256 = 1 ∧ fieldNat dLoad 511 384 = 0
      ∧ u.pageFail 1 false false 0 160 = none ∧ (∀ x ∈ maskCells 1, (u.cell x).failed = false)
      ∧ (u.moduleRead 1 0 160).2.toOption = some image
      ∧ 160 = 128 + 32 * bytesField (image.take 128) 92 80 ∧ imgBad image = none
      ∧ (∀ x ∈ maskCells 1, (u.moduleRead 1 0 160).1.imageBusy x 0 1 = false)) := by decide +kernel

theorem wit_ProgramDescriptorsRun_rest :
    (let s := ring (withImage work .fg) 1 dLaunch
      let u := s.taken 1 []
      s.headStarts 1 0 dLaunch [] ∧ fieldNat dLaunch 7 0 = 0x05 ∧ maskCells 1 ≠ []
      ∧ (∀ x ∈ maskCells 1, (u.cell x).failed = false ∧ ((u.cell x).image .fg 1 0).isSome = true) ∧ fieldNat dLaunch 143 140 = 0
      ∧ u.argOk 1 0 64 8 = true ∧ fieldNat dLaunch 511 320 = 0)
    ∧ (let s := ring (withImage work .tr) 1 dTrick
      let u := s.taken 1 []
      s.headStarts 1 0 dTrick [] ∧ fieldNat dTrick 7 0 = 0x06 ∧ trickleKind dTrick = 0
      ∧ fieldNat dTrick 135 130 = 0 ∧ fieldNat dTrick 159 148 = 0 ∧ fieldNat dTrick 223 208 = 0 ∧ fieldNat dTrick 511 352 = 0
      ∧ u.argOk 1 (fieldNat dTrick 207 160) 64 8 = true ∧ maskCells (fieldNat dTrick 351 224) = [0]
      ∧ ((u.cell 0).image .tr 1 0).isSome = true ∧ (u.cell 0).failed = false ∧ u.tt.queue.length < 4096)
    ∧ (let s := ring work 1 dPre
      let u := s.taken 1 []
      s.headStarts 1 0 dPre [] ∧ fieldNat dPre 7 0 = 0x06 ∧ trickleKind dPre = 1 ∧ fieldNat dPre 135 130 = 0
      ∧ fieldNat dPre 147 136 = 0 ∧ fieldNat dPre 159 148 = 0 ∧ fieldNat dPre 207 160 = 0 ∧ fieldNat dPre 223 208 = 0
      ∧ fieldNat dPre 511 352 = 0 ∧ fieldNat dPre 351 320 = 64 ∧ moverRange 0 64 = true ∧ moverRange 0x1000 64 = true
      ∧ overlaps 0 0x1000 64 = false ∧ u.beyond 0 64 = false ∧ u.beyond 0x1000 64 = false ∧ u.rangePage 1 false 0 64 = none
      ∧ u.rangePage 1 true 0x1000 64 = none ∧ u.tt.queue.length < 4096) := by decide +kernel

/-- A timetable of one cell's span, of one module (R154 to R156). -/
def table : List Byte :=
  let body := hdr 32 [(0, 5), (16, 0)]
  hdr 128 [(0, 0x4254544B), (32, 0x8130), (48, 1), (112, 1), (128, 1), (160, 1), (512, (sha384Nat body).toNat)] ++ body

def dTable := line [(0, 0x07), (8, 1), (192, 160)]
def dAdmit := line [(0, 0x09), (8, 1)]
def dArm := line [(0, 0x08), (8, 1), (144, 0)]
def dFree := line [(0, 0x0A), (8, 1)]

/-- The object that the timetable gives, held by context 1. -/
def object : TtObject := ttParse 1 0 0 table

/-- Context 1 leads an instance of the object. -/
def instanceOf (st : InstState) : Instance := { ctx := 1, isLead := true, object := object, state := st }
def withInst (s : State) (st : InstState) : State :=
  { s with mem := memPut [] 0 table, tt := { s.tt with objects := [object], instances := [instanceOf st] } }

theorem wit_TimetableDescriptorsRun :
    (let s := ring { work with mem := memPut [] 0 table } 1 dTable
      let u := s.taken 1 []
      s.headStarts 1 0 dTable [] ∧ fieldNat dTable 7 0 = 0x07 ∧ regionOf 0 = .lpddr ∧ 0 + 160 ≤ u.capacity
      ∧ (∀ p ∈ pagesOf 0 160, (u.page p).state = .owned ∧ (u.page p).ctx = 1) ∧ fieldNat dTable 191 176 = 0 ∧ fieldNat dTable 511 232 = 0
      ∧ (u.moduleRead 1 0 160).2.toOption = some table ∧ 160 = 128 + 32 * bytesField (table.take 128) 175 160 ∧ ttBad table = none
      ∧ u.tt.instances = [] ∧ s.memWaits 0 160 = false)
    ∧ (let s := { ring work 1 dAdmit with tt := { work.tt with objects := [object] } }
      let u := s.taken 1 []
      let phase := max (fieldNat dAdmit 207 160) (u.frame + 4)
      let v := (u.searchParts 1 dAdmit).1
      let b := (v.startJob 1 0 dAdmit .search).beginPhase { sq := 1, slot := 0, inst := 0, phase := phase, last := phase, object := object };
      s.headStarts 1 0 dAdmit [] ∧ fieldNat dAdmit 7 0 = 0x09 ∧ s.tt.search = none ∧ u.ttObj 1 (fieldNat dAdmit 135 128) = some object
      ∧ object.member = object.lead ∧ fieldNat dAdmit 159 146 = 0 ∧ fieldNat dAdmit 223 208 = 0
      ∧ fieldNat dAdmit 231 230 = 0 ∧ fieldNat dAdmit 247 232 = 0 ∧ fieldNat dAdmit 511 248 = 0
      ∧ (∀ i ∈ u.tt.instances, i.id ≠ fieldNat dAdmit 145 136) ∧ fieldNat dAdmit 247 232 ≤ (u.ctx 1).itkCount ∧ s.recordWaits 1 dAdmit = false
      ∧ (match (u.searchParts 1 dAdmit).2 with
        | some (o, .ok none) => decide (o = object)
        | _ => false) = true ∧ v.frame = u.frame ∧ b.2.asks = .fit)
    ∧ (let s := ring (withInst work .admitted) 1 dArm
      let u := s.taken 1 []
      s.headStarts 1 0 dArm [] ∧ fieldNat dArm 7 0 = 0x08
      ∧ (u.tt.instances.find? fun i => i.id = fieldNat dArm 137 128 && i.ctx = 1 && i.isLead && i.state = .admitted && !i.arming)
        = some (instanceOf .admitted)
      ∧ fieldNat dArm 143 138 = 0 ∧ u.argOk 1 0 16384 64 = true ∧ fieldNat dArm 511 193 = 0
      ∧ (u.digestOk object).2.toOption = some true ∧ s.objectWaits dArm = false ∧ othersFail object [] = none)
    ∧ (let s := ring (withInst work .armed) 1 dFree
      s.headStarts 1 0 dFree [] ∧ fieldNat dFree 7 0 = 0x0A ∧ fieldNat dFree 511 139 = 0
      ∧ ((s.taken 1 []).tt.instances.find? fun i => i.id = fieldNat dFree 137 128 && i.ctx = 1 && i.isLead) = some (instanceOf .armed)) := by
  refine ⟨?_, ?_, ?_, ?_⟩ <;> decide +kernel

/-- Context 1 has a Ferry session of 16 placements. -/
def session : Session := { ctx := 1, pcount := 16, nSrc := 1 }
def withSession (s : State) : State := { s with fry := { s.fry with sessions := [session] } }

/-- An entry that is not valid: its slot size, its ring and its batch lie in their ranges all the same (R193). -/
def noEntry : Placement := BitVec.ofNat 256 (2 * 2 ^ 56 + 0x10000 * 2 ^ 80 + 4 * 2 ^ 128 + 2 * 2 ^ 144)

def dPlace := line [(0, 0x0E), (8, 1), (160, 1), (176, 0x40)]
def dSwap := line [(0, 0x0E), (8, 1), (128, 1), (224, 7)]
def dOpen := line [(0, 0x0F), (8, 1), (160, 16), (192, 1)]
def dClose := line [(0, 0x0F), (8, 1), (128, 1)]

theorem wit_FerryDescriptorsRun :
    (let s := ring { withSession work with mem := memPut [] 0x40 (leBytes 32 noEntry.toNat) } 1 dPlace
      let u := s.taken 1 []
      s.headStarts 1 0 dPlace [] ∧ fieldNat dPlace 7 0 = 0x0E ∧ fryAction dPlace = 0 ∧ u.session 1 = some session ∧ session.swapStep = none
      ∧ fieldNat dPlace 157 144 + fieldNat dPlace 174 160 ≤ session.pcount ∧ fieldNat dPlace 143 130 = 0 ∧ fieldNat dPlace 159 158 = 0
      ∧ fieldNat dPlace 174 160 = 1 ∧ bitAt dPlace 175 = false ∧ fieldNat dPlace 223 176 = 0x40 ∧ regionOf 0x40 = .lpddr
      ∧ 0x40 + 32 * 1 ≤ u.capacity ∧ fieldNat dPlace 239 224 = 0 ∧ fieldNat dPlace 511 240 = 0 ∧ u.pageFail 1 false false 0x40 32 = none
      ∧ (u.moduleRead 1 0x40 32).2.toOption = some (leBytes 32 noEntry.toNat)
      ∧ s.memWaits 0x40 32 = false ∧ (∀ b ∈ chunks 32 (leBytes 32 noEntry.toNat), plBad (BitVec.ofNat 256 (leNat b)) = false
          ∧ plValid (BitVec.ofNat 256 (leNat b)) = false))
    ∧ (let s := ring (withSession work) 1 dSwap
      s.headStarts 1 0 dSwap [] ∧ fieldNat dSwap 7 0 = 0x0E ∧ fryAction dSwap = 1 ∧ (s.taken 1 []).session 1 = some session
      ∧ session.lastStep = none ∧ fieldNat dSwap 143 130 = 0 ∧ fieldNat dSwap 157 144 = 0 ∧ fieldNat dSwap 159 158 = 0
      ∧ fieldNat dSwap 174 160 = 0 ∧ bitAt dSwap 175 = false ∧ fieldNat dSwap 223 176 = 0 ∧ fieldNat dSwap 511 240 = 0)
    ∧ (let s := ring work 1 dOpen
      let u := s.taken 1 []
      s.headStarts 1 0 dOpen [] ∧ fieldNat dOpen 7 0 = 0x0F ∧ fryAction dOpen = 0 ∧ u.session 1 = none ∧ u.fry.sessions = []
      ∧ fieldNat dOpen 157 144 + fieldNat dOpen 174 160 ≤ 16384 ∧ 0 < fieldNat dOpen 174 160 ∧ fieldNat dOpen 143 130 = 0
      ∧ fieldNat dOpen 159 158 = 0 ∧ bitAt dOpen 175 = false ∧ fieldNat dOpen 184 176 < fieldNat dOpen 201 192
      ∧ fieldNat dOpen 191 185 = 0 ∧ fieldNat dOpen 201 192 ≤ 512 ∧ fieldNat dOpen 223 202 = 0 ∧ fieldNat dOpen 255 244 = 0
      ∧ fieldNat dOpen 303 256 = 0 ∧ fieldNat dOpen 351 320 = 0 ∧ fieldNat dOpen 319 304 = 0 ∧ fieldNat dOpen 511 352 = 0
      ∧ u.pageFail 1 true false 0 0 = none)
    ∧ (let s := ring (withSession work) 1 dClose
      s.headStarts 1 0 dClose [] ∧ fieldNat dClose 7 0 = 0x0F ∧ fryAction dClose = 1 ∧ fieldNat dClose 511 130 = 0) := by
  refine ⟨?_, ?_, ?_, ?_⟩ <;> decide +kernel

def dKey := line [(0, 0x10), (192, 1), (256, 1344)]
def dRemove := line [(0, 0x11), (128, 1)]
def dAttest := line [(0, 0x12), (192, 0xFFFFFF)]

theorem wit_SecurityDescriptorsRun :
    ((ring work 0 dKey).headStarts 1 0 dKey [] ∧ fieldNat dKey 7 0 = 0x10 ∧ keyBad dKey = none)
    ∧ ((ring work 0 dRemove).headStarts 1 0 dRemove [] ∧ fieldNat dRemove 7 0 = 0x11 ∧ fieldNat dRemove 131 128 ≠ 0
      ∧ fieldNat dRemove 511 132 = 0)
    ∧ (let s := ring work 0 dAttest
      let u := s.taken 1 []
      s.headStarts 1 0 dAttest [] ∧ fieldNat dAttest 7 0 = 0x12 ∧ fieldNat dAttest 191 128 % 64 = 0 ∧ fieldNat dAttest 217 216 ≠ 3
      ∧ fieldNat dAttest 223 218 = 0 ∧ fieldNat dAttest 255 230 = 0 ∧ ((s.sq 1).ctx.toNat = 0 ∨ fieldNat dAttest 229 224 = (s.sq 1).ctx.toNat)
      ∧ (u.ctx (fieldNat dAttest 229 224)).live = true ∧ (u.ctx (fieldNat dAttest 229 224)).removing = false
      ∧ (u.attestBytes dAttest).length ≤ fieldNat dAttest 215 192) := by decide +kernel

def dHeader := line [(0, 0x13), (256, 4096)]
def dStream := line [(0, 0x13), (192, 1), (256, 64)]
def dAbort := line [(0, 0x13), (192, 2)]
def dActivate := line [(0, 0x14), (128, 1)]
def dStatus := line [(0, 0x15), (192, 128)]

/-- An update that expects a stream of 64 bytes. -/
def receiving (s : State) : State := { s with fw := { s.fw with state := .receiving, header := hdr 512 [(288, 64)] } }

/-- A header whose image is empty, and an update staged with it. -/
def stagedHdr : List Byte := hdr 512 [(32, 0x8130), (704, (sha384Nat []).toNat)]
def staged (s : State) : State := { s with fw := { s.fw with state := .staged, slot1 := { hdr := stagedHdr } } }

theorem wit_FirmwareDescriptorsRun :
    ((ring work 0 dHeader).headStarts 1 0 dHeader [] ∧ fieldNat dHeader 7 0 = 0x13 ∧ fwKind dHeader = 0 ∧ fwBlockBad dHeader = none
      ∧ ((ring work 0 dHeader).taken 1 []).fwTurned dHeader = none)
    ∧ ((ring (receiving work) 0 dStream).headStarts 1 0 dStream [] ∧ fieldNat dStream 7 0 = 0x13 ∧ fwKind dStream = 1
      ∧ fwBlockBad dStream = none ∧ ((ring (receiving work) 0 dStream).taken 1 []).fwTurned dStream = none)
    ∧ ((ring (receiving work) 0 dAbort).headStarts 1 0 dAbort [] ∧ fieldNat dAbort 7 0 = 0x13 ∧ fwKind dAbort = 2
      ∧ fwBlockBad dAbort = none ∧ ((ring (receiving work) 0 dAbort).taken 1 []).fwTurned dAbort = none)
    ∧ ((ring work 0 dStatus).headStarts 1 0 dStatus [] ∧ fieldNat dStatus 7 0 = 0x15 ∧ fieldNat dStatus 191 128 % 64 = 0
      ∧ 128 ≤ fieldNat dStatus 207 192 ∧ fieldNat dStatus 511 208 = 0) := by decide +kernel

/-- FW_ACTIVATE, with and without the role of the active Watermaster. -/
theorem wit_FirmwareDescriptorsRun_activate (r : WmRole) :
    let s := ring (staged { work with wm := { role := r } }) 0 dActivate
    let u := s.taken 1 []
    s.headStarts 1 0 dActivate [] ∧ fieldNat dActivate 7 0 = 0x14 ∧ fieldNat dActivate 129 128 = 1 ∧ u.fw.withUcode = false
      ∧ fieldNat dActivate 511 130 = 0 ∧ u.fw.state = .staged ∧ u.rst.replay = none ∧ u.partnerFw ≠ 4 ∧ u.partnerFw ≠ 5 ∧ u.wm.role = r := by
  cases r <;> decide +kernel

/-- The staged image passes where the signature check accepts its header. -/
theorem wit_FirmwareDescriptorsRun_passes (h : imageSigned stagedHdr = true) (r : WmRole) :
    ((ring (staged { work with wm := { role := r } }) 0 dActivate).taken 1 []).stagedFails = none := by
  have e : ((ring (staged { work with wm := { role := r } }) 0 dActivate).taken 1 []).hdrCode stagedHdr = none := by
    rw [State.hdrCode, if_neg (by decide +kernel), if_neg (by simp [h]), if_neg (by cases r <;> decide +kernel)]
  have o : ((ring (staged { work with wm := { role := r } }) 0 dActivate).taken 1 []).otherImage = { hdr := stagedHdr } := by
    cases r <;> decide +kernel
  rw [State.stagedFails, o]
  simp only [e]
  decide +kernel

def dCreate := line [(0, 0x16), (128, 2), (192, 1), (192 + 19, 1)]
def dDestroy := line [(0, 0x17), (128, 1)]
def dFence := line [(0, 0x18), (8, 1), (128, 1), (130, 1)]
def dRegs := line [(0, 0x19), (8, 1), (128, 1), (256, 64)]
def dEsc := line [(0, 0x19), (8, 1), (128, 2), (256, 4096)]
def dSum := line [(0, 0x19), (8, 1), (128, 3), (160, 1), (256, 64)]

theorem wit_ContextDescriptorsRun :
    (let s := ring work 0 dCreate
      let u := s.taken 1 []
      s.headStarts 1 0 dCreate [] ∧ fieldNat dCreate 7 0 = 0x16 ∧ lowestBad (u.createBad dCreate) = none ∧ fieldNat dCreate 172 168 = 0
      ∧ fieldNat dCreate 139 136 = 0 ∧ bitAt dCreate 146 = false ∧ rangePages (pageRanges dCreate) = [1]
      ∧ (u.page 1).state = .free ∧ (u.page 1).retained = false ∧ u.job 1 0 = none)
    ∧ (let s := ring work 0 dDestroy
      let u := s.taken 1 []
      s.headStarts 1 0 dDestroy [] ∧ fieldNat dDestroy 7 0 = 0x17 ∧ fieldNat dDestroy 133 128 = 1 ∧ (u.ctx 1).live = true
      ∧ fieldNat dDestroy 511 134 = 0 ∧ u.ringsOf 1 = [] ∧ u.conf 1 = false)
    ∧ ((ring work 1 dFence).headStarts 1 0 dFence [] ∧ fieldNat dFence 7 0 = 0x18 ∧ fieldNat dFence 129 128 < 2 ∧ fieldNat dFence 511 132 = 0)
    ∧ (let s := ring work 1 dRegs
      s.headStarts 1 0 dRegs [] ∧ fieldNat dRegs 7 0 = 0x19 ∧ fieldNat dRegs 159 136 = 0 ∧ fieldNat dRegs 255 192 % 64 = 0
      ∧ 64 ≤ fieldNat dRegs 271 256 ∧ fieldNat dRegs 271 256 ≤ 4096 ∧ fieldNat dRegs 511 272 = 0 ∧ querySel dRegs = 1
      ∧ fieldNat dRegs 191 160 % 4 = 0 ∧ (s.taken 1 []).conf 1 = false)
    ∧ (let s := ring work 1 dEsc
      s.headStarts 1 0 dEsc [] ∧ fieldNat dEsc 7 0 = 0x19 ∧ fieldNat dEsc 159 136 = 0 ∧ fieldNat dEsc 255 192 % 64 = 0
      ∧ fieldNat dEsc 271 256 = 4096 ∧ fieldNat dEsc 511 272 = 0 ∧ querySel dEsc = 2 ∧ fieldNat dEsc 191 160 = 0
      ∧ (s.taken 1 []).conf 1 = false)
    ∧ (let s := ring work 1 dSum
      s.headStarts 1 0 dSum [] ∧ fieldNat dSum 7 0 = 0x19 ∧ fieldNat dSum 159 136 = 0 ∧ fieldNat dSum 255 192 % 64 = 0
      ∧ fieldNat dSum 271 256 = 64 ∧ fieldNat dSum 511 272 = 0 ∧ querySel dSum = 3 ∧ fieldNat dSum 191 160 < 64
      ∧ ((s.taken 1 []).ctx (fieldNat dSum 191 160)).live = true ∧ (s.taken 1 []).conf 1 = false) := by
  refine ⟨?_, ?_, ?_, ?_, ?_, ?_⟩ <;> decide +kernel

/-! ### Witnesses: registers, rings, link and mailboxes -/

/-- Set-up before and after the lock. -/
def lockedUp : State := { up with setup := [(0x8, 1)] }

theorem wit_SetupWritesTake :
    (setupCanonical 0 up.setup = true ∧ up.hostReach = true ∧ up.locked = false)
    ∧ (rwlMask (0x400010 : BitVec 32).toNat).isSome = true ∧ up.refusal 0x400010 0xFFFFFFFF = none
    ∧ (rwlMask 0x100010).isSome = true
    ∧ (fieldNat (2 : BitVec 32) 1 0 ≠ 3 ∧ up.fld 0x20 0 2 = 0)
    ∧ (fieldNat (0x804040 : BitVec 32) 7 0 + fieldNat (0x804040 : BitVec 32) 15 8 + fieldNat (0x804040 : BitVec 32) 23 16 ≤ 256)
    ∧ (min 128 (fieldNat (0x00334080 : BitVec 32) 7 0) > max 51 (fieldNat (0x00334080 : BitVec 32) 15 8)
      ∧ max 51 (fieldNat (0x00334080 : BitVec 32) 15 8) > max 51 (fieldNat (0x00334080 : BitVec 32) 23 16) + 8)
    ∧ (min 96 (fieldNat (0x3460 : BitVec 32) 7 0) > max 51 (fieldNat (0x3460 : BitVec 32) 15 8))
    ∧ (bitAt (5 : BitVec 32) 0 = true ∧ fieldNat (5 : BitVec 32) 7 2 = 1 ∧ (work.ctx 1).live = true ∧ work.ctxSlot 1 = 0
      ∧ work.hostReach = true)
    ∧ ((7 : Fin 8) ≠ 0 ∧ work.ethEnabled 31 = false) := by decide +kernel

theorem wit_RefusedWritesRecorded :
    (lockedUp.hostReach = true ∧ lockedUp.locked = true ∧ (rwlMask (0x8 : BitVec 32).toNat).isSome = true)
    ∧ (up.hostReach = true ∧ up.locked = false ∧ fieldNat (3 : BitVec 32) 1 0 = 3)
    ∧ (let s : State := { up with setup := [(0x20, 1)] };
      s.locked = false ∧ s.fld 0x20 0 2 ≠ 0 ∧ fieldNat (2 : BitVec 32) 1 0 ≠ s.fld 0x20 0 2)
    ∧ 256 < fieldNat (0x814040 : BitVec 32) 7 0 + fieldNat (0x814040 : BitVec 32) 15 8 + fieldNat (0x814040 : BitVec 32) 23 16
    ∧ (bitAt (1 : BitVec 32) 0 = true ∧ fieldNat (1 : BitVec 32) 7 2 = 0)
    ∧ (fieldNat (0xFD : BitVec 32) 7 2 = 63 ∧ (up.ctx 63).live = false)
    ∧ max 51 (fieldNat (0x00338080 : BitVec 32) 15 8) ≥ min 128 (fieldNat (0x00338080 : BitVec 32) 7 0)
    ∧ max 51 (fieldNat (0x00333B80 : BitVec 32) 15 8) ≤ max 51 (fieldNat (0x00333B80 : BitVec 32) 23 16) + 8
    ∧ max 51 (fieldNat (0x6060 : BitVec 32) 15 8) ≥ min 96 (fieldNat (0x6060 : BitVec 32) 7 0)
    ∧ (let s : State := { up with ethq := [(8, 5)] };
      s.hostReach = true ∧ (1 : Fin 8) ≠ 0 ∧ s.ethEnabled 1 = true)
    ∧ bitAt (0 : BitVec 32) 0 = false := by decide +kernel

theorem wit_ResetCommandsStart :
    (up.hostReach = true ∧ fieldNat (0x7F1 : BitVec 32) 11 4 = 127 ∧ fieldNat (0x7F1 : BitVec 32) 3 0 = 1 ∧ up.mayReset (.cell 127))
    ∧ (fieldNat (0x0F2 : BitVec 32) 11 4 = 15 ∧ fieldNat (0x0F2 : BitVec 32) 3 0 = 2 ∧ up.mayReset (.group 15))
    ∧ (fieldNat (0x1F3 : BitVec 32) 11 4 = 31 ∧ fieldNat (0x1F3 : BitVec 32) 3 0 = 3 ∧ up.mayReset (.memGroup 31))
    ∧ (fieldNat (4 : BitVec 32) 11 4 = 0 ∧ fieldNat (4 : BitVec 32) 3 0 = 4 ∧ up.mayReset .ferry)
    ∧ (fieldNat (5 : BitVec 32) 3 0 = 5 ∧ up.mayReset .intake) ∧ (fieldNat (6 : BitVec 32) 3 0 = 6 ∧ up.mayReset .hawser)
    ∧ (fieldNat (8 : BitVec 32) 3 0 = 8 ∧ up.mayReset .compute) := by decide +kernel

/-- Link down for a second. -/
def linkDown : State := { up with hst := {}, time := { clock := 100000000 } }

/-- A host read outstanding, and its time-out. -/
def reading : State := { up with hst := { up.hst with reads := [{ tag := 3, addr := 0x40, len := 64, purpose := .piece 0 0 0 0 0 }] } }

theorem wit_HostLinkActs :
    (let s := ring work 1 0;
      s.linkUp = true ∧ (s.sq 1).isOpen = true ∧ (s.sq 1).error = false ∧ ((16 : BitVec 32).toNat + 2 ^ 32 - (s.sq 1).producer) % 2 ^ 32 < 2 ^ 31
      ∧ ((16 : BitVec 32).toNat + 2 ^ 32 - (s.sq 1).fetched % 2 ^ 32) % 2 ^ 32 ≤ 2 ^ (s.sq 1).log2n
      ∧ (s.cq 1).isOpen = true ∧ (s.cq 1).armed = false ∧ (s.sq 2).isOpen = false)
    ∧ (let s : State := { up with hst := { up.hst with cqs := [(255, { isOpen := true, armed := true, evSeen := 1 })] } };
      (s.cq 255).isOpen = true ∧ (s.cq 255).armed = true ∧ 0 < (s.cq 255).evSeen ∧ (s.cq 255).evFirst + usTicks (s.cq 255).evUs ≤ s.now)
    ∧ up.hst.up = true ∧ (linkDown.hst.up = false ∧ linkDown.hst.retryAt + msTicks 1000 ≤ linkDown.now)
    ∧ (let s : State := { up with fab := { up.fab with pairUp := true } }; s.linkOpen = true ∧ s.fab.pairUp = true)
    ∧ (reading.linkUp = true ∧ reading.readOf (3 : BitVec 10).toNat = some { tag := 3, addr := 0x40, len := 64, purpose := .piece 0 0 0 0 0 }
      ∧ (List.replicate 64 (0 : Byte)).length = 64 ∧ reading.rst.warm = false)
    ∧ ((0x10 : BitVec 8) < 0x11 ∧ (0x16 : BitVec 8) < 0x17 ∧ 0x80 ≠ reading.rst.hawserGen)
    ∧ (let s : State := { reading with time := { clock := 100000000 } };
      s.linkUp = true ∧ (s.readOf (3 : BitVec 10).toNat).isSome = true ∧ 0 + s.rdTimeout ≤ s.now)
    ∧ (let s : State := { linkDown with
          jobs := [{ sq := 1, slot := 0, kind := .gather 64 0 0 [] }, { sq := 2, slot := 0, kind := .report 0x1000 [1] 1 0 }]
          time := { clock := 1000000000 } };
      s.job 1 0 = some { sq := 1, slot := 0, kind := .gather 64 0 0 [] } ∧ (joinGot []).length < 64 ∧ s.linkUp = false
      ∧ max s.hst.downAt 0 + s.holdTicks ≤ s.now ∧ s.job 2 0 = some { sq := 2, slot := 0, kind := .report 0x1000 [1] 1 0 }) := by
  decide +kernel

/-- A request stands in H mailbox n. -/
def asked (s : State) (n : Nat) (ws : List (BitVec 32)) : State := s.setMbox .h n { words := ssetRun 0 [] 0 ws, full := true }

/-- The request's mailbox is free again. -/
def served (s : State) (n : Nat) : State := s.setMbox .h n { s.mbox .h n with full := false, drop := false }

theorem asks_of {s : State} {n type : Nat}
    (h : ((s.mbox .h n).full && decide (fieldNat (sget 0 (s.mbox .h n).words 0) 7 0 = type) && !s.frz.frozen && !s.rst.cold
      && !s.rst.warm && !s.hst.paused) = true) : s.asks n type (served s n) := by
  simp only [Bool.and_eq_true, decide_eq_true_eq, Bool.not_eq_true'] at h
  obtain ⟨⟨⟨⟨⟨a, b⟩, c⟩, d⟩, e⟩, f⟩ := h
  exact ⟨a, b, c, d, e, f, rfl⟩

theorem wit_MailboxesServe :
    (up.linkUp = true ∧ (248 : BitVec 8).toNat % 4 = 0 ∧ (248 : BitVec 8).toNat ≠ 252 ∧ (up.mbox .h 15).full = false)
    ∧ (((asked up 15 [5]).mbox .h 15).full = true ∧ (asked up 15 [5]).linkUp = true)
    ∧ (let s := asked (ring work 1 0) 0 [1, 0x00010102, 0x1000, 0, 4];
      s.asks 0 0x01 (served s 0) ∧ (served s 0).sqOpenStatus (s.asked 0) = stOk)
    ∧ (let s := asked (ring work 1 0) 0 [2, 1];
      s.asks 0 0x02 (served s 0) ∧ ((served s 0).sq (pf (s.asked 0) 7 0)).isOpen = true
      ∧ ((served s 0).sq (pf (s.asked 0) 7 0)).closing = false)
    ∧ (let s := asked work 0 [3, 2, 0x1000, 0, 0x10004];
      s.asks 0 0x03 (served s 0) ∧ (served s 0).cqOpenStatus (s.asked 0) = stOk)
    ∧ (let s := asked { work with hst := { work.hst with cqs := [(1, { isOpen := true })] } } 0 [4, 1];
      s.asks 0 0x04 (served s 0) ∧ ((served s 0).cq (pf (s.asked 0) 7 0)).isOpen = true ∧ (served s 0).hst.sqs = [])
    ∧ (let s := asked up 15 [0x3D05];
      s.asks 15 0x05 (served s 15) ∧ fieldNat (sget 0 (s.mbox .h 15).words 0) 13 8 = 61) := by
  refine ⟨?_, ?_, ⟨asks_of ?_, ?_⟩, ⟨asks_of ?_, ?_⟩, ⟨asks_of ?_, ?_⟩, ⟨asks_of ?_, ?_⟩, asks_of ?_, ?_⟩ <;> decide +kernel

/-! ### Witnesses: cells -/

/-- A thread of cell 0 stands at the one bundle of its program. -/
def running (s : State) (t : Thread) (b : Nat) : State :=
  let th : ThreadSt := { running := true, ctx := 1, hasCtx := true, count := 1 }
  { s with pw := { s.pw with op := 9 }, cells := [(0, { imem := [(0, BitVec.ofNat 256 b)], fg := if t = .fg then th else {},
                                                        tr := if t = .tr then th else {} })] }

/-- A bundle with bits x in one slot. -/
def slot (k : Slot) (x : Nat) : Nat := x * 2 ^ k.base

/-- The slot's turn has come. -/
def turn (s : State) (c : Nat) (t : Thread) (k : Slot) (op : Nat) : Bool :=
  (((s.ready c t).th c t).running || ((s.ready c t).th c t).issue.isSome) && decide (slotOp ((s.ready c t).bundle c t) k = op)
    && match (s.ready c t).beginIssue c t with
      | some u => match (u.th c t).issue with
        | some i => decide ((i.left >>> k.idx) &&& 1 = 1)
        | none => false
      | none => false

theorem turn_spec {s : State} {c : Nat} {t : Thread} {k : Slot} {op : Nat} (h : turn s c t k op = true) :
    ∃ u i x, s.slotTurn c t k op u i x := by
  simp only [turn, Bool.and_eq_true, Bool.or_eq_true, decide_eq_true_eq] at h
  obtain ⟨⟨h1, h2⟩, h3⟩ := h
  split at h3
  · next u hu =>
    split at h3
    · next i hi => exact ⟨u, i, _, h1, h2, hu, hi, by simpa using h3, rfl⟩
    · exact absurd h3 (by simp)
  · exact absurd h3 (by simp)

/-- Every operation of the LD, MV, VX and CT slots that acts by its slot's turn has a turn in some state, on either thread. -/
theorem wit_LoadsAndStoresRun (t : Thread) : ∀ op ∈ [1, 2, 3, 4, 5, 6], ∃ (s : State) (u : State) (i : Issue) (x : Nat), s.slotTurn 0 t .ld op u i x := by
  have h : ∀ op ∈ [1, 2, 3, 4, 5, 6], turn (running work t (slot .ld op)) 0 t .ld op = true := by cases t <;> decide +kernel
  exact fun op ho => ⟨_, turn_spec (h op ho)⟩

theorem wit_AddressArithmeticRuns (t : Thread) : ∀ op ∈ [1, 2, 3, 4, 5, 6], ∃ (s : State) (u : State) (i : Issue) (x : Nat), s.slotTurn 0 t .mv op u i x := by
  have h : ∀ op ∈ [1, 2, 3, 4, 5, 6], turn (running work t (slot .mv op)) 0 t .mv op = true := by cases t <;> decide +kernel
  exact fun op ho => ⟨_, turn_spec (h op ho)⟩

theorem wit_LaneArithmeticRuns (t : Thread) : ∀ op ∈ List.range' 1 8, ∃ (s : State) (u : State) (i : Issue) (x : Nat), s.slotTurn 0 t .vx op u i x := by
  have h : ∀ op ∈ List.range' 1 8, turn (running work t (slot .vx op)) 0 t .vx op = true := by cases t <;> decide +kernel
  exact fun op ho => ⟨_, turn_spec (h op ho)⟩

theorem wit_LaneLogicAndFunctionsRun (t : Thread) : ∀ op ∈ List.range' 9 14, ∃ (s : State) (u : State) (i : Issue) (x : Nat), s.slotTurn 0 t .vx op u i x := by
  have h : ∀ op ∈ List.range' 9 14, turn (running work t (slot .vx op)) 0 t .vx op = true := by cases t <;> decide +kernel
  exact fun op ho => ⟨_, turn_spec (h op ho)⟩

theorem wit_LaneLogic_types : sf (2 ^ 6) 6 2 ≠ 0 ∧ sf 0 6 2 = 0 ∧ (∃ neg m e, fFP32.decode 0x40000000 = .fin neg m e ∧ m ≠ 0) := by
  refine ⟨by decide, by decide, false, 0x800000, -22, by decide, by decide⟩

/-- MMA and the drains name windows and banks of their thread: 0 for the foreground, window 6 and bank 2 for the trickle thread. -/
theorem wit_MatrixSlotsRun (t : Thread) : ∀ op ∈ [1, 2, 3, 4, 5], ∃ (s : State) (u : State) (i : Issue) (x : Nat), s.slotTurn 0 t .mx op u i x := by
  have h : ∀ op ∈ [1, 2, 3, 4, 5], turn (running work t (slot .mx (op + if t = .fg then 0 else 2 * 2 ^ 11 + 6 * 2 ^ 13))) 0 t .mx op = true := by
    cases t <;> decide +kernel
  exact fun op ho => ⟨_, turn_spec (h op ho)⟩

/-- An instruction in the array's queue, with its descriptor at address 0. -/
def queued (op : MxOp) (d : List Byte) : State :=
  { work with mem := memPut [] (cellAddr 0 0) d, cells := [(0, { mxq := [{ op := op, zero := true }] })] }

/-- The tile of one element of an MMA over one block of E4M3, and of one drained or loaded record. -/
def mmaDesc : List Byte := hdr 64 [(192, 32)]
def drainDesc : List Byte := hdr 64 [(0, 0x40), (32, 0x40)]

/-- The array holds a begun instruction, and its thread's instruction stands in the queue. -/
def begun (op : MxOp) (t : Thread) (d : List Byte) : State :=
  let q : MxInstr := { op := op, thread := t, zero := true }
  { work with
    mem := memPut [] (cellAddr 0 0) d, pw := { work.pw with shed := true }
    cells := [(0, { mxq := [q], mxRun := some { q := q, desc := BitVec.ofNat 512 (leNat d) } })] }

theorem wit_MatrixWorkRuns_array :
    (let s := begun .mma .fg mmaDesc;
      s.compute = true ∧ (s.cell 0).inReset = false
      ∧ (s.cell 0).mxRun = some { q := { op := .mma, zero := true }, desc := BitVec.ofNat 512 (leNat mmaDesc) })
    ∧ (let s := begun .mma .tr mmaDesc;
      (s.cell 0).mxRun = some { q := { op := .mma, thread := .tr, zero := true }, desc := BitVec.ofNat 512 (leNat mmaDesc) } ∧ s.trGoes 0 = false)
    ∧ (let s := queued .mma mmaDesc
      let q : MxInstr := { op := .mma, zero := true };
      (s.cell 0).mxRun = none ∧ s.mxNext 0 = some q ∧ (s.mxBegin 0 q).toOption = some { q := q, desc := BitVec.ofNat 512 (leNat mmaDesc) }) := by
  refine ⟨?_, ?_, ?_⟩ <;> decide +kernel

theorem wit_MatrixWorkRuns :
    (let s := queued .mma mmaDesc
      let q : MxInstr := { op := .mma, zero := true }
      let d : Line := BitVec.ofNat 512 (s.cellNat 0 q.desc 64);
      descFault q.desc = none ∧ mmaFault q ((s.cell 0).bank 0) d = none)
    ∧ (∀ op ∈ [MxOp.mload, MxOp.mdrain], (let s := queued op drainDesc
      let q : MxInstr := { op := op, zero := true }
      let d : Line := BitVec.ofNat 512 (s.cellNat 0 q.desc 64);
      descFault q.desc = none ∧ drainFault q ((s.cell 0).bank 0) d = none))
    ∧ (let s := queued .mma (hdr 64 [(0, 1)])
      let q : MxInstr := { op := .mma, zero := true };
      descFault q.desc = none ∧ (mmaFault q ((s.cell 0).bank 0) (BitVec.ofNat 512 (s.cellNat 0 q.desc 64))).isSome = true) := by
  refine ⟨?_, ?_, ?_⟩ <;> decide +kernel

/-- Descriptors of a copy of four bytes within the cell, and of a packet of four bytes to module 0. -/
def dmaDesc : Line := line [(0, cellAddr 0 0), (64, cellAddr 0 0x100), (128, 4), (160, 1)]
def sendDesc : Line := line [(112, 4)]

/-- Bytes of a descriptor. -/
def bytesOf (d : Line) : List Byte := leBytes 64 d.toNat

theorem wit_MoverSlotsRun (t : Thread) :
    (∀ op ∈ [8, 9, 10], ∃ (s : State) (u : State) (i : Issue) (x : Nat), s.slotTurn 0 t .mv op u i x)
    ∧ (0 : Nat) ≤ 0x1FFFFF ∧ (0x1FFFC0 : Nat) % 64 = 0
    ∧ (running work t (slot .mv 8)).dmaBad 0 1 0 dmaDesc = none ∧ (running work t (slot .mv 9)).sendBad 0 t 1 sendDesc = none := by
  have h : ∀ op ∈ [8, 9, 10], turn (running work t (slot .mv op)) 0 t .mv op = true := by cases t <;> decide +kernel
  refine ⟨fun op ho => ⟨_, turn_spec (h op ho)⟩, by decide, by decide, ?_, ?_⟩ <;> cases t <;> decide +kernel

/-- A command at the front of cell 0's MV queue. -/
def moving (s : State) (e : MvEntry) : State := { s with cells := [(0, { mvq := [e] })] }

theorem wit_MovesEnd :
    (let e : MvEntry := { ctx := 1, desc := dmaDesc }
      let s := moving work e
      s.compute = true ∧ (s.cell 0).inReset = false ∧ (s.cell 0).mvq = [e] ∧ e.kind = .dma ∧ s.dmaWaits e = false ∧ e.fromHost = false
      ∧ e.toPair = false ∧ e.toHost = false ∧ (s.dmaMove 0 e).2 = none)
    ∧ (let e : MvEntry := { ctx := 1, desc := line [(0, 0), (64, cellAddr 0 0x100), (128, 4), (160, 1)] }
      let s := moving { work with tags := [(0, { poison := true })] } e
      e.kind = .dma ∧ s.dmaWaits e = false ∧ e.fromHost = false ∧ e.toPair = false ∧ e.toHost = false ∧ (s.dmaMove 0 e).2.isSome = true)
    ∧ (let e : MvEntry := { desc := line [(64, 0xF20000000000)], done := true }
      e.toPair = true ∧ e.done = true ∧ e.sentAt + usTicks 100 ≤ ({ work with time := { clock := 10000 } } : State).now)
    ∧ (let e : MvEntry := { kind := .send, ctx := 1, desc := sendDesc }
      e.kind = .send ∧ ((moving work e).cell 0).mvq = [e])
    ∧ (let e : MvEntry := { kind := .ferry, done := true }
      e.kind = .ferry ∧ e.done = true)
    ∧ (let k : MoverCmd := { kind := .fill, ctx := 1, dst := 0, len := 64 }
      let s : State := { work with movers := [(31, { cur := some k })] }
      (s.mover 31).cur = some k ∧ (s.mover 31).inReset = false ∧ k.dstSpace = 0 ∧ s.memWaits k.dst k.len = false ∧ k.kind = .fill
      ∧ (s.mover 31).xfer = none ∧ k.srcSpace = 0)
    ∧ (let k : MoverCmd := { kind := .copy, ctx := 1, src := 0x40, dst := 0, len := 64 }
      k.kind ≠ .fill ∧ work.memWaits k.src k.len = false)
    ∧ (let w : PairWrite := { ctx := 1, addr := 0, data := List.replicate 64 0, keySlot := 0, keyGen := 0, count := 0, tag := 0 }
      let s : State := { work with fab := { work.fab with pairUp := true, pairUser := 2 } }
      s.fab.pairUp = true ∧ s.twin = true ∧ (s.ctx w.ctx.toNat).live = true ∧ s.ctxSlot w.ctx.toNat = 0 ∧ w.keySlot = 0
      ∧ regionOf w.addr.toNat = .lpddr ∧ w.addr.toNat + w.data.length ≤ s.capacity
      ∧ s.pageFail w.ctx true false w.addr.toNat w.data.length = none) := by
  refine ⟨?_, ?_, ?_, ?_, ?_, ?_, ?_, ?_⟩ <;> decide +kernel

theorem wit_ControlSlotsRun_branches (t : Thread) : ∀ op ∈ [1, 2, 3, 4, 5, 0x10], ∃ (s : State) (u : State) (i : Issue) (x : Nat), s.slotTurn 0 t .ct op u i x := by
  have h : ∀ op ∈ [1, 2, 3, 4, 5, 0x10], turn (running work t (slot .ct op)) 0 t .ct op = true := by cases t <;> decide +kernel
  exact fun op ho => ⟨_, turn_spec (h op ho)⟩

theorem wit_ControlSlotsRun_sync (t : Thread) : ∀ op ∈ [0x0C, 0x0D], ∃ (s : State) (u : State) (i : Issue) (x : Nat), s.slotTurn 0 t .ct op u i x := by
  have h : ∀ op ∈ [0x0C, 0x0D], turn (running (withObj work) t (slot .ct (op + 5 * 2 ^ 21))) 0 t .ct op = true := by
    cases t <;> decide +kernel
  exact fun op ho => ⟨_, turn_spec (h op ho)⟩

theorem wit_ControlSlotsRun_step : ∃ (s : State) (u : State) (i : Issue) (x : Nat), s.slotTurn 0 .fg .ct 0x0A u i x :=
  ⟨_, turn_spec (s := running work .fg (slot .ct 0x0A)) (by decide +kernel)⟩

theorem wit_ThreadsEnd :
    (let s := running work .fg (slot .ct 0x0F)
      let u := s.ready 0 .fg
      let b := u.bundle 0 .fg
      (u.th 0 .fg).running = true ∧ (u.th 0 .fg).issue = none ∧ slotOp b .ct = 0x0F ∧ u.canIssue 0 .fg = true ∧ u.stalled 0 b = false
      ∧ ldFault (u.th 0 .fg).a (slotOf b .ld) = none ∧ mxFault .fg (u.cell 0).win (slotOf b .mx) = false
      ∧ ((u.progFault 0 .fg (u.th 0 .fg).pc 0x08 0).th 0 .fg).issue = none)
    ∧ (let s : State := { work with cells := [(0, { tr := { work := some (.trickle 3), halted := true } })] }
      (s.th 0 .tr).work = some (.trickle 3) ∧ s.compute = true ∧ (s.th 0 .tr).halted = true ∧ (s.th 0 .tr).issue = none
      ∧ (s.cell 0).settled .tr 31 = true ∧ (∀ n r j, Work.trickle 3 ≠ .entry n r j))
    ∧ (let s : State := { work with cells := [(127, { fg := { work := some (.entry 1 2 3), halted := true } })] }
      (s.th 127 .fg).work = some (.entry 1 2 3) ∧ (s.th 127 .fg).halted = true ∧ (s.th 127 .fg).issue = none
      ∧ (s.cell 127).settled .fg 31 = true) := by
  refine ⟨by decide +kernel, ⟨by decide +kernel, by decide +kernel, by decide +kernel, by decide +kernel, by decide +kernel, ?_⟩,
    by decide +kernel⟩
  intro n r j h
  cases h

/-- A wait's turn has come. -/
def waitsAt (s : State) (op : Nat) : Bool :=
  decide (slotOp ((s.ready 0 .fg).bundle 0 .fg) .ct = op) && ((s.ready 0 .fg).th 0 .fg).issue.isNone
    && !((s.ready 0 .fg).th 0 .fg).released && (s.ready 0 .fg).canIssue 0 .fg

theorem waitsAt_spec {s : State} {op : Nat} (h : waitsAt s op = true) : ∃ u x, s.waitTurn 0 .fg op u x := by
  simp only [waitsAt, Bool.and_eq_true, decide_eq_true_eq, Option.isNone_iff_eq_none] at h
  exact ⟨_, _, h.1.1.1, h.1.1.2, by simpa using h.1.2, h.2, rfl, rfl⟩

theorem wit_WaitsBeginAndEnd :
    (∀ op ∈ [0x08, 0x09, 0x0B, 0x0E], ∃ (s : State) (u : State) (x : Nat), s.waitTurn 0 .fg op u x)
    ∧ (let s := running (withObj work) .fg (slot .ct (0x0E + 5 * 2 ^ 21))
      s.objOk (ctObj (s.th 0 .fg).a (slotOf (s.bundle 0 .fg) .ct)) (s.th 0 .fg).ctx = true
      ∧ (s.obj (ctObj (s.th 0 .fg).a (slotOf (s.bundle 0 .fg) .ct))).aborted = false)
    ∧ (let s : State := { work with cells := [(0, { fg := { wait := .tick 0 }, tr := { wait := .settle 31 } })] }
      s.compute = true ∧ (s.th 0 .fg).wait = .tick 0 ∧ (s.cell 0).switching = false ∧ 0 ≤ s.time.tick
      ∧ (s.th 0 .tr).wait = .settle 31 ∧ (s.cell 0).settled .tr 31 = true)
    ∧ (let s : State := { work with cells := [(0, { fg := { wait := .sync 5 1 true false } })] }
      (s.th 0 .fg).wait = .sync 5 1 true false)
    ∧ (let w : SyncWaiter := { sq := 1, object := 5, target := 1, satisfied := true }
      ({ work with syncWaits := [w] } : State).syncWaiter 1 0 = some w ∧ w.aborted = false ∧ w.satisfied = true)
    ∧ (let w : SyncWaiter := { sq := 1, object := 5, target := 9, due := 7 }
      let s : State := { work with syncWaits := [w], time := { clock := 7 } }
      s.syncWaiter 1 0 = some w ∧ w.aborted = false ∧ w.satisfied = false ∧ w.due ≠ 0 ∧ w.due ≤ s.now) := by
  refine ⟨?_, ?_, ?_, ?_, ?_, ?_⟩
  · have h : ∀ op ∈ [0x08, 0x09, 0x0B, 0x0E], waitsAt (running work .fg (slot .ct op)) op = true := by decide +kernel
    exact fun op ho => ⟨_, waitsAt_spec (h op ho)⟩
  all_goals decide +kernel

/-! ### Witnesses: trickle work and timetables -/

/-- An object with a span on cell 0, a transfer on mover 31, and members 0 and 5, of one frame's period. -/
def tt1 : TtObject := {
  ctx := 1, setId := 7, period := 1, entries := [(0, { cell := 0, dur := 100 })],
  transfers := [(1, { mover := 31, dur := 100, src := 0, dst := 0x1000, len := 64 })], members := [(0, 0, 0, 0), (5, 0, 0, 0)] }

/-- An instance of it, and the module that holds it. -/
def inst1 : Instance := { ctx := 1, isLead := true, object := tt1, state := .armed }
def holds (i : Instance) : State := { work with tt := { work.tt with objects := [tt1], instances := [i] }, time := { tickSet := true } }

theorem wit_TrickleEventsAct :
    (work.compute = true ∧ work.pw.shed = false ∧ (work.cell 127).tr.running = false)
    ∧ (let s : State := { work with cells := [(0, { tr := { running := true, staged := true } })] };
      s.pw.shed = false ∧ (s.cell 0).tr.running = true ∧ (s.cell 0).tr.staged = true ∧ s.unstage 0 = true)
    ∧ (let s : State := { work with cells := [(0, { tr := { running := true, paused := true } })] };
      (s.cell 0).tr.running = true ∧ (s.cell 0).tr.staged = false ∧ (s.cell 0).tr.paused = true ∧ s.gap 0 = true)
    ∧ (let s : State := { work with cells := [(0, { fg := { running := true }, tr := { running := true } })] };
      (s.cell 0).tr.running = true ∧ s.gap 0 = false)
    ∧ (let b : Barrier := { ctx := 1, start := 0, len := 100 }
      let s : State := { work with tt := { work.tt with barriers := [b] } };
      s.windows[0]? = some b ∧ b.holding = false ∧ b.spans s.reserveTicks s.time.tick = true)
    ∧ (let s : State := { work with time := { tickSet := true } };
      s.time.tickSet = true ∧ s.time.tick % s.stepTicks = 0)
    ∧ (let s : State := { holds inst1 with cells := [(0, { fg := { work := some (.launch 1 0) } })] };
      (s.th 0 .fg).work = some (.launch 1 0) ∧ s.owned 0 s.time.tick = true) := by
  refine ⟨?_, ?_, ?_, ?_, ?_, ?_, ?_⟩ <;> decide +kernel

theorem wit_TimetableEventsAct :
    (let s := holds inst1;
      s.compute = true ∧ s.instsOf 0 = [inst1] ∧ inst1.due 0 s.time.tick = some 0 ∧ (lfind inst1.object.entries 0).isSome = true
      ∧ s.memWaits (inst1.args + 64 * 0) 64 = false ∧ inst1.due 1 s.time.tick = some 0 ∧ (lfind inst1.object.transfers 1).isSome = true
      ∧ (s.mover 31).inReset = false ∧ (s.mover 31).xfer = none
      ∧ s.transferBad inst1 1 { mover := 31, dur := 100, src := 0, dst := 0x1000, len := 64 } = none)
    ∧ (let k : MoverCmd := { kind := .transfer, ctx := 1, src := 0, dst := 0x1000, len := 64, recIdx := 1 }
      let s : State := { holds inst1 with movers := [(31, { xfer := some k })] };
      s.instsOf 0 = [inst1] ∧ (s.mover 31).xfer = some k ∧ k.inst = inst1.id ∧ k.recIdx = 1 ∧ k.stopping = false
      ∧ s.memWaits k.src k.len = false ∧ s.memWaits k.dst k.len = false ∧ (s.copyLocal k).2.1 = stOk)
    ∧ (let i := { inst1 with state := .admitted, arming := true };
      (holds i).instsOf 0 = [i] ∧ i.arming = true ∧ (i.phase + i.firstPeriod * i.object.period) * frameTicks ≤ (holds i).time.tick + 2)
    ∧ (let i := { inst1 with state := .releasing, releaseNow := true };
      (holds i).instsOf 0 = [i] ∧ ((((holds i).settleInst 64 i.id).inst i.id).any fun k => k.quietNow) = true)
    ∧ (let i := { inst1 with isLead := false, silent := 15 };
      (holds i).instsOf 0 = [i] ∧ i.isLead = false ∧ i.state = .armed ∧ (holds i).failLimit ≤ i.silent)
    ∧ (let s := { holds inst1 with time := { tickSet := true, tick := 1000000 } };
      s.inst (0 : BitVec 10).toNat = some inst1 ∧ inst1.isLead = true ∧ inst1.state = .armed ∧ 0 = inst1.recorded
      ∧ inst1.lastDeadline 0 + 49152 ≤ s.time.tick ∧ s.hst.paused = false) := by
  refine ⟨?_, ?_, ?_, ?_, ?_, ?_⟩ <;> decide +kernel

theorem wit_MemberExchangesAct :
    (let o : TtObject := { ctx := 1, setId := 7, period := 1, members := [(0, 0, 0, 0), (5, 0, 0, 0)] }
      let s : State := { holds inst1 with tt := { work.tt with objects := [o] } };
      s.compute = true ∧ (s.tt.objects.find? fun o => o.ctx = 1 && o.setId = (7 : BitVec 32).toNat) = some o
      ∧ s.memberTest 1 o (4 : BitVec 48).toNat none = 0 ∧ s.inst (3 + 1024 * (511 + 1)) = none)
    ∧ (let o : TtObject := { ctx := 1, setId := 7, period := 1, members := [(0, 0, 0, 0), (5, 0, 0, 0)] }
      let s : State := { holds inst1 with tt := { work.tt with objects := [o], hgOpen := false } };
      (s.tt.objects.find? fun o => o.ctx = 1 && o.setId = (7 : BitVec 32).toNat) = some o ∧ s.memberTest 1 o (4 : BitVec 48).toNat none ≠ 0)
    ∧ (let i := { inst1 with id := 3 + 1024 * 512, state := .reserved };
      (holds i).inst (3 + 1024 * (511 + 1)) = some i ∧ i.state = .reserved)
    ∧ (let o : TtObject := { object with members := [(0, 0, 0, 0), (5, 0, 0, 0)] }
      let i : Instance := { inst1 with isLead := false, state := .admitted, object := o }
      let s : State := { holds i with mem := memPut [] 0 table };
      s.instsOf 0 = [i] ∧ i.isLead = false ∧ i.state = .admitted ∧ i.arming = false ∧ s.memWaits i.object.addr i.object.len = false
      ∧ (s.digestOk i.object).2.toOption = some true ∧ (s.digestOk i.object).1.argOk i.ctx (0x4000 : BitVec 48).toNat 16384 64 = true)
    ∧ (let s := holds inst1
      let r : MemberReport := ({} : Kinds).report 5 0;
      s.inst (0 : BitVec 10).toNat = some inst1 ∧ inst1.isLead = true ∧ inst1.recorded ≤ r.period ∧ inst1.object.others.contains r.member.val = true
      ∧ (inst1.reports.any fun x => x.member = r.member && x.period = r.period) = false)
    ∧ (let d := line [(0, 0x09), (8, 1)]
      let q : Search := { sq := 1, phase := 4, object := tt1 }
      let s : State := { ring (holds inst1) 1 d with
        tt := { work.tt with objects := [tt1], search := some q }, jobs := [{ sq := 1, desc := d, kind := .search }]
        time := { clock := 1000000 } };
      s.tt.search = some q ∧ q.inst = (0 : BitVec 10).toNat ∧ q.asked + msTicks 10 ≤ s.now
      ∧ (q.answers.any fun a => a.member = 5 && a.phase = q.phase) = false ∧ q.object.others.contains (5 : Fin 512).val = true
      ∧ (s.job q.sq q.slot).isSome = true) := by
  refine ⟨?_, ?_, ?_, ?_, ?_, ?_⟩ <;> decide +kernel

/-! ### Witnesses: the Ferry -/

/-- A valid entry at this module: cell 0, slots of 128 bytes, 4 a step. -/
def entry : Placement := BitVec.ofNat 256 (1 + 4 * 2 ^ 48 + 2 * 2 ^ 56)

/-- The front of cell 0's MV queue is a Ferry record of context 1. -/
def recording (r : Line) : State :=
  let s := withSession work;
  { s with mem := memPut [] (cellAddr 0 0) (bytesOf r), fry := { s.fry with bank0 := [(0, entry)] },
           cells := [(0, { mvq := [{ kind := .ferry, ctx := 1 }] })] }
def mvE : MvEntry := { kind := .ferry, ctx := 1 }

def tokenRec := line [(0, 1), (32, 5), (96, 0x100), (128, 64), (256, 64)]
def closeRec := line [(0, 2), (32, 5), (48, 1)]
def resultRec := line [(0, 3), (64, 0x100), (96, 0x40), (128, 64)]

theorem wit_FerryRecordsServed :
    (let s := recording tokenRec;
      s.record 0 = some (mvE, tokenRec) ∧ s.serving 1 = some session ∧ s.noFlow 0 mvE tokenRec = false
      ∧ rcKind tokenRec ≠ 2 ∧ rcKind tokenRec ≠ 3 ∧ tokenBad tokenRec = false ∧ rcExpert tokenRec < session.pcount
      ∧ s.placement (session.bank 5) 0 = entry ∧ plValid entry = true ∧ 64 + rcLen tokenRec ≤ plSlot entry
      ∧ s.inSliceOf 1 (plHome entry) = true ∧ (sget ((0, 0) : Nat × Nat) s.fry.lastStep 0).1 = 0 ∧ 0 < plQ entry
      ∧ s.canTake session .open_ 0 = true ∧ s.freeTicket = some 0)
    ∧ (let s := recording closeRec;
      s.record 0 = some (mvE, closeRec) ∧ rcKind closeRec = 2 ∧ closeBad closeRec = false ∧ rcExpert closeRec + rcCount closeRec ≤ session.pcount
      ∧ ([entry].filter plValid).all (fun p => s.inSliceOf 1 (plHome p)) = true)
    ∧ (let s0 := recording resultRec
      let s : State := { s0 with mem := memPut s0.mem (cellAddr 0 0x40) (bytesOf (line [(46, 1), (160, 64)])) }
      let h : Line := BitVec.ofNat 512 (s.cellNat 0 (rcAux resultRec) 64);
      s.record 0 = some (mvE, resultRec) ∧ rcKind resultRec = 3 ∧ resultBad resultRec = false ∧ bitAt h 46 = true
      ∧ rcLen resultRec = fieldNat h 176 160
      ∧ s.inSliceOf 1 (fieldNat h 38 36 * 64 + fieldNat h 41 39 * 8 + fieldNat h 44 42) = true) := by
  refine ⟨?_, ?_, ?_⟩ <;> decide +kernel

theorem wit_FerryRecordsServed_parked :
    (let s0 := recording tokenRec
      let e : Placement := BitVec.ofNat 256 (1 + 2 + 2 * 2 ^ 56 + 0x10000 * 2 ^ 80 + 4 * 2 ^ 128 + 2 * 2 ^ 144)
      let x : Session := { session with parkBase := 0x20000, parkBytes := 0x1000 }
      let s : State := { s0 with fry := { s0.fry with bank0 := [(0, e)], sessions := [x] } }
      let t : Ticket := { s.newTicket x 0 e tokenRec .overflow 0 0 with due := s.time.tick + s.ovfTicks };
      s.record 0 = some (mvE, tokenRec) ∧ s.serving 1 = some x ∧ s.noFlow 0 mvE tokenRec = false
      ∧ tokenBad tokenRec = false ∧ rcExpert tokenRec < x.pcount ∧ s.placement (x.bank (rcStep tokenRec)) 0 = e ∧ plValid e = true
      ∧ 64 + rcLen tokenRec ≤ plSlot e ∧ s.inSliceOf 1 (plHome e) = true ∧ plQ e ≤ 0 ∧ plOvf e = true
      ∧ s.canTake x .overflow 0 = true ∧ s.freeTicket = some 0
      ∧ (s.parkToken x 0 t (leBytes 64 (s.slotHeader 0 t (fieldNat tokenRec 223 192) (fieldNat tokenRec 255 224)).toNat
          ++ s.cellGet 0 (rcData tokenRec) (rcLen tokenRec))).isSome = true) := by decide +kernel

/-- A valid overflow entry at this module, its ring of 4 slots at 64 KiB and batches of 2. -/
def ovfEntry : Placement := BitVec.ofNat 256 (1 + 2 + 2 * 2 ^ 56 + 0x10000 * 2 ^ 80 + 4 * 2 ^ 128 + 2 * 2 ^ 144)

/-- Context 1 has a session with room to park, the overflow entry, and ticket 5. -/
def ferrying (t : Ticket) : State :=
  { work with fry := { sessions := [{ session with parkBase := 0x20000, parkBytes := 0x1000 }], bank0 := [(0, ovfEntry)], tickets := [(5, t)] } }

def chunkHdr := line [(48, 5), (80, 1)]
def ovfHdr := line [(80, 2), (160, 1)]
def refuseHdr := line [(48, 5), (80, 3), (160, 1)]

theorem wit_FerryPackets :
    (let p : List Byte := List.replicate 16 0
      let s := ferrying { state := .sent, ctx := 1, rlen := 16 }
      let u := s.takeLocal { hdr := chunkHdr, payload := p };
      s.compute = true ∧ s.fry.inReset = false ∧ payloadOk 4096 4 p = true ∧ raKind chunkHdr = 1 ∧ u.resultStale chunkHdr p.length = false)
    ∧ (let p : List Byte := List.replicate 128 0
      let u := (ferrying {}).takeLocal { hdr := ovfHdr, payload := p }
      let sh : Line := BitVec.ofNat 512 (leNat (p.take 64))
      let e := u.placement (bitAt sh 45) (session.pbase + fieldNat sh 77 64)
      let r := u.ring (hCtx ovfHdr) (fieldNat sh 77 64) e
      let a := plRing e + r.head * plSlot e;
      raKind ovfHdr = 2 ∧ (u.serving (hCtx ovfHdr)).isSome = true ∧ fieldNat sh 77 64 < session.pcount ∧ plValid e = true ∧ plHome e = u.selfIdx
      ∧ r.head < plSlots e ∧ r.taken.contains r.head = false ∧ p.length ≤ plSlot e ∧ u.memWaits a p.length = false ∧ u.pageFail (hCtx ovfHdr) true false a p.length = none ∧ a + p.length ≤ u.capacity
      ∧ u.ctxSlot (hCtx ovfHdr).toNat = hKeySlot ovfHdr)
    ∧ (let p : List Byte := List.replicate 128 0
      let s := ferrying { state := .sent, cls := .overflow, ctx := 1 }
      let u := s.takeLocal { hdr := refuseHdr, payload := p }
      let t := u.ticket 5
      let v : State := { u with cnt := { u.cnt with fryRefused := satAdd 16 u.cnt.fryRefused 1 } };
      payloadOk 4096 4 p = true ∧ raKind refuseHdr = 3 ∧ raTicket refuseHdr = 5 ∧ hGen refuseHdr = u.fry.gen.toNat ∧ t.state = .sent
      ∧ t.cls = .overflow ∧ t.tgen.toNat = raTgen refuseHdr ∧ hKeySlot refuseHdr = u.ctxSlot t.ctx.toNat
      ∧ hKeyGen refuseHdr = u.slotGen (u.ctxSlot t.ctx.toNat)
      ∧ (match v.session t.ctx with
        | some x =>
          let e := v.placement x.active (x.pbase + t.expert)
          (v.parkToken x 5 { t with
            bank := x.active, home := if plValid e then plHome e else t.home, homeCell := if plValid e then plCell e else t.homeCell,
            retryAt := v.time.tick + frameTicks * max 1 (v.fld 0x500030 0 4) }
          (leBytes 64 (putField (BitVec.ofNat 512 (leNat (p.take 64))) 45 1 x.active.toNat).toNat ++ p.drop 64)).isSome
        | none => false) = true) := by
  refine ⟨?_, ?_, ?_⟩ <;> decide +kernel

theorem wit_FerryTimers :
    (let s := ferrying { state := .parked, park := 0x20000, parkLen := 128 };
      s.parkReady (s.ticket (5 : BitVec 20).toNat) = true ∧ (s.ticket (5 : BitVec 20).toNat).retryAt = 0)
    ∧ (let s : State := { ferrying { state := .parked, park := 0x20000, parkLen := 128, retryAt := 1 } with time := { tick := 1 } };
      s.parkReady (s.ticket 5) = true ∧ 0 < (s.ticket 5).retryAt ∧ (s.ticket 5).retryAt ≤ s.time.tick)
    ∧ (let s : State := { ferrying { state := .combining, cls := .open_, due := 7 } with time := { tick := 7 } };
      (s.ticket 5).state = .combining ∧ (s.ticket 5).cls ≠ .overflow ∧ (s.ticket 5).due ≤ s.time.tick)
    ∧ (let s : State := { ferrying { state := .parked, cls := .overflow, due := 7 } with time := { tick := 7 } };
      (s.ticket 5).state ≠ .free ∧ (s.ticket 5).cls = .overflow ∧ (s.ticket 5).due ≤ s.time.tick)
    ∧ (let s0 := ferrying {}
      let r : OvfRing := { ctx := 1, place := ovfEntry, waiting := [(0, 128)], blocked := true }
      let s : State := { s0 with fry := { s0.fry with rings := [r] }, time := { clock := 100000 } };
      s.compute = true ∧ s.fry.inReset = false
      ∧ s.fry.rings.filter (fun r => r.ctx = 1 && r.entry = 0
          && decide (r.lastArrival + frameTicks * max 1 (s.fld 0x500030 4 4) ≤ s.now)) = [r]
      ∧ s.fry.rings.filter (·.blocked) = [r]) := by
  refine ⟨?_, ?_, ?_, ?_, ?_⟩ <;> decide +kernel

/-! ### Witnesses: memory care, Ethernet, intake -/

/-- A UDP frame over IPv4 to a port, with no data, its UDP checksum absent. -/
def udp (port : Nat) : List Byte :=
  ([0, 0, 0, 0, 0, 0, 0, 0, 0, 0, 0, 0, 8, 0, 0x45, 0, 0, 28, 0, 0, 0, 0, 0, 17, 0xBA, 0xD2, 0, 0, 0, 0, 0, 0, 0, 0, 0, 0, port / 256, port % 256,
    0, 8, 0, 0] : List Nat).map (BitVec.ofNat 8)

/-- A stream of context 1 at instance 0 that takes UDP port 77 of port 0. -/
def strm : Stream := { ctx := 1, record := BitVec.ofNat 1024 (77 * 2 ^ 16 + 8 * 2 ^ 192 + 8 * 2 ^ 208), steering := true, armed := true }

/-- Ethernet ports up, the stream admitted, queue 0 of context 1 at UDP port 99. -/
def wired (x : Stream) : State :=
  { withObj work with ethUp := [(0, true), (1, true)], streams := [x], ethq := [(0, 5), (1, 99), (2, 0x100), (6, 5)]
                      mem := memPut (memPut [] 0x100 (leBytes 8 (0x400 + 60 * 2 ^ 48))) 0 (leBytes 8 (0x800 + 100 * 2 ^ 48)) }

theorem wit_MemoryCareRuns :
    work.compute = true ∧ work.fld 0x200040 0 8 ≠ 0 ∧ 64 * (0 : BitVec 42).toNat < work.capacity
    ∧ work.groupInReset (work.controllerOf (64 * (0 : BitVec 42).toNat)) = false
    ∧ ((State.checkLine { work with tags := supd {} work.tags 0 fun t => t.hit [(0, 1), (71, 2)] } 1 0).2.isSome = true
      ∧ (State.checkLine { work with tags := supd {} work.tags 0 fun t => t.hit [(0, 1), (5, 7), (71, 2)] } 1 0).2 = none)
    ∧ (({ work with pages := [(393215, { state := .scrubbing })] } : State).page 393215).state = .scrubbing := by decide +kernel

theorem wit_EthernetMovesFrames :
    (let s := wired strm
      let f := udp 77;
      s.compute = true ∧ sget false s.ethUp 0 = true ∧ f.length ≤ 9212 ∧ checksumsOk (netOf f) f = true
      ∧ (s.streams.find? fun x => steers x 0 (netOf f) f) = some strm ∧ s.itkReset = false)
    ∧ (let s := wired strm
      let f := udp 99;
      sget false s.ethUp 0 = true ∧ checksumsOk (netOf f) f = true ∧ (s.streams.find? fun x => steers x 0 (netOf f) f) = none
      ∧ s.mgmtFrame 0 (netOf f) f = false ∧ s.rxQueue 0 (netOf f) = some 0
      ∧ (let w := s.ethQ 0
        let r := s.readBytes (qCtx w) 0 false 0 8
        let e := leNat r.bytes
        let buf := e % 2 ^ 48;
        fieldNat w 175 128 + 16 * ((s.ethRing 0).rxNext % qSize w) = 0 ∧ r.fail = none ∧ r.st.bufOk (qCtx w) true 0 16 = true
        ∧ e.testBit 62 = false ∧ f.length ≤ e / 2 ^ 48 % 2 ^ 14 ∧ r.st.bufOk (qCtx w) true buf f.length = true
        ∧ (r.st.writeBytes (qCtx w) 0 false false buf f).2 = none))
    ∧ (let s := wired strm
      let f := udp 98;
      checksumsOk (netOf f) f = true ∧ (s.streams.find? fun x => steers x 0 (netOf f) f) = none ∧ s.mgmtFrame 0 (netOf f) f = false
      ∧ s.rxQueue 0 (netOf f) = none)
    ∧ checksumsOk (netOf ((udp 98).set 24 (1 : Byte))) ((udp 98).set 24 (1 : Byte)) = false
    ∧ (let s := wired strm
      let f := udp 67;
      checksumsOk (netOf f) f = true ∧ (s.streams.find? fun x => steers x 0 (netOf f) f) = none ∧ s.mgmtFrame 0 (netOf f) f = true) := by
  refine ⟨?_, ?_, ?_, ?_, ?_⟩ <;> decide +kernel

theorem wit_EthernetMovesFrames_transmit :
    (let s := wired strm
      let w := s.ethQ 0
      let sent := (s.ethRing 0).txSent
      let a := fieldNat w 111 64 + 16 * (sent % qSize w)
      let r := s.readBytes (qCtx w) 0 false a 8
      let e := leNat r.bytes
      let buf := e % 2 ^ 48
      let len := e / 2 ^ 48 % 2 ^ 14
      let d := r.st.readBytes (qCtx w) 0 false buf len;
      qOn w = true ∧ sget false s.ethUp (qPort w) = true ∧ s.objOk (fieldNat w 204 192) (qCtx w) = true
      ∧ (sent : Int) < (s.obj (fieldNat w 204 192)).count ∧ r.fail = none ∧ r.st.bufOk (qCtx w) false a 16 = true ∧ 60 ≤ len ∧ len ≤ 9212
      ∧ s.memWaits a 16 = false ∧ r.st.memWaits buf len = false ∧ r.st.bufOk (qCtx w) false buf len = true ∧ d.fail = none) := by decide +kernel

/-- An access unit of one packet of 64 bytes. -/
def unit1 : AccessUnit := { pkts := [{ runs := [(0, 64)] }] }

theorem wit_IntakeStreamsRun :
    (let x := { strm with held := [(3, {}, 0)] }
      let s := wired x;
      s.compute = true ∧ s.itkReset = false ∧ s.stream 0 = some x ∧ x.held = [(3, {}, 0)] ∧ x.next < 3
      ∧ 0 + 10000 * rReorder x.record ≤ s.time.tick)
    ∧ (let x := { strm with decoding := [unit1], waitKey := true }
      let u (t : LineTag) : State :=
        State.updStream { wired x with tags := [(rPktBase x.record / 64, t)] } 0 fun x => { x with decoding := [], progress := 0 };
      (wired x).stream 0 = some x ∧ x.engine = (0 : Fin 16).val ∧ x.decoding = [unit1]
      ∧ (wired x).memWaits (fieldNat x.record 335 288) (fieldNat x.record 383 352) = false
      ∧ ((u { poison := true }).readPkts x unit1.pkts).2.2 = some true ∧ ((u { keySlot := 5 }).readPkts x unit1.pkts).2.2 = some false
      ∧ ((u {}).readPkts x unit1.pkts).2.2 = none)
    ∧ (let f : Frame := { pic := { randomAccess := true, width := 8, height := 8, samples := [] } }
      let x := { strm with shaping := some f };
      (wired x).stream 0 = some x ∧ x.shaping = some f)
    ∧ (let i := instanceOf .armed
      let s : State := { wired strm with tt := { work.tt with objects := [object], instances := [i] }, time := { tick := 1000000 } };
      s.stream 0 = some strm ∧ s.inst 0 = some i ∧ strm.armed = true ∧ i.state = .armed ∧ i.ready strm.record strm.period ≤ s.time.tick)
    ∧ (let i := { instanceOf .releasing with lastPeriod := 1 };
      i.state = .releasing ∧ i.releaseNow = false ∧ strm.period < i.lastPeriod)
    ∧ (let s : State := { wired strm with time := { clock := 100000000 } };
      s.stream 0 = some strm ∧ strm.armed = true ∧ strm.stalled = false
      ∧ strm.lastPacket + msTicks (max 10 (s.fld 0x600010 0 16)) ≤ s.now) := by
  refine ⟨?_, ?_, ?_, ?_, ?_, ?_⟩ <;> decide +kernel

/-! ### Witnesses: the fabric -/

/-- A reduction packet of one record, with its checks. -/
def redPkt : Packet :=
  let pl : List Byte := List.replicate 16 0
  { hdr := withHop (withCrc (line [(0, 1), (25, 2), (40, 3)]) pl), payload := pl }

/-- Tree 0 is a reduction tree whose root is local, and the packet waits at port 1. -/
def reducing : State :=
  { work with fab := { work.fab with bank0 := { tree := [(0, BitVec.ofNat 32 (3 + 7 * 2 ^ 16))] }, vcs := [(8, [{ pkt := redPkt }])] } }

theorem wit_FabricRoutes :
    (let s := reducing;
      s.agentUp = true ∧ payloadOk 4096 4 redPkt.payload = true ∧ s.redHead 1 2 = some ({ pkt := redPkt }, [])
      ∧ (s.redMerge 1 { pkt := redPkt }).2 = true)
    ∧ (let s : State := { work with fab := { work.fab with red := [(63, { used := true })] }, time := { clock := 10000000 } }
      let r := sget ({} : RedEntry) s.fab.red 63;
      r.used = true ∧ r.sentAt = none ∧ r.at_ + s.redTicks ≤ s.now)
    ∧ (let s : State := { reducing with
          fab := { reducing.fab with red := (List.range 64).map fun k => (k, { used := true, raddr := 1 }) }, time := { clock := 10000000 } };
      s.redHead 1 2 = some ({ pkt := redPkt }, []) ∧ s.redFind redPkt.hdr = none ∧ s.redFree = none ∧ 0 + usTicks 1 ≤ s.now
      ∧ (s.redOut 1 { redPkt with hdr := putField redPkt.hdr 40 8 (hTtl redPkt.hdr - 1) }).isSome = true) := by
  refine ⟨?_, ?_, ?_⟩ <;> decide +kernel

/-- An LCB of a kind: its block type, its kind and its check. -/
def lcb (kind : Nat) : BitVec 512 :=
  let n := 2 + kind * 4
  BitVec.ofNat 512 (n + (crc16 (leBytes 62 n)).toNat * 2 ^ 496)

/-- Every port trained at eight lanes, with cables. -/
def ported : State :=
  { work with
    fab := { work.fab with ports := (List.range 7).map fun k => (k, { lanes := if k = 6 then 1 else 8, mask := 255, present := true }) }
    sup := { work.sup with cages := List.range 7 }, time := { clock := 1000000000 } }

theorem wit_EndToEndRuns :
    work.agentUp = true ∧ fieldNat (0 : BitVec 128) 1 0 = 0 ∧ fieldNat (1 : BitVec 128) 1 0 = 1
    ∧ (let t := work.treeOf 4095;
      t.pruned.contains 511 = false ∧ (t.unacked.find? fun u => u.1 = (7 : BitVec 32).toNat) = none)
    ∧ (let s : State := { ported with fab := { ported.fab with sluice := 1 } };
      s.fab.sluiceAt + usTicks (max 1 (s.fld 0x702020 22 8)) ≤ s.now ∧ s.sluiceFloor < s.fab.sluice) := by decide +kernel

theorem wit_FabricRoutes_flow :
    ported.agentUp = true ∧ ported.portOn (5 : Fin 6) = true ∧ (ported.port (5 : Fin 6)).foreign = false ∧ lcbOk (lcb 0) 0 = true := by
  decide +kernel

/-- A packet of tree 4095 with seq 7 that module 511 has still to acknowledge. -/
theorem wit_EndToEndRuns_prune :
    (let s : State := { work with fab := { work.fab with trees := [(4095, { unacked := [(7, redPkt, 0)] })] } }
      let t := s.treeOf (4095 : BitVec 12).toNat;
      s.agentUp = true ∧ t.pruned.contains (511 : Fin 512).val = false
      ∧ (t.unacked.find? fun u => u.1 = (7 : BitVec 32).toNat) = some (7, redPkt, 0)) := by decide +kernel

theorem wit_PortsTrainAndExchange_rest :
    (ported.portOn (5 : Fin 6) = true ∧ (ported.port (5 : Fin 6)).foreign = false ∧ ported.portOn (6 : Fin 7) = true)
    ∧ (ported.cabled (9 : Fin 10) = false ∧ 7 ≤ (9 : Fin 10).val ∧ ported.cabled (0 : Fin 10) = true)
    ∧ (let s : State := { ported with sup := { ported.sup with cages := [8] }, boot := { ported.boot with stage := 6 } };
      s.cabled (6 : Fin 10) = false ∧ 6 ≤ s.boot.stage ∧ (s.port (6 : Fin 10)).held = false ∧ s.cabled (8 : Fin 10) = true)
    ∧ (wired strm).agentUp = true ∧ (wired strm).compute = true := by
  refine ⟨?_, ?_, ?_, ?_⟩ <;> decide +kernel

theorem wit_PortsTrainAndExchange :
    (let s : State := { ported with fab := { ported.fab with ports := [(0, { training := true }), (6, { training := true })] } };
      s.agentUp = true ∧ (s.port 0).training = true ∧ (s.port 0).held = false ∧ s.portResetting 0 = false ∧ s.cabled 0 = true
      ∧ (s.port 6).training = true ∧ (s.port 6).held = false ∧ s.portResetting 6 = false ∧ s.cabled 6 = true)
    ∧ bitAt (ported.port 5).mask 7 = true ∧ (ported.port 5).lanes ≠ 0 ∧ lcbOk (lcb 2) 2 = true
    ∧ lcbOk (lcb 0) 0 = true ∧ (ported.port 6).lanes ≠ 0
    ∧ ((ported.port 6).training = false ∧ (ported.port 6).nextExchange ≤ ported.now) ∧ lcbOk (lcb 1) 1 = true
    ∧ (let s := ported.updPort 0 fun p => { p with segments := [(1, 0), (2, 0), (3, 0)] }
      let segs := (s.port 0).segments.filter (fun x => x.1 ≠ fieldNat (lcb 1) 13 12) ++ [(fieldNat (lcb 1) 13 12, slice (lcb 1) 128 256)];
      (lfind segs 0).isSome = true ∧ (lfind segs 1).isSome = true ∧ (lfind segs 2).isSome = true ∧ (lfind segs 3).isSome = true)
    ∧ (let b : BitVec 512 := BitVec.ofNat 512 (2 + 4 + 2 ^ 12 + (crc16 (leBytes 62 (2 + 4 + 2 ^ 12))).toNat * 2 ^ 496)
      let segs := (ported.port 0).segments.filter (fun x => x.1 ≠ fieldNat b 13 12) ++ [(fieldNat b 13 12, slice b 128 256)];
      lcbOk b 1 = true ∧ lfind segs 0 = none)
    ∧ ported.cabled 9 = false ∧ ported.cabled 6 = true := by decide +kernel

/-! ### Witnesses: agents and the Watermaster -/

/-- A plan of revision n for two modules in a row, joined by pair port too, both Watermaster candidates, with one operator key. -/
def planOf (n : Nat) : List Byte :=
  hdr 128 [(0, 0x4E4C504B), (32, 0x8130), (48, 1), (64, n), (134, 1), (150, 1), (160, 1)]
    ++ hdr 32 [(36, 10), (46, 1), (56, 1), (192, 10)] ++ hdr 32 [(5, 1), (56, 1), (192, 10)] ++ hdr 32 []

/-- A module whose agent has a live lease of epoch 0, held by itself. -/
def leased : State := { work with agent := { hasLease := true, expiry := 1 } }

theorem wit_AgentCommandsRun :
    (let s := leased
      let env := envelope 0 0 false 0 0 0 [];
      s.inTurn env ∧ s.fab.censusDone = true ∧ 0 + [0].length ≤ rtSize .flow ∧ rtReserved .flow 0 = false
      ∧ s.flowLocked 0 [0] = false ∧ (1 : BitVec 16) = s.fab.version + 1 ∧ (0 : BitVec 64).toNat % frameTicks = 0 ∧ (0 : BitVec 16) = s.fab.version)
    ∧ (let p := planOf 1
      let parts := [(0, p)]
      let whole := (sortBy (·.1) parts).foldl (fun (acc : List Byte) x => if acc.length = x.1 then acc ++ x.2 else acc) [];
      leased.agent.planParts = [] ∧ p.length = 224 ∧ 224 ≤ whole.length ∧ leased.flash.plan ≠ some whole ∧ planOk whole = true
      ∧ leased.newer whole = true) := by
  refine ⟨?_, ?_⟩ <;> decide +kernel

theorem wit_AgentCommandsRun_rest :
    fieldNat (0x1FF : BitVec 16) 15 9 = 0 ∧ (2 : Nat) ≠ 3 ∧ leased.agent.planTotal ≠ (224 : BitVec 32).toNat
    ∧ (let p := (planOf 1).take 100
      (0 : BitVec 32).toNat + p.length ≤ (224 : BitVec 32).toNat
      ∧ ((sortBy (·.1) [((0 : Nat), p)]).foldl (fun (acc : List Byte) x => if acc.length = x.1 then acc ++ x.2 else acc) []).length
        < (224 : BitVec 32).toNat) := by decide +kernel

theorem wit_CensusEventsAct :
    (let s : State := { work with fab := { work.fab with switchAt := some 0 } };
      s.agentUp = true ∧ s.fab.switchAt = some 0 ∧ 0 ≤ s.time.tick)
    ∧ (let s : State := { work with fab := { work.fab with counting := true, drained := true, censusDone := false }, time := { clock := 10000000 } };
      s.fab.counting = true ∧ s.fab.drained = true ∧ s.fab.censusDone = false ∧ s.fab.drainedAt + msTicks 1 ≤ s.now)
    ∧ (let s : State := { work with
          fab := { work.fab with counting := true, red := [(0, { used := true, epoch := true })] }, time := { clock := 10000000 } };
      s.fab.counting = true ∧ 0 < s.oldHeld ∧ s.fab.switchedAt + frameTicks * s.censusFrames ≤ s.now)
    ∧ (let h : Instr × Nat × Nat := (.presentTimer, 5, 0)
      let s : State := { work with agent := { held := [h] }, time := { clock := 10000000 } };
      s.agent.held.find? (fun (x : Instr × Nat × Nat) => decide (x.2.2 + msTicks 10 ≤ s.now)) = some h) := by
  refine ⟨?_, ?_, ?_, ?_⟩ <;> decide +kernel

/-- The module at the first position of the plan; the other candidate stands at rack 0, slot 1. -/
def planned : State := { leased with flash := { leased.flash with plan := some (planOf 1) } }

/-- A take of the lease with epoch 5. -/
def takeEnv : BitVec 256 := envelope 2 0 false 0 5 0 []

theorem wit_LeaseMoves :
    (let s := leased
      let env := envelope 1 0 false 0 0 0 [];
      s.agentUp = true ∧ eAnswer env = false ∧ eEpoch env = s.agent.epoch ∧ s.agent.holder = 0 ∧ s.leaseLive = true)
    ∧ (let s : State := { planned with agent := {} }
      let u := State.answerCmd { s with agent := { s.agent with
            epoch := eEpoch takeEnv, holder := 1, hasLease := true, expiry := 2000000, nextSeq := 1, kept := [], lastLive := s.now } } takeEnv 1 0 []
      let v : State := { u with wm := { u.wm with known := max u.wm.known (eEpoch takeEnv).toNat } };
      eAnswer takeEnv = false ∧ s.candidates.contains 1 = true ∧ s.leaseLive = false ∧ s.agent.epoch < eEpoch takeEnv ∧ 1 ≠ s.ownEnd
      ∧ s.wm.role ≠ .active ∧ s.wm.seeking = false ∧ s.fw.pauseWait = false ∧ v.fw.pauseWait = false)
    ∧ (let s : State := { planned with agent := {}, wm := { seeking := true, epoch := 5 } }
      let u := State.answerCmd { s with agent := { s.agent with
            epoch := eEpoch takeEnv, holder := s.ownEnd, hasLease := true, expiry := 2000000, nextSeq := 1, kept := [],
            lastLive := s.now } } takeEnv s.ownEnd 0 []
      let v : State := State.becomeActive { u with wm := { u.wm with known := max u.wm.known (eEpoch takeEnv).toNat } };
      s.agentUp = true ∧ s.candidates.contains s.ownEnd = true ∧ s.leaseLive = false ∧ s.agent.epoch < eEpoch takeEnv ∧ s.wm.seeking = true
      ∧ v.fw.pauseWait = false)
    ∧ (let s : State := { leased with agent := { hasLease := true, holder := 1 } };
      s.agent.hasLease = true ∧ s.agent.expiry ≤ s.time.tick ∧ s.agent.holder ≠ s.ownEnd)
    ∧ (let s : State := { leased with agent := { hasLease := true } };
      s.agentUp = true ∧ s.agent.hasLease = true ∧ s.agent.expiry ≤ s.time.tick ∧ s.agent.holder = s.ownEnd)
    ∧ (let s : State := { planned with agent := { hasLease := true, expiry := 1, holder := 1 }, boot := { ended := true, stage := 9 } };
      s.agentUp = true ∧ s.eligible = true ∧ s.wm.role = .none ∧ s.wm.seekAfter ≤ s.cycleNow ∧ s.leaseLive = true ∧ s.agent.holder ≠ s.ownEnd)
    ∧ (let s : State := { planned with agent := {}, boot := { ended := true, stage := 9 }, time := { clock := 100000000 } };
      s.eligible = true ∧ s.wm.role ≠ .active ∧ s.wm.seekAfter ≤ s.cycleNow ∧ s.leaseLive = false ∧ s.agent.lastLive + s.seekWait ≤ s.now) := by
  refine ⟨?_, ?_, ?_, ?_, ?_, ?_, ?_⟩ <;> decide +kernel

/-- A member of a role, the pair link serving the pair. -/
def member (r : WmRole) : State :=
  { planned with fab := { planned.fab with pairUser := 1, pairUp := true }, wm := { role := r, standby := true, sh := { cycle := 10 } } }

theorem wit_WatermasterMembersAct :
    ((member .none).memberUp = true ∧ (member .none).wm.role = .none ∧ (member .active).wm.role ≠ .none
      ∧ (0 : BitVec 32).toNat ≤ (member .active).wm.epoch ∧ (member .active).wm.epoch < (1 : BitVec 32).toNat
      ∧ (member .active).wm.role ≠ .synced ∧ (member .active).wm.role ≠ .coasting)
    ∧ (let s : State := { member .active with time := { tick := 1100000 } };
      s.wm.role = .active ∧ s.wm.sh.cycle < s.cycleNow)
    ∧ (let c : WmCommand := { agent := 1, seq := 3 }
      let s : State := { planned with wm := { role := .active, sh := { cycle := 10, outstanding := [c] } } };
      (s.wm.sh.outstanding.find? fun c => decide (c.agent = (1 : Fin 512).val ∧ c.seq = (3 : BitVec 32).toNat ∧ c.seq ≠ 0)) = some c
      ∧ c.cycle + 10 ≤ s.wm.sh.cycle)
    ∧ (let s := member .synced;
      s.pairLive = true ∧ s.wm.role = .synced ∧ (10 : BitVec 64).toNat = s.wm.sh.cycle ∧ 0 = s.wm.digest)
    ∧ (let s : State := { member .coasting with time := { tick := 1150000 } };
      s.wm.role = .coasting ∧ 100000 * (s.wm.sh.cycle + 1) + 50000 ≤ s.time.tick)
    ∧ (let s := member .active;
      s.pairLive = true ∧ s.wm.role = .active ∧ s.wm.standby = true ∧ (9 : BitVec 64).toNat + 1 = s.wm.sh.cycle
      ∧ s.wm.sh.stayDetached = false)
    ∧ ((member .joining).pairLive = true ∧ (member .joining).wm.role = .joining ∧ [((0 : Nat), ([] : List Byte))].length < 2
      ∧ 1 ≤ [((0 : Nat), ([] : List Byte))].length)
    ∧ (let s : State := { planned with wm := { role := .active, queryWait := some 0 } };
      s.wm.queryWait = some 0 ∧ 0 ≤ s.now)
    ∧ (let env := envelope 0x10 0 true 0 0 0 [];
      eAnswer env = true ∧ (eEpoch env).toNat ≤ (member .active).wm.epoch ∧ eResult env ≠ 4 ∧ eResult env ≠ 5 ∧ eType env ≠ 0x0D)
    ∧ (let s : State := { planned with fab := { planned.fab with pairUp := true } };
      s.memberUp = true ∧ s.fab.pairUp = true ∧ s.fab.pairUser ≠ 1) := by
  refine ⟨?_, ?_, ?_, ?_, ?_, ?_, ?_, ?_, ?_, ?_⟩ <;> decide +kernel

/-- The header of an operator command, of seq 1 under key 0. -/
def opHdr (code : Nat) (b : List Byte) : BitVec 256 :=
  BitVec.ofNat 256 (0x4F4D574B + code * 2 ^ 32 + 2 ^ 64 + b.length * 2 ^ 128)

/-- The active Watermaster: both positions seen in service, its own budgets. -/
def active : State :=
  { member .active with
    agent := {}
    ids := some (idKeysOf 0)
    wm := { role := .active, sh := { positions := [(0, { code := 1, lastSeen := 1000 }), (1, { code := 1, lastSeen := 1000 })], slices := [line256 [(15, 1), (64, 3)]] } } }
where line256 (fs : List (Nat × Nat)) : BitVec 256 := BitVec.ofNat 256 (sumOf (fs.map fun f => f.2 * 2 ^ f.1))

/-- Every condition of `operates`, as one Bool. -/
def opReady (s : State) (code : Nat) (b p : List Byte) : Bool :=
  let h := opHdr code b
  s.agentUp && !s.ids.isNone && !s.rst.warm && !s.hst.paused && decide (ohCode h = code) && !ohBad h b && decide (s.wm.role = .active)
    && decide (s.flash.plan = some p) && s.wm.queryWait.isNone
    && decide (sget 0 s.wm.sh.keySeq (ohKey h) < ohSeq h) && Machine.payloadOk h b

theorem operates_of {s : State} {code : Nat} {b p : List Byte} (h : opReady s code b p = true) : s.operates code (opHdr code b) b p := by
  simp only [opReady, Bool.and_eq_true, Bool.not_eq_true', decide_eq_true_eq, Option.isNone_iff_eq_none] at h
  obtain ⟨⟨⟨⟨⟨⟨⟨⟨⟨⟨a, b⟩, c⟩, d⟩, e⟩, f⟩, g⟩, i⟩, j⟩, k⟩, l⟩ := h
  exact ⟨a, b, c, d, e, f, g, i, j, k, l⟩

/-- The commands with payloads that they take. -/
def opCmds : List (Nat × List Byte) :=
  [(0x01, planOf 2), (0x02, []), (0x03, leBytes 4 1), (0x04, []), (0x05, leBytes 4 0), (0x06, leBytes 32 (2 ^ 15 * 0)), (0x07, leBytes 4 3),
   (0x08, leBytes 4 3), (0x09, []), (0x0A, leBytes 4 0), (0x0B, leBytes 4 0), (0x0C, leBytes 4 0), (0x0D, leBytes 4 8), (0x0E, []),
   (0x0F, leBytes 32 5)]

/-- Each is executed by the active Watermaster. -/
theorem wit_OperatorCommandsRun : ∀ c ∈ opCmds, active.operates c.1 (opHdr c.1 c.2) c.2 (planOf 1) := by
  have h : ∀ c ∈ opCmds, opReady active c.1 c.2 (planOf 1) = true := by decide +kernel
  exact fun c hc => operates_of (h c hc)

/-- The active Watermaster with these slices, and as many changes waiting as `n`. -/
def carving (slices : List (BitVec 256)) (n : Nat) : State :=
  { active with wm := { active.wm with sh := { active.wm.sh with slices := slices, changes := List.replicate n (.free 3 0) } } }

/-- A plan of four modules, two rows of two, each row joined by pair port; the first row holds the candidates. -/
def twinPlan : List Byte :=
  hdr 128 [(0, 0x4E4C504B), (32, 0x8130), (48, 1), (64, 1), (131, 1), (134, 1), (150, 1), (160, 1)]
    ++ hdr 32 [(26, 10), (36, 10), (46, 1), (56, 1), (192, 10)] ++ hdr 32 [(5, 1), (26, 10), (56, 1), (192, 10)]
    ++ hdr 32 [(5, 2), (36, 10), (46, 3), (56, 1), (192, 10)] ++ hdr 32 [(5, 3), (46, 2), (56, 1), (192, 10)] ++ hdr 32 []

/-- The active Watermaster of that plan: the pair link of the second row is up, and each of its ends names the other. -/
def twinning : State :=
  { active with
    flash := { active.flash with plan := some twinPlan }
    wm := { active.wm with sh := { positions := [(0, { code := 1, lastSeen := 1000 }), (1, { code := 1, lastSeen := 1000 }), (2, mate 1), (3, mate 0)] } } }
where mate (z : Nat) : Position :=
  { code := 1, lastSeen := 1000, lanes := [(6, 8)]
    records := [(6, BitVec.ofNat 1024 (0x5854504B + 0x8130 * 2 ^ 32 + 2 ^ 48 + 2 ^ 227 + z * 2 ^ 230 + 2 ^ 233 + 6 * 2 ^ 234 + 8 * 2 ^ 237
      + 10 * 2 ^ 249 + planDigest twinPlan * 2 ^ 288))] }

/-- A carve of the second row as twins. -/
def twinCarve : List Byte := leBytes 32 (2 ^ 3 + 2 ^ 18 + 2 ^ 22 + 2 ^ 25)

theorem wit_OperatorCommandsRun_conditions :
    (16 ≤ (carving [] 16).wm.sh.changes.length ∧ opReady (carving [] 16) 0x06 (leBytes 32 0) (planOf 1) = true)
    ∧ (let s := carving [] 0
      let r : BitVec 256 := BitVec.ofNat 256 (leNat (leBytes 32 1));
      opReady s 0x06 (leBytes 32 1) (planOf 1) = true ∧ s.wm.sh.changes.length < 16
      ∧ (carveReason (planOf 1) s.wm.sh s.holderIdx (s.viewAhead (planOf 1)).slices r).isSome = true)
    ∧ (let s := twinning
      let r : BitVec 256 := BitVec.ofNat 256 (leNat twinCarve);
      opReady s 0x06 twinCarve twinPlan = true ∧ carveReason twinPlan s.wm.sh s.holderIdx (s.viewAhead twinPlan).slices r = none
      ∧ 2 ≤ (freeIds (s.viewAhead twinPlan).slices).length ∧ bitAt r 18 = true)
    ∧ (let s := carving ((List.range 255).map fun k => BitVec.ofNat 256 (2 ^ 15 + (k + 1) * 2 ^ 64)) 0
      let r : BitVec 256 := BitVec.ofNat 256 (leNat (leBytes 32 0));
      opReady s 0x06 (leBytes 32 0) (planOf 1) = true ∧ (freeIds (s.viewAhead (planOf 1)).slices).length < 1 ∧ bitAt r 18 = false)
    ∧ (let s := carving [] 0;
      opReady s 0x06 (leBytes 32 0) (planOf 1) = true ∧ s.wm.sh.changes.length < 16
      ∧ carveReason (planOf 1) s.wm.sh s.holderIdx (s.viewAhead (planOf 1)).slices (BitVec.ofNat 256 (leNat (leBytes 32 0))) = none
      ∧ freeIds (s.viewAhead (planOf 1)).slices ≠ [] ∧ bitAt (BitVec.ofNat 256 (leNat (leBytes 32 0))) 18 = false)
    ∧ (let v := active.viewAhead (planOf 1)
      let es : List (BitVec 64) := [];
      (v.slices.find? fun r => decide (fieldNat r 71 64 = word32 (leBytes 4 3) 0)).isSome = true ∧ (es.any flowReserved) = false
      ∧ (match v.slices.find? fun r => decide (fieldNat r 71 64 = word32 (leBytes 4 3) 0) with
        | some r => flowsBad v r (mergeFlows (flowsOf v.flows 3) es)
        | none => true) = false
      ∧ (v.slices.any fun r => decide (fieldNat r 71 64 = 3)) = true ∧ active.holdsSlice 3 = false)
    ∧ (active.planReason (planOf 2) = none ∧ word32 (leBytes 4 1) 0 = planRev (planOf 1) ∧ active.wm.sh.changing = false)
    ∧ (active.endIdx (word32 (leBytes 4 0) 0) = some 0 ∧ active.endIdx (word32 (leBytes 4 8) 0) = some 1
      ∧ word32 (leBytes 4 0) 0 / 2 ^ 9 % 8 ≠ 7) := by
  refine ⟨?_, ?_, ?_, ?_, ?_, ?_, ?_, ?_⟩ <;> decide +kernel

/-! ### Witnesses: update, removal and the management chain -/

/-- An update whose stream is its end record alone, to be rebuilt into an empty image. -/
def rebuilding : State :=
  { up with fw := { up.fw with
    state := .rebuilding, header := hdr 512 [(704, (sha384Nat []).toNat), (1088, (sha384Nat (leBytes 16 4)).toNat)], blocks := [(0, leBytes 16 4)] } }

/-- A trial that waits for its confirmation. -/
def awaiting : State := { up with fw := { up.fw with state := .awaiting } }

theorem wit_UpdateEventsAct :
    (let s : State := { up with fab := { up.fab with pairUp := true } }
      let m : BitVec 128 := 0x510;
      s.agentUp = true ∧ s.fab.pairUp = true ∧ fieldNat m 7 0 = 0x10 ∧ fieldNat m 127 11 = 0 ∧ fieldNat m 10 8 ≤ 5)
    ∧ (awaiting.agentUp = true ∧ awaiting.fw.state ≠ .idle ∧ awaiting.fw.nextUpdate ≤ awaiting.now)
    ∧ (rebuilding.fw.state = .rebuilding ∧ (rebuilding.rebuilt true).toOption.isSome = true ∧ (rebuilding.rebuilt false).toOption.isSome = false)
    ∧ (let s : State := { awaiting with hst := { up.hst with paused := true } };
      s.hst.paused = true ∧ s.fw.falling = false)
    ∧ (let s : State := { awaiting with hst := { up.hst with paused := true }, fw := { awaiting.fw with falling := true } };
      s.hst.paused = true ∧ s.fw.falling = true)
    ∧ (awaiting.fw.state = .awaiting ∧ awaiting.now ≤ awaiting.fw.confirmUntil ∧ awaiting.frz.frozen = false ∧ awaiting.rst.cold = false
      ∧ awaiting.stateHealthy = true ∧ awaiting.hawserHealthy = true ∧ awaiting.fw.ucodeBad = false ∧ awaiting.roleHealthy = true
      ∧ awaiting.rst.warm = false ∧ awaiting.fw.confirmUntil ≤ awaiting.now)
    ∧ (let s : State := { awaiting with flash := { up.flash with oosLatched := true }, fw := { awaiting.fw with stateBefore := 0x01 } };
      s.fw.state = .awaiting ∧ s.frz.frozen = false ∧ s.rst.cold = false ∧ s.rst.warm = false ∧ s.stateHealthy = false)
    ∧ (let s : State := { awaiting with hst := { up.hst with up := false }, fw := { awaiting.fw with hawserWasUp := true } };
      s.stateHealthy = true ∧ s.fw.ucodeBad = false ∧ s.fw.confirmUntil ≤ s.now ∧ s.hawserHealthy = false)
    ∧ (let s : State := { awaiting with fw := { awaiting.fw with ucodeBad := true } };
      s.stateHealthy = true ∧ s.fw.ucodeBad = true)
    ∧ (let r : Removal := { slot := 1, ctxs := [1] }
      let s : State := { work with removal := some r };
      s.removal = some r ∧ s.compute = true ∧ s.hst.paused = false ∧ s.tenantWork r.ctxs = 0 ∧ r.waitUntil ≤ s.now) := by
  refine ⟨?_, ?_, ?_, ?_, ?_, ?_, ?_, ?_, ?_, ?_⟩ <;> decide +kernel

/-- A frame of a type from an end to another, with its CRC. -/
def frame (type src dst payload : Nat) : BitVec 128 := towFrame type src dst 3 payload

theorem wit_ManagementChainActs_frames :
    (up.agentUp = true ∧ up.tow.culvertOpen = true ∧ State.reset.tow.culvertOpen = false)
    ∧ (∀ x ∈ ([(0x01, 0xFFFF, 0), (0x05, 0xFFFF, 0), (0x05, 1, 0), (0x06, 0xFFFF, 0), (0x06, 0xFFFF, 2 ^ 32), (0x07, 1, 0), (0x08, 1, 0)] : List (Nat × Nat × Nat)),
      (let f := frame x.1 x.2.1 0 x.2.2;
        towOk f = true ∧ up.towOwn f = false ∧ up.towMine f = true ∧ fType f = x.1))
    ∧ up.towAuth (frame 0x05 0xFFFF 0 0) = true ∧ up.towAuth (frame 0x05 1 0 0) = false ∧ up.towAuth (frame 0x06 0xFFFF 0 0) = true
    ∧ fPay (frame 0x06 0xFFFF 0 0) / 2 ^ 32 % 4 = 0
    ∧ up.towAuth (frame 0x06 0xFFFF 0 (2 ^ 32)) = true ∧ fPay (frame 0x06 0xFFFF 0 (2 ^ 32)) / 2 ^ 32 % 4 = 1 := by
  refine ⟨?_, ?_, ?_, ?_, ?_, ?_, ?_, ?_⟩ <;> decide +kernel

theorem wit_ManagementChainActs_timers :
    (let s : State := { up with time := { clock := 100000000 } };
      s.agentUp = true ∧ s.tow.presentAt + msTicks 1000 ≤ s.now ∧ fieldNat s.boot.report 7 0 ≠ 9 ∧ s.tow.stageAt + msTicks 100 ≤ s.now)
    ∧ (let s : State := { up with tow := { up.tow with alerts := [0x04] }, time := { clock := 100000000 } };
      s.tow.alerts.contains 0x04 = true ∧ sget 0 s.tow.alertAt (0x04 : BitVec 8).toNat + msTicks 10 ≤ s.now)
    ∧ (let f := frame 0x07 1 2 0;
      towOk f = true ∧ up.towOwn f = false ∧ up.towMine f = false ∧ fieldNat f 39 24 ≠ towAll ∧ fType f ≠ 0x02)
    ∧ (let t : TowTx := { msgId := 5, dst := 1, frames := [frame 0x07 0 1 0] }
      let s : State := { up with tow := { up.tow with tx := [t] }, time := { clock := 100000000 } };
      (s.tow.tx.find? fun t => t.msgId = (5 : BitVec 16).toNat && t.frames.all fun g => decide (fType g = 0x07)) = some t
      ∧ s.tow.culvertOpen = true ∧ t.at_ + msTicks 10 ≤ s.now ∧ t.tries < 6)
    ∧ (let t : TowTx := { dst := 1, frames := [frame 0x05 0 1 0], seq := 3 }
      let s : State := { up with tow := { up.tow with tx := [t] } };
      s.tow.culvertOpen = true
      ∧ (s.tow.tx.find? fun t => t.seq = (3 : BitVec 8).toNat && t.frames.all fun g => decide (fType g = 0x05 ∨ fType g = 0x06)) = some t)
    ∧ (up.time.refLost = false ∧ up.time.tickSet = false)
    ∧ (let s : State := { up with time := { tickSet := true, tick := 16384 } };
      s.time.refLost = false ∧ s.time.tickSet = true ∧ s.time.tick = 16384 * (1 : BitVec 64).toNat ∧ s.time.tick ≠ 16384 * (2 : BitVec 64).toNat)
    ∧ (let s : State := { up with time := { clock := 100000000, refLost := true, validSince := some 0 } };
      s.agentUp = true ∧ s.time.validSince = some 0 ∧ s.time.refLost = true ∧ s.time.hold = 0 ∧ 0 + s.recoverTicks ≤ s.now) := by
  refine ⟨?_, ?_, ?_, ?_, ?_, ?_, ?_, ?_⟩ <;> decide +kernel

/-! ### Witnesses: power and supplies -/

/-- A module whose estimate of the last 1 ms is 100 mW, its limits for the module or for each rail. -/
def estimating (rails : Bool) : State :=
  { up with pw := { up.pw with est1ms := 100 }, setup := if rails then [(0x800000, 1)] else [] }

theorem wit_PowerControllerActs :
    (let s : State := { up with time := { tick := 256 } };
      s.frz.frozen = false ∧ s.rst.cold = false ∧ s.pw.sampled ≠ s.time.tick / 256 ∧ s.controller = true
      ∧ ({ s with boot := {} } : State).controller = false)
    ∧ (let s := estimating false
      let m (mv ma : Nat) := mv * ma / 1000;
      s.controller = true ∧ 0 < s.pw.est1ms ∧ s.perRail = false ∧ 10 * m 1000 89 < 9 * s.pw.est1ms ∧ 11 * s.pw.est1ms < 10 * m 1000 111
      ∧ 9 * s.pw.est1ms ≤ 10 * m 1000 90 ∧ 10 * m 1000 110 ≤ 11 * s.pw.est1ms)
    ∧ (let s := estimating true; s.controller = true ∧ 0 < s.pw.est1ms ∧ s.perRail = true)
    ∧ (let s : State := { up with pw := { up.pw with target := some 3 } };
      s.pw.target = some 3 ∧ s.compute = true ∧ s.islandRuns (135 : Fin 136).val = true ∧ s.pw.droops.contains (135 : Fin 136).val = false
      ∧ ((s.pw.storm.filter fun t => decide (s.now < t + msTicks 1)) ++ [s.now]).length ≤ s.stormLimit)
    ∧ (let s : State := { up with pw := { up.pw with storm := List.replicate 300 0 } };
      s.stormLimit < ((s.pw.storm.filter fun t => decide (s.now < t + msTicks 1)) ++ [s.now]).length ∧ s.controller = true)
    ∧ (let s : State := { up with pw := { up.pw with droops := [135] } };
      s.compute = true ∧ s.pw.droops.contains (135 : Fin 136).val = true)
    ∧ (let s : State := { up with pw := { up.pw with lastDroop := 1, deferred := some 4 }, time := { clock := 10000000 } };
      s.compute = true ∧ s.pw.droops = [] ∧ s.pw.lastDroop ≠ 0 ∧ s.pw.lastDroop + usTicks 5 ≤ s.now ∧ s.pw.deferred = some 4
      ∧ ({ s with pw := { s.pw with deferred := none } } : State).pw.deferred = none)
    ∧ (let s : State := { up with pw := { up.pw with temps := [(0, BitVec.ofNat 13 (4096 + 8 * 99))] } };
      s.controller = true ∧ s.hotterThan s.throttleC = true)
    ∧ ((8 * 105 : Int) ≤ tempOf 840 ∧ (47 : Fin 64).val < 48 ∧ up.rst.cold = false ∧ up.frz.frozen = false ∧ agentSensor (39 : Fin 64) = true
      ∧ agentSensor (47 : Fin 64) = false ∧ up.pw.thermalTrip = false) := by
  refine ⟨?_, ?_, ?_, ?_, ?_, ?_, ?_, ?_, ?_⟩ <;> decide +kernel

/-- A rail on its way. -/
def ramping (r : Rail) : State := up.setRail r .ramping

theorem wit_AlertAndSupplyEventsAct :
    (up.rst.cold = false ∧ up.frz.frozen = false ∧ up.alertLow = false)
    ∧ (let s : State := { up with sup := { up.sup with alertN := false } };
      s.alertLow = true ∧ ({ s with sup := { s.sup with alertN := true } } : State).alertLow = false)
    ∧ (let s : State := { up with pw := { up.pw with alertHold := some 0 } };
      s.pw.alertHold = some 0 ∧ 0 ≤ s.now)
    ∧ (let s : State := { up with sup := { up.sup with hotSwap := false } };
      s.sup.hotSwap = false ∧ 50000 ≤ 50000)
    ∧ (up.sup.hotSwap = true)
    ∧ (∀ r ∈ [Rail.vser, .vpp, .vsram, .vcore], (ramping r).rail r = .ramping ∧ r ≠ .aux ∧ (nextRail r).isSome = true)
    ∧ ((ramping .vddq).rail .vddq = .ramping ∧ (ramping .aux).rail .aux = .ramping)
    ∧ (∀ p : RailPoint, up.sup.rangeBad.contains p = false)
    ∧ (let s : State := { up with rst := { up.rst with cold := true } };
      s.frz.frozen = false ∧ ((s.readings 0 48).any fun t => decide (8 * 85 < t)) = false ∧ s.rst.cold = true)
    ∧ (let s : State := { up with pw := { up.pw with thermalTrip := true, temps := [(0, BitVec.ofNat 13 (4096 + 8 * 85))] } };
      s.frz.frozen = false ∧ ((s.readings 0 48).any fun t => decide (8 * 85 < t)) = false ∧ s.rst.cold = false ∧ s.pw.thermalTrip = true) := by
  refine ⟨?_, ?_, ?_, ?_, ?_, ?_, ?_, fun _ => rfl, ?_, ?_⟩ <;> decide +kernel

theorem wit_AlertAndSupplyEventsAct_back (p : RailPoint) :
    ({ up with sup := { up.sup with rangeBad := [p] } } : State).sup.rangeBad.contains p = true := by
  show [p].contains p = true
  simp

/-! ### Witnesses: resets and bring-up -/

/-- A module in service long after everything last moved. -/
def late (s : State) : State := { s with time := { s.time with clock := 1000000000000 } }

theorem wit_WatchdogsReset :
    (let s := late { work with cells := [(0, { mxq := [{ op := .mclr, zero := true }] }), (1, { mvq := [{ kind := .dma, ctx := 1 }] }),
                                         (2, { fg := { running := true } }), (3, { tr := { running := true } })]
                               movers := [(30, { xfer := some { kind := .fill, ctx := 1, dst := 0, len := 64 } }), (31, { cur := some { kind := .fill, ctx := 1, dst := 0, len := 64 } })] };
      s.compute = true ∧ (s.cell 0).inReset = false ∧ (s.cell 0).mxq ≠ [] ∧ (s.cell 0).progress + s.cellLimit ≤ s.now ∧ s.mayReset (.cell 0)
      ∧ ((s.cell 1).mvq.head?.map (·.kind)) = some .dma ∧ (s.cell 1).progress + s.cellLimit ≤ s.now
      ∧ s.thStuck 2 .fg = true ∧ s.thStuck 3 .tr = true ∧ s.mayReset (.cell 3)
      ∧ s.mayReset (.memGroup 31) ∧ (s.mover 31).cur.isSome = true ∧ (s.mover 31).inReset = false ∧ (s.mover 31).progress + s.engLimit ≤ s.now
      ∧ (s.mover 30).xfer.isSome = true)
    ∧ (let s := late { work with cells := [(0, { mvq := [{ kind := .ferry, ctx := 1 }] })]
                                 streams := [{ decoding := [unit1], engine := 15 }] };
      s.ferryWaits = true ∧ s.fry.inReset = false ∧ s.fry.progress + s.engLimit ≤ s.now ∧ s.mayReset .ferry
      ∧ (∀ x ∈ s.streams, x.engine = (15 : Fin 16).val ∧ x.decoding ≠ [] ∧ x.progress + s.itkLimit ≤ s.now) ∧ s.itkReset = false
      ∧ s.mayReset .intake ∧ s.hst.inReset = false ∧ s.mayReset .hawser ∧ s.mayReset .compute) := by
  refine ⟨?_, ?_⟩ <;> decide +kernel

theorem wit_ResetsProceed :
    (∀ d ∈ [.cell 127, .compute, .port 6, .group 15, .memGroup 31, .ferry, .intake, .hawser],
      (let r : Resetting := { dom := d, cause := 1 }
        let s : State := { work with rst := { work.rst with active := [r] } };
        s.rst.cold = false ∧ s.frz.frozen = false ∧ (s.rst.active.find? fun r => r.dom = d) = some r ∧ r.due ≤ s.now))
    ∧ (work.mayReset .compute ∧ (work.rst.active.any fun r => r.dom = .compute) = false ∧ work.rst.warm = false)
    ∧ (let s : State := { work with frz := { frozen := true } };
      s.rst.cold = false ∧ s.frz.frozen = true)
    ∧ (let s : State := { work with rst := { work.rst with deferred := [(.ferry, 4)] } };
      (s.rst.deferred.find? fun e => e.1 = Domain.ferry) = some (.ferry, 4) ∧ s.tooSoon .ferry = false)
    ∧ (let s : State := { work with agent := { sliceRec := BitVec.ofNat 256 (3 * 2 ^ 64) } }
      let x : BitVec 128 := 0x301;
      s.agentUp = true ∧ fieldNat x 7 0 = 1 ∧ fieldNat x 15 8 ≠ 0 ∧ fieldNat x 15 8 = s.ownSlice ∧ (sliceBox s.agent.sliceRec).contains 0 = true
      ∧ fieldNat (0x001 : BitVec 128) 15 8 = 0 ∧ fieldNat (0x401 : BitVec 128) 15 8 ≠ s.ownSlice
      ∧ (sliceBox s.agent.sliceRec).contains 1 = false)
    ∧ (let s : State := { work with fab := { work.fab with abortMap := [(1, redPkt)] } };
      s.agentUp = true ∧ s.fab.abortMap ≠ [] ∧ s.fab.abortAt ≤ s.now ∧ s.fab.abortTries + 1 < s.tries) := by
  refine ⟨?_, ?_, ?_, ?_, ?_, ?_⟩ <;> decide +kernel

/-- A module at a stage of bring-up. -/
def booting (n : Nat) (p : StagePhase) : State := { up with boot := { stage := n, phase := p } }

theorem wit_StagesRun :
    (∀ n ∈ [0, 1, 2, 3, 4, 5, 7, 9], (booting n .pending).stageTurn n = true ∧ (booting n .pending).boot.phase = .pending
      ∧ (booting n .pending).pw.thermalTrip = false)
    ∧ (∀ n ∈ [0, 1, 2, 3, 4, 5, 6, 7, 8], (booting n .started).stageTurn n = true ∧ (booting n .started).boot.phase = .started)
    ∧ (let s : State := { booting 0 .started with pw := { up.pw with thermalTrip := true } };
      s.stageTurn 0 = true ∧ s.boot.phase = .started ∧ s.pw.thermalTrip = true)
    ∧ ((booting 0 .started).pw.thermalTrip = false ∧ sweepFault {} = none ∧ sweepFault { volts := [(24, 1700)] } = some 6
      ∧ sweepFault { temps := [(63, none)] } = some 0x13F ∧ (booting 0 .started).tow.agentOn = true
      ∧ ({ booting 0 .started with tow := {} } : State).tow.agentOn = false)
    ∧ ((booting 1 .started).slotFails { flashBad := (true, true) } false = some 5
      ∧ (booting 1 .started).slotFails { flashBad := (true, true) } true = some 5 ∧ ({} : StageSeen).fuseCrcOk = true)
    ∧ (let s := booting 4 .started;
      s.boot.waves = (0 : Fin 9).val ∧ s.boot.waveAt + usTicks (200 * (0 : Fin 9).val) ≤ s.now)
    ∧ (let s : State := { up with boot := { stage := 4, phase := .started, waves := 9 } };
      s.stageTurn 4 = true ∧ s.boot.waves = 9)
    ∧ (let s : State := { up with boot := { stage := 6, phase := .started, warm := true }, time := { tickSet := true } };
      s.stageTurn 6 = true ∧ s.boot.phase ≠ .pending ∧ s.time.tickSet = true ∧ s.boot.warm = true)
    ∧ (let s := booting 6 .started;
      s.time.tickSet = false ∧ (List.range 7).all s.portTried = true)
    ∧ (let s := late (booting 7 .started);
      s.hst.up = true ∧ ({ dhcpOk := true } : StageSeen).dhcpOk = true ∧ ({} : StageSeen).ethUp = (false, false)
      ∧ s.boot.phase ≠ .pending ∧ s.boot.startedAt + msTicks 3000 ≤ s.now)
    ∧ (∀ n ∈ [0, 1, 2, 3, 4, 5], (let s := late (booting n .started);
      s.boot.stage = n ∧ s.boot.startedAt + msTicks (stageLimit n) ≤ s.now)) := by
  refine ⟨?_, ?_, ?_, ?_, ?_, ?_, ?_, ?_, ?_, ?_, ?_⟩ <;> decide +kernel

/-- A header in good form, and stage 1 of a module that holds it in slot 0. -/
def goodHdr : List Byte := hdr 512 [(0, 0x5746554B), (32, 0x8130), (48, 1), (104, 1), (288, 16), (320, 1)]
def slotted : State := { booting 1 .started with fw := { up.fw with slot0 := { present := true, hdr := goodHdr } } }

/-- A slot whose image the signature check accepts verifies, and the empty one beside it does not. -/
theorem wit_StagesRun_slot (h : imageSigned goodHdr = true) : slotted.slotFails {} false = none ∧ slotted.slotFails {} true = some 1 := by
  have e : slotted.hdrCode goodHdr = none := by
    rw [State.hdrCode, if_neg (by decide +kernel), if_neg (by simp [h]), if_neg (by decide +kernel)]
  have f : hdrFormBad goodHdr = false := by decide +kernel
  have i : slotted.fw.slot0 = { present := true, hdr := goodHdr } := rfl
  refine ⟨by simp [State.slotFails, i, e, f], by decide +kernel⟩

/-! ### Witnesses: the console and JTAG -/

/-- A module with a confidential context. -/
def confidential : State := { up with ctxs := [(1, { live := true, keySlot := 1 })] }
def frozen : State := { up with frz := { frozen := true } }

theorem wit_ConsoleCommandsAnswer :
    (up.rail .aux = .good ∧ confidential.rail .aux = .good ∧ confidential.confMode = true ∧ regionOf 0 ≠ .regs)
    ∧ (up.confMode = false ∧ up.frz.frozen = false ∧ up.rst.cold = false ∧ up.rst.warm = false)
    ∧ ((up.streams.all fun x => decide (x.engine ≠ (15 : Fin 16).val)) = true ∧ (up.noContexts || !up.maps.live.contains 255) = true
      ∧ up.debugLocked = false)
    ∧ ((up.dumpBytes 0xF00000000000 0).isSome = true ∧ (up.dumpBytes 0xFF0000000000 4).isSome = true
      ∧ regionOf (0xFF0000000000 : BitVec 48).toNat = .regs ∧ (up.dumpBytes 0xFF0000000001 4).isSome = false)
    ∧ (frozen.rail .aux = .good ∧ frozen.confMode = false ∧ frozen.frz.frozen = true ∧ frozen.frz.conf = false ∧ frozen.frz.computeLost = false)
    ∧ ({ up with frz := { frozen := true, conf := true } } : State).frz.conf = true
    ∧ ({ up with frz := { frozen := true, computeLost := true } } : State).frz.computeLost = true := by
  refine ⟨?_, ?_, ?_, ?_, ?_, ?_, ?_⟩ <;> decide +kernel

/-- A cell may be self-tested where the fuses do not mark it bad. -/
theorem wit_ConsoleCommandsAnswer_cell (h : Config.fuseBadCells = []) : up.cellTestable 0 = true ∧ up.confMode = false := by
  refine ⟨?_, by decide +kernel⟩
  have e : up.noContexts = true := by decide +kernel
  simp [State.cellTestable, h, e]

/-! ### Witnesses: step, set-up, memory, registers -/

theorem wit_EmptyQueueTicks :
    (frozen.pending = [] ∧ frozen.frz.frozen = true)
    ∧ (let s : State := { up with rst := { up.rst with cold := true } }; s.pending = [] ∧ s.rst.cold = true)
    ∧ (let s : State := { up with time := { tickSet := true } };
      s.pending = [] ∧ s.frz.frozen = false ∧ s.rst.cold = false ∧ s.time.tickSet = true ∧ s.time.hold = 0)
    ∧ (up.pending = [] ∧ up.time.tickSet = false) := by decide +kernel

theorem wit_WellFormedCommandsRun : (Instr.hostRdData 0 0 0 ⟨0x11, List.replicate 4096 0⟩).wf = true ∧ Instr.presentTimer.wf = true := by
  decide +kernel

/-- A command that answers a next state, as CommandsKeepTheQueue asks. -/
theorem wit_CommandsKeepTheQueue : exec (.readRetrack 0) up = .next up := by
  show Host.Outcome.next (commit up up) = _
  simp [commit]

/-- An empty queue at reset answers a next state from canonical set-up. -/
theorem wit_SetupStaysCanonical : setupCanonical 0 State.reset.setup = true ∧ ∃ t, step State.reset = .next t :=
  ⟨by decide +kernel, _, rfl⟩

theorem wit_LockEndsSetup :
    (let s : State := { lockedUp with frz := { frozen := true } }
      let t : State := { s with time := { s.time with clock := s.time.clock + 1, live := s.time.live + 1 } };
      s.locked = true ∧ step s = .next t ∧ t.rst.colds = s.rst.colds)
    ∧ (let s : State := { lockedUp with pending := [.coldReset .resetN] };
      ∃ t, step s = .next t ∧ t.rst.colds ≠ s.rst.colds)
    ∧ (lockedUp.hostReach = true ∧ (rwlMask (0x400010 : BitVec 32).toNat).isSome = true ∧ (1 : Fin 8) ≠ 0
      ∧ lockedUp.ethEnabled (31 : Fin 32).val = false ∧ bitAt (0 : BitVec 32) 0 = false)
    ∧ (fieldNat (5 : BitVec 32) 7 2 ≠ 0 ∧ (work.ctx (fieldNat (5 : BitVec 32) 7 2)).live = true ∧ work.ctxSlot (fieldNat (5 : BitVec 32) 7 2) = 0
      ∧ bitAt (0x80000000 : BitVec 32) 31 = true) := by
  refine ⟨⟨by decide +kernel, rfl, rfl⟩, ⟨_, rfl, by decide +kernel⟩, by decide +kernel, by decide +kernel⟩

theorem wit_MemoryWritesHold : Memory.wf [(5, 1), (9, 2)] = true ∧ Memory.wf [] = true ∧ ∀ a, sget (0 : Byte) [] a = sget 0 [] a :=
  ⟨by decide, by decide, fun _ => rfl⟩

theorem wit_RegisterWritesHold :
    (let s := running work .fg 0;
      swf {} s.cells = true ∧ swf 0 (s.th 0 .fg).a = true ∧ swf 0 (s.th 0 .fg).v = true ∧ swf 0 (s.th 0 .fg).p = true ∧ (31 : Nat) ≠ 0)
    ∧ (let j : Issue := { left := 2 }
      let s : State := { work with cells := [(0, { fg := { running := true, issue := some j } })] };
      (s.th 0 .fg).issue = some j ∧ j.left &&& ~~~(1#5 <<< Slot.idx .ld) ≠ 0)
    ∧ (let j : Issue := { left := 1, next := 1 }
      let s : State := { work with cells := [(0, { fg := { running := true, count := 2, issue := some j }, imem := [(1, 1)] })] };
      j.left &&& ~~~(1#5 <<< Slot.idx .ld) = 0 ∧ j.fault = none ∧ (s.th 0 .fg).base ≤ j.next ∧ j.next < (s.th 0 .fg).base + (s.th 0 .fg).count
      ∧ sget 0 (s.cell 0).imem j.next ≠ 0) := by
  refine ⟨?_, ?_, ?_⟩ <;> decide +kernel

/-! ### Witnesses: exact-window arithmetic -/

theorem wit_ProductsEnterTheWindow : (2 : ℤ) ^ 95 ≤ |(2 : ℤ) ^ 95| := by simp

theorem wit_SpecialInputsSetFlags :
    (let a := Val.nan;
      a = .nan) ∧ (5 : Nat) ≠ 255 ∧ (let a := Val.inf true
      let b := Val.fin false 0 0;
      a = .inf true ∧ b = .fin false 0 0) ∧ 0 < 3 := by decide

theorem wit_RecordsHoldAccumulators :
    ∀ i, i < 126 → i ≠ 124 → bitAt (({} : Acc).record ||| BitVec.ofNat 128 (2 ^ 127)) i = bitAt ({} : Acc).record i := by decide +kernel

theorem wit_WindowSumOrderFree : [Val.nan, .inf true].Perm [.inf true, .nan] := List.Perm.swap _ _ _

/-! ### Tests from the spec's own examples -/

/-- The products of the example at R47, with scale codes 0x7E and 0x80. -/
def example47 : List Val :=
  [(0x3C, 0x4A), (0xB3, 0x29), (0x01, 0x70), (0x56, 0xC4)].map fun e => mxProduct (elemVal 0 e.1) (elemVal 0 e.2) 0x7E 0x80

/-- R47, example: the record of the sum, its FP32 and BF16 conversions, and the other order. -/
theorem test_window_example :
    (let a := example47.foldl (fun (a : Acc) p => a.addProduct (-6) p) {};
      a.record = 0x20FFFFFFFFFFFFFFFFFFFFFFFFFFF764 ∧ a.convert fFP32 .nearest (-6) none = 0xC209C000
      ∧ a.convert fBF16 .nearest (-6) none = 0xC20A ∧ a.escaped = false)
    ∧ [example47.getD 3 .nan, example47.getD 1 .nan, example47.getD 0 .nan, example47.getD 2 .nan].foldl
        (fun (a : Acc) p => a.addProduct (-6) p) {} = example47.foldl (fun (a : Acc) p => a.addProduct (-6) p) {} := by
  decide +kernel

/-- 05, example: the channel of an address with channels 37 and 200 mapped out. -/
theorem test_channel_example :
    channelOf ((List.range 256).filter fun c => decide (c ≠ 37 ∧ c ≠ 200)) 0x4A3C17C0 = 87 := by decide +kernel

/-- The state a command leaves. -/
def next (s : State) (c : Instr) : State :=
  match exec c s with
  | .next t => t
  | _ => s

/-- 20, example: the driver's writes in order. -/
def written1 : State := next up (.genAux 2)
def written2 : State := next written1 (.fryTktMin 0x08484080)
def written3 : State := next written2 (.fryTktMin 0x08404060)
def written4 : State := next written3 (.genAux 1)
def written5 : State := next written4 (.genSetupErrClear 0x80000000)
def written6 : State := next written5 (.genSetupLock 1)
def written7 : State := next written6 (.regWr 0x200040 (.write 0x518))

theorem test_setup_example :
    written1.word 0x20 = 2 ∧ written2.word 0x500010 = 0x08202040 ∧ written2.readReg 0x10 = 0x82500010 ∧ written2.setupErr.count = 1
    ∧ written3.word 0x500010 = 0x08404060 ∧ written4.readReg 0x10 = 0x82500010 ∧ written4.setupErr.count = 2
    ∧ written5.readReg 0x10 = 0 ∧ written5.setupErr.count = 2 := by decide +kernel

theorem test_setup_lock_example :
    written6.locked = true ∧ written7.readReg 0x10 = 0x85200040 ∧ written7.setupErr.count = 3 ∧ written7.word 0x200040 = 0xA18 := by
  decide +kernel

/-- R587: the check value of CRC-16/CCITT over the digits 1 to 9, and that of CRC-32C (log 11). -/
theorem test_crc :
    (let d : List Byte := [0x31, 0x32, 0x33, 0x34, 0x35, 0x36, 0x37, 0x38, 0x39];
      crc16 d = 0x29B1 ∧ crc32c d = 0xE3069283) := by decide +kernel

/-- R3: the SHA-384 digest of the three letters abc, its first four bytes. -/
theorem test_sha384 : (sha384 [0x61, 0x62, 0x63]).take 4 = [0xCB, 0x00, 0x75, 0x3F] := by decide +kernel

/-- R75: the exact results from which the fixed functions differ by at most 2 ulp: 1 / 3, 1 / sqrt 3, 2^pi and log2 of pi in FP32. -/
theorem test_exact_functions :
    rcpExact false 3 0 = 0x3EAAAAAB ∧ rsqExact 3 0 = 0x3F13CD3A ∧ expExact false 0xC90FDB (-22) = 0x410D331D
    ∧ logExact 0xC90FDB (-22) = 0x3FD3643A := by decide +kernel

/-! ### Well-formed commands: an ill-formed term for each check is refused -/

theorem test_wf_hostRdData : (Instr.hostRdData 0 0 0 ⟨0x11, List.replicate 4097 0⟩).wf = false := by decide +kernel
theorem test_wf_ethQWordWrite : (Instr.ethQWordWrite 0 0 0).wf = false ∧ (Instr.ethQWordWrite 0 7 0).wf = true := by decide +kernel
theorem test_wf_resultChunk : (Instr.resultChunk 0 [0, 0, 0]).wf = false ∧ (Instr.resultChunk 0 (List.replicate 4100 0)).wf = false := by decide +kernel
theorem test_wf_overflowToken : (Instr.overflowToken 0 [0]).wf = false ∧ (Instr.overflowToken 0 (List.replicate 64 0)).wf = true := by decide +kernel
theorem test_wf_refusal : (Instr.refusal 0 [0, 0]).wf = false ∧ (Instr.refusal 0 (List.replicate 64 0)).wf = true := by decide +kernel
theorem test_wf_packetRoute :
    (Instr.packetRoute 0 0 ⟨some { hdr := 0, payload := [0] }, none⟩).wf = false ∧ (Instr.packetRoute 0 0 ⟨none, none⟩).wf = true := by decide +kernel

/-- An ill-formed command faults by name. -/
theorem test_illFormed_faults : exec (.ethQWordWrite 0 0 0) up = .fault .illFormedCommand := rfl

/-! ### The queue -/

/-- The front command runs, and the one behind it waits. -/
theorem test_step_runs_front : step { up with pending := [.readRetrack 0, .presentTimer] } = .next { up with pending := [.presentTimer] } := by
  show Host.Outcome.next (commit { up with pending := [.presentTimer] } { up with pending := [.presentTimer] }) = _
  simp [commit]

/-- The rows of the table give no bits: no word spells a command, and no word changes the queue. -/
theorem test_no_table_words : decodeTableWord 32 0 = none ∧ State.reset.withFetchWord 32 5 = State.reset := ⟨rfl, rfl⟩

end Sys2Proof.Tests
end

/-! ## Well-formed commands (logs 1 and 148) -/

namespace Sys2Proof.Machine

/-- A command whose operand is checked answers a next state where the check holds. -/
theorem actIf_next {ok : Bool} (h : ok = true) (f : State → State) (s : State) : ∃ t, actIf ok f s = .next t :=
  ⟨_, actIf_eq h f s⟩

/-- Five rows check an operand, and `Instr.wf` holds the same check; every other row answers by its definition. -/
theorem exec_next_of_wf (c : Instr) (s : State) (h : c.wf = true) : ∃ t, exec c s = .next t := by
  cases c
  case regWr off v => cases v <;> exact ⟨_, rfl⟩
  case ethQWordWrite q w v =>
    have hw : w.val ≠ 0 := Fin.val_ne_zero_iff.mpr (of_decide_eq_true h)
    exact ⟨_, if_neg hw⟩
  case resultChunk hdr payload => exact actIf_next h _ s
  case overflowToken hdr payload => exact actIf_next h _ s
  case refusal hdr payload => exact actIf_next h _ s
  case packetRoute port vc arriving =>
    obtain ⟨_ | p, m⟩ := arriving
    · exact ⟨_, rfl⟩
    · exact actIf_next h _ s
  all_goals exact ⟨_, rfl⟩

/-- Settles O50: the only fault of a command is its operand check, which a well-formed command passes. -/
theorem wellFormedCommandsRun : Obligations.WellFormedCommandsRun := by
  unfold Obligations.WellFormedCommandsRun
  exact exec_next_of_wf

end Sys2Proof.Machine

/-! ## Register writes and reads of the host (R7, R248, R304, R544 to R546)

The register that a write names holds the written fields; the alert wire and the ticket-low signal, which a write may change besides (R206,
R573), touch none of the rest. -/

namespace Sys2Proof.Machine

/-! ### What the alert wire and the ticket-low signal leave -/

/-- Set-up and its errors, the queue, Ethernet queues, contexts, memory and the pins are in t as they are in s. -/
structure KeepsSetup (s t : State) : Prop where
  setup : t.setup = s.setup
  setupErr : t.setupErr = s.setupErr
  pending : t.pending = s.pending
  ethq : t.ethq = s.ethq
  eth : t.eth = s.eth
  ctxs : t.ctxs = s.ctxs
  mem : t.mem = s.mem
  sup : t.sup = s.sup

theorem KeepsSetup.refl (s : State) : KeepsSetup s s := ⟨rfl, rfl, rfl, rfl, rfl, rfl, rfl, rfl⟩

theorem KeepsSetup.trans {s t u : State} (h : KeepsSetup s t) (g : KeepsSetup t u) : KeepsSetup s u :=
  ⟨g.setup.trans h.setup, g.setupErr.trans h.setupErr, g.pending.trans h.pending, g.ethq.trans h.ethq, g.eth.trans h.eth,
    g.ctxs.trans h.ctxs, g.mem.trans h.mem, g.sup.trans h.sup⟩

/-- The alert wire is read from the pins and GEN_AUX. -/
theorem KeepsSetup.alertLow {s t : State} (h : KeepsSetup s t) : t.alertLow = s.alertLow := by
  unfold State.alertLow State.fld State.word
  rw [h.setup, h.sup]

/-- A loop keeps what each of its turns keeps. -/
theorem forEach_keepsSetup {α : Type} (f : State → α → State) (hf : ∀ s a, KeepsSetup s (f s a)) :
    ∀ (xs : List α) (s : State), KeepsSetup s (forEach xs f s)
  | [], s => .refl s
  | x :: xs, s => (hf s x).trans (forEach_keepsSetup f hf xs (f s x))

theorem towSend_keepsSetup (s : State) (type dst payload : Nat) : KeepsSetup s (s.towSend type dst payload) := by
  unfold State.towSend
  split <;> constructor <;> rfl

theorem alertOn_keepsSetup (s : State) (code : BitVec 8) : KeepsSetup s (s.alertOn code) := by
  unfold State.alertOn
  split
  · exact .refl s
  · refine .trans ?_ (towSend_keepsSetup _ _ _ _)
    constructor <;> rfl

theorem alertOff_keepsSetup (s : State) (code : BitVec 8) : KeepsSetup s (s.alertOff code) := by
  unfold State.alertOff
  split
  · refine .trans ?_ (towSend_keepsSetup _ _ _ _)
    constructor <;> rfl
  · exact .refl s

theorem railAlert_keepsSetup (s : State) : KeepsSetup s s.railAlert := by
  unfold State.railAlert
  split
  · exact alertOn_keepsSetup s _
  · exact alertOff_keepsSetup s _

theorem setOp_keepsSetup (s : State) (o : Nat) : KeepsSetup s (s.setOp o) := by
  unfold State.setOp
  refine (forEach_keepsSetup _ (fun s c => ?_) _ s).trans ⟨rfl, rfl, rfl, rfl, rfl, rfl, rfl, rfl⟩
  split <;> constructor <;> rfl

theorem wire_keepsSetup (s before : State) : KeepsSetup s (s.wire before) := by
  unfold State.wire
  split
  · exact .refl s
  split
  · split <;> constructor <;> rfl
  split
  · refine (setOp_keepsSetup s 0).trans (.trans ?_ (railAlert_keepsSetup _))
    constructor <;> rfl
  · refine .trans ?_ (railAlert_keepsSetup _)
    constructor <;> rfl

/-- A wire that stands as it stood has no effect. -/
theorem wire_of_alertLow_eq {s before : State} (h : s.alertLow = before.alertLow) : s.wire before = s := if_pos h

/-- Sluice looks at causes in the fabric's own state. -/
theorem sluiceCauses_eq (s : State) : ∃ fab, s.sluiceCauses = { s with fab := fab } := by
  unfold State.sluiceCauses
  dsimp only
  split_ifs <;> exact ⟨_, rfl⟩

theorem ticketSignal_eq (s : State) : ∃ fry fab, s.ticketSignal = { s with fry := fry, fab := fab } :=
  ⟨_, sluiceCauses_eq { s with fry := _ }⟩

/-! ### What a write of the host leaves -/

/-- The register written and, for FRY_TKT_MIN, the ticket-low signal formed anew (R206): a write before the alert wire is looked at. -/
def State.writeSignalled (s : State) (off : Nat) (v : BitVec 32) : State :=
  if off = 0x500010 then (s.regWr off v).ticketSignal else s.regWr off v

theorem hostWrite_eq {s : State} {off : Nat} (v : BitVec 32) (hreach : s.hostReach = true) (hoff : off ≠ 0x900020) :
    s.hostWrite off v = { (s.writeSignalled off v).wire s with
      setup := (s.regWr off v).setup, setupErr := (s.regWr off v).setupErr, rst := (s.regWr off v).rst } := by
  simp only [State.hostWrite, hreach, hoff, Bool.not_true, Bool.false_eq_true, if_false, State.writeSignalled]

theorem writeSignalled_eq (s : State) (off : Nat) (v : BitVec 32) :
    ∃ fry fab, s.writeSignalled off v = { s.regWr off v with fry := fry, fab := fab } := by
  unfold State.writeSignalled
  split
  · exact ticketSignal_eq _
  · exact ⟨_, _, rfl⟩

theorem writeSignalled_keepsSetup (s : State) (off : Nat) (v : BitVec 32) : KeepsSetup (s.regWr off v) (s.writeSignalled off v) := by
  obtain ⟨fry, fab, h⟩ := writeSignalled_eq s off v
  rw [h]
  constructor <;> rfl

theorem writeSignalled_cells (s : State) (off : Nat) (v : BitVec 32) : (s.writeSignalled off v).cells = (s.regWr off v).cells := by
  obtain ⟨fry, fab, h⟩ := writeSignalled_eq s off v
  rw [h]

/-- A write that is no command of RST_CMD leaves what the register write leaves. -/
theorem hostWrite_keepsSetup {s : State} {off : Nat} (v : BitVec 32) (hreach : s.hostReach = true) (hoff : off ≠ 0x900020) :
    KeepsSetup (s.regWr off v) (s.hostWrite off v) := by
  have h := (writeSignalled_keepsSetup s off v).trans (wire_keepsSetup _ s)
  rw [hostWrite_eq v hreach hoff]
  exact ⟨rfl, rfl, h.pending, h.ethq, h.eth, h.ctxs, h.mem, h.sup⟩

/-- Where the alert wire stands, the cells are as the register write leaves them: the wire reads pins and set-up, which are final before
it is looked at. -/
theorem hostWrite_cells {s : State} {off : Nat} (v : BitVec 32) (hreach : s.hostReach = true) (hoff : off ≠ 0x900020)
    (hlow : (s.hostWrite off v).alertLow = s.alertLow) : (s.hostWrite off v).cells = (s.regWr off v).cells := by
  have hstands : (s.writeSignalled off v).alertLow = s.alertLow :=
    calc (s.writeSignalled off v).alertLow
      _ = (s.regWr off v).alertLow := (writeSignalled_keepsSetup s off v).alertLow
      _ = (s.hostWrite off v).alertLow := (hostWrite_keepsSetup v hreach hoff).alertLow.symm
      _ = s.alertLow := hlow
  calc (s.hostWrite off v).cells
    _ = ((s.writeSignalled off v).wire s).cells := by rw [hostWrite_eq v hreach hoff]
    _ = (s.writeSignalled off v).cells := congrArg State.cells (wire_of_alertLow_eq hstands)
    _ = (s.regWr off v).cells := writeSignalled_cells s off v

/-! ### RWL registers (R546, R548) -/

/-- The offset of a register of a block lies at the block's base or behind it, a whole number of steps away. -/
theorem regIdx_isSome {off base step n : Nat} (h : (regIdx off base step n).isSome = true) :
    base ≤ off ∧ (off - base) % step = 0 ∧ (off - base) / step < n := by
  unfold regIdx at h
  split at h
  · assumption
  · cases h

/-- Every RWL register is reached by a register write, and none of them is RST_CMD. -/
theorem rwlMask_reached {off : Nat} {m : BitVec 32} (h : rwlMask off = some m) : regOutside off = false ∧ off ≠ 0x900020 := by
  unfold rwlMask at h
  split at h
  case h_31 =>
    split at h
    · next hrail =>
      obtain ⟨hbase, hstep, hcount⟩ := regIdx_isSome hrail
      simp only [regOutside, Bool.or_eq_false_iff, decide_eq_false_iff_not]
      omega
    · cases h
  all_goals decide

/-- A register write to an RWL register; the lock's bit stays set once it is (R543). -/
theorem regWr_of_rwlMask {s : State} {off : Nat} {m : BitVec 32} (v : BitVec 32) (hmask : rwlMask off = some m) :
    s.regWr off v = s.writeChecked off m (if off = 0x8 then v ||| s.word 0x8 else v) := by
  simp only [State.regWr, (rwlMask_reached hmask).1, hmask, Bool.false_eq_true, if_false]

/-- A write with neither lock nor refusal stores the fields of its register. -/
theorem writeChecked_accepted {s : State} {off : Nat} {m v : BitVec 32} (hlock : s.locked = false) (hok : s.refusal off v = none) :
    s.writeChecked off m v = s.putWord off (v &&& m) := by
  simp only [State.writeChecked, hlock, hok, Bool.false_eq_true, if_false]

/-- While the lock is clear, the lock bit is the written one. -/
theorem or_lockWord_and_one {s : State} (v : BitVec 32) (hlock : s.locked = false) : (v ||| s.word 0x8) &&& 1 = v &&& 1 := by
  have hbit : (s.word 0x8).toNat % 2 ≠ 1 := by simpa [State.locked, State.fld] using hlock
  have hclear : s.word 0x8 &&& 1 = 0 := by
    apply BitVec.eq_of_toNat_eq
    show (s.word 0x8).toNat &&& 1 = 0
    rw [Nat.and_one_is_mod]
    omega
  rw [BitVec.and_or_distrib_right, hclear]
  exact BitVec.or_zero

/-- Where the register write stores a word, the command stores it and leaves the rest. -/
theorem written_stored {s : State} {off : Nat} {v w : BitVec 32} (hcan : setupCanonical 0 s.setup = true) (hreach : s.hostReach = true)
    (hoff : off ≠ 0x900020) (hput : s.regWr off v = s.putWord off w) :
    ∃ t, written s (s.hostWrite off v) = .next t ∧ s.stored t off w := by
  have hkeep := hostWrite_keepsSetup v hreach hoff
  have hcells := hostWrite_cells v hreach hoff
  rw [hput] at hkeep hcells
  have hword : ∀ o, (s.hostWrite off v).word o = (s.putWord off w).word o := fun o => by simp only [State.word, hkeep.setup]
  exact ⟨_, rfl, (hword off).trans (putWord_word s off w hcan), fun o ho => (hword o).trans (putWord_word_ne s off o w ho),
    hkeep.setupErr, rfl, hkeep.ethq, hkeep.ctxs, hcells, hkeep.mem⟩

/-- A write to an RWL register other than the lock that is not refused stores its fields and nothing else (R7, R546). -/
theorem rwlWrite_stored {s : State} {off : Nat} {v m : BitVec 32} (hcan : setupCanonical 0 s.setup = true) (hreach : s.hostReach = true)
    (hlock : s.locked = false) (hmask : rwlMask off = some m) (hoff : off ≠ 0x8) (hok : s.refusal off v = none) :
    ∃ t, written s (s.hostWrite off v) = .next t ∧ s.stored t off (v &&& m) :=
  written_stored hcan hreach (rwlMask_reached hmask).2 (by rw [regWr_of_rwlMask v hmask, if_neg hoff, writeChecked_accepted hlock hok])

/-- GEN_SETUP_LOCK takes the written bit while it is clear (R543). -/
theorem genSetupLock_stored {s : State} (v : BitVec 32) (hcan : setupCanonical 0 s.setup = true) (hreach : s.hostReach = true)
    (hlock : s.locked = false) : ∃ t, exec (.genSetupLock v) s = .next t ∧ s.stored t 0x8 (v &&& 1) ∧ t.locked = bitAt v 0 := by
  have hput : s.regWr 0x8 v = s.putWord 0x8 (v &&& 1) := by
    rw [regWr_of_rwlMask v rfl, if_pos rfl, writeChecked_accepted hlock rfl, or_lockWord_and_one v hlock]
  obtain ⟨t, ht, hst⟩ := written_stored hcan hreach (by decide) hput
  refine ⟨t, ht, hst, ?_⟩
  simp [State.locked, State.fld, hst.1, bitAt, Nat.testBit_zero]

/-! ### When a value is not refused (R216, R330, R550) -/

theorem refusal_genAux {s : State} {v : BitVec 32} (hval : fieldNat v 1 0 ≠ 3)
    (hcur : s.fld 0x20 0 2 = 0 ∨ fieldNat v 1 0 = s.fld 0x20 0 2) : s.refusal 0x20 v = none :=
  if_neg (by omega)

theorem refusal_fryTktMin {s : State} {v : BitVec 32} (hsum : fieldNat v 7 0 + fieldNat v 15 8 + fieldNat v 23 16 ≤ 256) :
    s.refusal 0x500010 v = none :=
  if_neg (Nat.not_lt.mpr hsum)

theorem refusal_fabFc {s : State} {v : BitVec 32} (hon : min 128 (fieldNat v 7 0) > max 51 (fieldNat v 15 8))
    (hesc : max 51 (fieldNat v 15 8) > max 51 (fieldNat v 23 16) + 8) : s.refusal 0x702000 v = none :=
  if_pos ⟨hon, hesc⟩

theorem refusal_fabFc2 {s : State} {v : BitVec 32} (hon : min 96 (fieldNat v 7 0) > max 51 (fieldNat v 15 8)) :
    s.refusal 0x702004 v = none :=
  if_pos hon

/-! ### The words of ETH_Q_n (R304, R545) -/

/-- No RWL register stands in the block of ETH_Q_n. -/
theorem rwlMask_ethq {off : Nat} (hlo : 0xD00100 ≤ off) (hhi : off < 0xD00500) : rwlMask off = none := by
  unfold rwlMask
  split
  case h_31 =>
    refine if_neg fun hrail => ?_
    obtain ⟨hbase, hstep, hcount⟩ := regIdx_isSome hrail
    omega
  all_goals omega

/-- A register write reaches word w of ETH_Q_n. -/
theorem regWr_ethq (s : State) {q w : Nat} (v : BitVec 32) (hq : q < 32) (hw : w < 8) :
    s.regWr (0xD00100 + 32 * q + 4 * w) v = if w = 0 then s.ethEnable q v else s.ethWord q w v := by
  have hout : regOutside (0xD00100 + 32 * q + 4 * w) = false := by
    simp only [regOutside, Bool.or_eq_false_iff, decide_eq_false_iff_not]
    omega
  have hidx : regIdx (0xD00100 + 32 * q + 4 * w) 0xD00100 4 256 = some (8 * q + w) := by
    have hdiv : (0xD00100 + 32 * q + 4 * w - 0xD00100) / 4 = 8 * q + w := by omega
    rw [regIdx, hdiv]
    exact if_pos (by omega)
  have hmod : (8 * q + w) % 8 = w := by omega
  have hdiv : (8 * q + w) / 8 = q := by omega
  have herr : 0xD00100 + 32 * q + 4 * w ≠ 0x10 := by omega
  simp [State.regWr, hout, rwlMask_ethq (off := 0xD00100 + 32 * q + 4 * w) (by omega) (by omega), herr, hidx, hmod, hdiv]

/-- Word 0 of a queue for a context that may have one: the queue's ring positions start at 0 where it is turned on (log 13). -/
theorem ethEnable_accepted {s : State} {q : Nat} {v : BitVec 32} (hon : bitAt v 0 = true) (hctx : fieldNat v 7 2 ≠ 0)
    (hlive : (s.ctx (fieldNat v 7 2)).live = true) (hslot : s.ctxSlot (fieldNat v 7 2) = 0) :
    s.ethEnable q v = { s with ethq := sset 0 s.ethq (8 * q) (v &&& 0x00FFFFFF),
                               eth := if s.ethEnabled q then s.eth else sset {} s.eth q {} } := by
  cases hen : s.ethEnabled q <;> simp [State.ethEnable, hon, hctx, hlive, hslot, hen, ethMask]

/-- A later word of a queue that is off. -/
theorem ethWord_accepted {s : State} {q w : Nat} (v : BitVec 32) (hoff : s.ethEnabled q = false) :
    s.ethWord q w v = { s with ethq := sset 0 s.ethq (8 * q + w) (v &&& ethMask w) } := by
  simp [State.ethWord, hoff]

theorem ethQEnable_takes {s : State} (q : Fin 32) {v : BitVec 32} (hreach : s.hostReach = true) (hon : bitAt v 0 = true)
    (hctx : fieldNat v 7 2 ≠ 0) (hlive : (s.ctx (fieldNat v 7 2)).live = true) (hslot : s.ctxSlot (fieldNat v 7 2) = 0) :
    ∃ t, exec (.ethQEnable q v) s = .next t ∧ t.ethq = sset 0 s.ethq (8 * q.val) (v &&& 0x00FFFFFF) ∧ t.setup = s.setup
      ∧ t.setupErr = s.setupErr ∧ t.eth = if s.ethEnabled q.val then s.eth else sset {} s.eth q.val {} := by
  have hkeep := hostWrite_keepsSetup (s := s) (off := 0xD00100 + 32 * q.val) v hreach (by omega)
  have hreg : s.regWr (0xD00100 + 32 * q.val) v = s.ethEnable q.val v := regWr_ethq s v q.isLt (by decide : 0 < 8)
  rw [hreg, ethEnable_accepted hon hctx hlive hslot] at hkeep
  exact ⟨_, rfl, hkeep.ethq, hkeep.setup, hkeep.setupErr, hkeep.eth⟩

theorem ethQWordWrite_takes {s : State} (q : Fin 32) {w : Fin 8} (v : BitVec 32) (hreach : s.hostReach = true) (hw : w ≠ 0)
    (hoff : s.ethEnabled q.val = false) :
    ∃ t, exec (.ethQWordWrite q w v) s = .next t ∧ t.ethq = sset 0 s.ethq (8 * q.val + w.val) (v &&& ethMask w.val)
      ∧ t.setup = s.setup ∧ t.setupErr = s.setupErr ∧ t.eth = s.eth := by
  have hw0 : w.val ≠ 0 := Fin.val_ne_zero_iff.mpr hw
  have hkeep := hostWrite_keepsSetup (s := s) (off := 0xD00100 + 32 * q.val + 4 * w.val) v hreach (by omega)
  rw [regWr_ethq s v q.isLt w.isLt, if_neg hw0, ethWord_accepted v hoff] at hkeep
  exact ⟨_, if_neg hw0, hkeep.ethq, hkeep.setup, hkeep.setupErr, hkeep.eth⟩

/-! ### Reads (R248) -/

theorem exec_regRead {s : State} (off : BitVec 32) (tag : BitVec 10) (hreach : s.hostReach = true) :
    exec (.regWr off (.read tag)) s = .next (commit s (s.regRd tag off.toNat)) :=
  congrArg (fun t => Host.Outcome.next (commit s t)) (if_pos hreach)

theorem regRd_inside {s : State} {off : Nat} (tag : BitVec 10) (hin : regOutside off = false) :
    s.regRd tag off = s.hostMsg { type := 0x04, tag := tag.toNat, data := leBytes 4 (s.readReg off).toNat, len := 4 } := by
  simp [State.regRd, hin]

theorem regRd_outside {s : State} {off : Nat} (tag : BitVec 10) (hout : regOutside off = true) :
    s.regRd tag off
      = s.hostStale.hostMsg { type := 0x04, tag := tag.toNat, data := leBytes 4 (0xFFFFFFFF : BitVec 32).toNat, len := 4 } := by
  simp [State.regRd, State.readReg, hout]

/-! ### All together -/

/-- Settles O9: a register write stores its fields, and the alert wire and the ticket-low signal leave set-up alone. -/
theorem setupWritesTake : Obligations.SetupWritesTake := by
  unfold Obligations.SetupWritesTake
  refine ⟨fun s v hcan hreach hlock => ⟨fun off m hmask hoff hok => ?_, genSetupLock_stored v hcan hreach hlock, fun hval hcur => ?_,
      fun hsum => ?_, fun hon hesc => ?_, fun hon => ?_⟩,
    fun s q v hreach => ⟨fun hon hctx hlive hslot => ethQEnable_takes q hreach hon hctx hlive hslot,
      fun w hw hoff => ethQWordWrite_takes q v hreach hw hoff⟩,
    fun s off tag hreach => ⟨fun hin => ?_, fun hout => ?_⟩⟩
  · have hoff' : off.toNat ≠ 0x8 := fun h => hoff (BitVec.eq_of_toNat_eq h)
    exact rwlWrite_stored hcan hreach hlock hmask hoff' hok
  · exact rwlWrite_stored hcan hreach hlock rfl (by decide) (refusal_genAux hval hcur)
  · have h := rwlWrite_stored hcan hreach hlock rfl (by decide) (refusal_fryTktMin hsum)
    rwa [show v &&& 0xFFFFFFFF = v from BitVec.and_allOnes] at h
  · exact rwlWrite_stored hcan hreach hlock rfl (by decide) (refusal_fabFc hon hesc)
  · exact rwlWrite_stored hcan hreach hlock rfl (by decide) (refusal_fabFc2 hon)
  · rw [exec_regRead off tag hreach, regRd_inside tag hin]
  · rw [exec_regRead off tag hreach, regRd_outside tag hout]
    rfl

end Sys2Proof.Machine

/-! ## Memory writes and the canonical form (R12, R84, R130, log 70) -/

namespace Sys2Proof.Machine

theorem sget_cons {α : Type} (d : α) (a : Nat) (v : α) (r : List (Nat × α)) (k : Nat) :
    sget d ((a, v) :: r) k = if a = k then v else sget d r k := rfl

theorem swfFrom_cons_iff {α : Type} [DecidableEq α] {d : α} {lo a : Nat} {v : α} {r : List (Nat × α)} :
    swfFrom d lo ((a, v) :: r) = true ↔ lo ≤ a ∧ v ≠ d ∧ swfFrom d (a + 1) r = true := by
  simp [swfFrom, and_assoc]

/-! ### A run reads back -/

theorem sgetRun_succ {α : Type} (d : α) (m : List (Nat × α)) (k n : Nat) :
    sgetRun d m k (n + 1) = sget d m k :: sgetRun d m (k + 1) n := by
  simp [sgetRun, List.range_succ_eq_map, Function.comp_def, Nat.add_assoc, Nat.add_comm 1]

/-- The value at k is written first; the rest of the run lies above k and leaves it. -/
theorem sgetRun_ssetRun_same {α : Type} [DecidableEq α] (d : α) : ∀ (vs : List α) (m : List (Nat × α)) (k : Nat), swf d m = true →
    sgetRun d (ssetRun d m k vs) k vs.length = vs
  | [], _, _, _ => rfl
  | v :: vs, m, k, h => by
    have hwf : swf d (sset d m k v) = true := swfFrom_sset d m 0 k v h (Nat.zero_le k)
    have hhead : sget d (ssetRun d (sset d m k v) (k + 1) vs) k = v := by
      rw [sget_ssetRun_out d vs _ (k + 1) k (.inl (Nat.lt_succ_self k)), sget_sset_same d m 0 k v h]
    rw [List.length_cons, sgetRun_succ, ssetRun, hhead, sgetRun_ssetRun_same d vs _ (k + 1) hwf]

theorem memGet_memPut_same (m : Memory) (a : Nat) (bs : List Byte) (h : m.wf = true) : memGet (memPut m a bs) a bs.length = bs :=
  sgetRun_ssetRun_same 0 bs m a h

/-! ### Tables that read the same are the same list -/

theorem sget_head_ne {α : Type} [DecidableEq α] {d : α} {lo a : Nat} {v : α} {r : List (Nat × α)}
    (h : swfFrom d lo ((a, v) :: r) = true) : sget d ((a, v) :: r) a ≠ d := by
  rw [sget_cons, if_pos rfl]
  exact (swfFrom_cons_iff.mp h).2.1

theorem head_le_of_sget_ne {α : Type} [DecidableEq α] {d : α} {lo a k : Nat} {v : α} {r : List (Nat × α)}
    (h : swfFrom d lo ((a, v) :: r) = true) (hk : sget d ((a, v) :: r) k ≠ d) : a ≤ k := by
  obtain ⟨-, hv, hr⟩ := swfFrom_cons_iff.mp h
  have ha : swfFrom d a ((a, v) :: r) = true := swfFrom_cons_iff.mpr ⟨le_rfl, hv, hr⟩
  exact Nat.le_of_not_lt fun hlt => hk (sget_of_lt d _ a k ha hlt)

theorem sget_tail {α : Type} [DecidableEq α] {d : α} {lo a : Nat} {v : α} {r : List (Nat × α)}
    (h : swfFrom d lo ((a, v) :: r) = true) (k : Nat) : sget d r k = if a = k then d else sget d ((a, v) :: r) k := by
  split
  case isTrue hak => exact sget_of_lt d r (a + 1) k (swfFrom_cons_iff.mp h).2.2 (by omega)
  case isFalse hak => rw [sget_cons, if_neg hak]

/-- Canonical tables that read the same have the same first key and value, and their tails read the same. -/
theorem swfFrom_ext {α : Type} [DecidableEq α] (d : α) : ∀ (m n : List (Nat × α)) (lo : Nat), swfFrom d lo m = true →
    swfFrom d lo n = true → (∀ k, sget d m k = sget d n k) → m = n
  | [], [], _, _, _, _ => rfl
  | [], (b, _) :: _, _, _, hn, heq => absurd (heq b).symm (sget_head_ne hn)
  | (a, _) :: _, [], _, hm, _, heq => absurd (heq a) (sget_head_ne hm)
  | (a, v) :: r, (b, w) :: q, lo, hm, hn, heq => by
    have hab : a = b := Nat.le_antisymm (head_le_of_sget_ne hm (heq b ▸ sget_head_ne hn))
      (head_le_of_sget_ne hn (heq a ▸ sget_head_ne hm))
    subst hab
    have hvw : v = w := by simpa [sget_cons] using heq a
    have htail : r = q := swfFrom_ext d r q (a + 1) (swfFrom_cons_iff.mp hm).2.2 (swfFrom_cons_iff.mp hn).2.2
      fun k => by rw [sget_tail hm, sget_tail hn, heq]
    rw [hvw, htail]

/-- Settles O55: a run of writes reads back and keeps the rest, and a canonical table is fixed by what it reads. -/
theorem memoryWritesHold : Obligations.MemoryWritesHold := by
  unfold Obligations.MemoryWritesHold
  exact ⟨fun m a bs h => ⟨memGet_memPut_same m a bs h, fun o ho => memPut_out m a o bs ho, memPut_wf m a bs h⟩,
    fun m n hm hn heq => swfFrom_ext 0 m n 0 hm hn heq⟩

end Sys2Proof.Machine

/-! ## Exact-window arithmetic (R33 to R42, R47)

A finite product enters the window as a whole number of units of 2^wl; the flags that special inputs set are ORed, so that sums commute with
products and with records. -/

namespace Sys2Proof.Machine

/-! ### Products in units of the window (R36, R37) -/

/-- |q| of a finite product of magnitude m 2^e (R36). -/
def windowUnits (wl : Int) (m : Nat) (e : Int) : Nat :=
  if wl - e ≤ 0 then m * 2 ^ (-(wl - e)).toNat else m / 2 ^ (wl - e).toNat

/-- Bits of a finite product of magnitude m 2^e lie below the window (R36). -/
def cutByWindow (wl : Int) (m : Nat) (e : Int) : Bool :=
  decide (0 < wl - e) && decide (m % 2 ^ (wl - e).toNat ≠ 0)

theorem addProduct_fin (a : Acc) (wl : Int) (neg : Bool) (m : Nat) (e : Int) :
    a.addProduct wl (.fin neg m e) = { a with
      s := a.s + BitVec.ofInt 120 (if neg then -(windowUnits wl m e : Int) else windowUnits wl m e)
      r := a.r || decide (2 ^ 95 ≤ windowUnits wl m e)
      t := a.t || cutByWindow wl m e } := rfl

theorem floor_eq_windowUnits (wl : Int) (m : Nat) (e : Int) : ⌊(m : ℚ) * (2 : ℚ) ^ (e - wl)⌋ = (windowUnits wl m e : ℤ) := by
  rw [← neg_sub wl e, floor_unit]
  rfl

/-- The units give the whole product back unless bits were cut. -/
theorem cutByWindow_iff (wl : Int) (m : Nat) (e : Int) :
    cutByWindow wl m e = true ↔ (windowUnits wl m e : ℚ) * (2 : ℚ) ^ wl ≠ m * (2 : ℚ) ^ e := by
  have htwo : (2 : ℚ) ≠ 0 := two_ne_zero
  by_cases hsh : wl - e ≤ 0
  · obtain ⟨k, rfl⟩ : ∃ k : Nat, e = k + wl := ⟨(e - wl).toNat, by omega⟩
    have hwhole : (windowUnits wl m (k + wl) : ℚ) * (2 : ℚ) ^ wl = m * (2 : ℚ) ^ ((k : ℤ) + wl) := by
      simp [windowUnits, zpow_add₀ htwo, mul_assoc]
    simp [hwhole, cutByWindow]
  · obtain ⟨k, rfl⟩ : ∃ k : Nat, wl = k + e := ⟨(wl - e).toNat, by omega⟩
    have hk : 0 < k := by omega
    have hunits : windowUnits (k + e) m e = m / 2 ^ k := by simp [windowUnits, hk.ne']
    have hback : ((m / 2 ^ k : Nat) : ℚ) * (2 : ℚ) ^ ((k : ℤ) + e) = ((m / 2 ^ k * 2 ^ k : Nat) : ℚ) * (2 : ℚ) ^ e := by
      push_cast
      rw [zpow_add₀ htwo, zpow_natCast, mul_assoc]
    rw [hunits, hback, Ne, mul_left_inj' (zpow_ne_zero e htwo), Nat.cast_inj, ← Nat.dvd_iff_div_mul_eq, Nat.dvd_iff_mod_eq_zero]
    simp [cutByWindow, hk]

/-- What a finite product adds to S, by the exact product (R36, R37). -/
theorem addProduct_fin_s (a : Acc) (wl : Int) (neg : Bool) (m : Nat) (e : Int) :
    (a.addProduct wl (.fin neg m e)).s
      = a.s + BitVec.ofInt 120 ((if neg then -1 else 1) * ⌊(m : ℚ) * (2 : ℚ) ^ (e - wl)⌋) := by
  rw [addProduct_fin, floor_eq_windowUnits]
  cases neg <;> simp

theorem o_of_r {a : Acc} (h : a.r = true) : a.o = true := by simp [Acc.o, h]

/-- Settles O57: q is the floor of the magnitude in window units under the product's sign, and bits are cut where it does not give the
product back. -/
theorem productsEnterTheWindow : Obligations.ProductsEnterTheWindow := by
  unfold Obligations.ProductsEnterTheWindow
  intro a wl neg m e sign q b
  have hq : q = sign * windowUnits wl m e := congrArg (sign * ·) (floor_eq_windowUnits wl m e)
  have habs : |q| = windowUnits wl m e := by rw [hq]; cases neg <;> simp [sign]
  have hr : b.r = true ↔ a.r = true ∨ 2 ^ 95 ≤ |q| := by
    rw [habs]
    simp only [b, addProduct_fin, Bool.or_eq_true, decide_eq_true_eq]
    norm_cast
  have ht : b.t = true ↔ a.t = true ∨ (q : ℚ) * (2 : ℚ) ^ wl ≠ sign * m * (2 : ℚ) ^ e := by
    have hsign : (sign : ℚ) ≠ 0 := by cases neg <;> simp [sign]
    simp only [b, addProduct_fin, Bool.or_eq_true, cutByWindow_iff, hq]
    push_cast
    rw [mul_assoc, mul_assoc, Ne, Ne, mul_right_inj' hsign]
  exact ⟨addProduct_fin_s a wl neg m e, hr, fun h => o_of_r (hr.mpr (.inr h)), ht, rfl, rfl, rfl⟩

/-! ### Special inputs (R42) -/

theorem mul_nan (a : Val) : a.mul .nan = .nan := by cases a <;> rfl

theorem mxProduct_eq_nan {a b : Val} {ea eb : Nat} (h : a.mul b = .nan ∨ ea = 255 ∨ eb = 255) : mxProduct a b ea eb = .nan := by
  unfold mxProduct
  split
  · rfl
  · next hscale => rw [h.resolve_right hscale]

theorem mxProduct_eq_inf {a b : Val} {ea eb : Nat} {neg : Bool} (ha : ea ≠ 255) (hb : eb ≠ 255) (h : a.mul b = .inf neg) :
    mxProduct a b ea eb = .inf neg := by
  rw [mxProduct, if_neg (not_or.mpr ⟨ha, hb⟩), h]

/-- Finite scales move the exponent of a finite product (R33). -/
theorem mxProduct_eq_fin {a b : Val} {ea eb : Nat} {neg : Bool} {m : Nat} {e : Int} (ha : ea ≠ 255) (hb : eb ≠ 255)
    (h : a.mul b = .fin neg m e) : mxProduct a b ea eb = .fin neg m (e + ea + eb - 254) := by
  rw [mxProduct, if_neg (not_or.mpr ⟨ha, hb⟩), h]

theorem addProduct_inf (acc : Acc) (wl : Int) (x y : Bool) :
    acc.addProduct wl (.inf (x != y)) = if x = y then { acc with p := true } else { acc with m := true } := by
  cases x <;> cases y <;> rfl

/-- A format without specials decodes every code as finite (R28). -/
theorem decode_fin_of_plain {f : Fmt} (h : f.top = .plain) (c : Nat) : ∃ neg m e, f.decode c = .fin neg m e := by
  simp only [Fmt.decode, h, reduceCtorEq, false_and, if_false]
  split <;> exact ⟨_, _, _, rfl⟩

theorem elemVal_fin {code : Nat} (x : Nat) (h : code = 2 ∨ code = 3 ∨ code = 4 ∨ code = 5 ∨ code = 6 ∨ code = 7) :
    ∃ neg m e, elemVal code x = .fin neg m e := by
  obtain rfl | rfl | rfl | rfl | rfl | rfl := h
  · exact decode_fin_of_plain (f := fE3M2) rfl x
  · exact decode_fin_of_plain (f := fE2M3) rfl x
  · exact decode_fin_of_plain (f := fE2M1) rfl x
  all_goals exact ⟨_, _, _, rfl⟩

/-- Settles O58: the exact product says which row of R42 matches, and each row sets its own flag. -/
theorem specialInputsSetFlags : Obligations.SpecialInputsSetFlags := by
  unfold Obligations.SpecialInputsSetFlags
  refine ⟨fun acc wl a b ea eb => ⟨?_, fun ha hb => ⟨?_, ?_, ?_, ?_⟩⟩, fun code x h => elemVal_fin x h⟩
  · intro h
    have hnan : mxProduct a b ea eb = .nan := by
      obtain rfl | rfl | hscale := h
      · exact mxProduct_eq_nan (.inl rfl)
      · exact mxProduct_eq_nan (.inl (mul_nan a))
      · exact mxProduct_eq_nan (.inr hscale)
    exact congrArg (acc.addProduct wl) hnan
  · intro x y e h
    have hmul : a.mul b = .nan := by obtain ⟨rfl, rfl⟩ | ⟨rfl, rfl⟩ := h <;> rfl
    exact congrArg (acc.addProduct wl) (mxProduct_eq_nan (.inl hmul))
  · intro x y n e hn h
    have hmul : a.mul b = .inf (x != y) := by
      obtain ⟨rfl, rfl⟩ | ⟨rfl, rfl⟩ := h
      · exact if_neg hn.ne'
      · exact (if_neg hn.ne').trans (congrArg Val.inf (bne_comm ..))
    rw [mxProduct_eq_inf ha hb hmul, addProduct_inf]
  · rintro x y rfl rfl
    rw [mxProduct_eq_inf ha hb rfl, addProduct_inf]
  · rintro x m e y n d rfl rfl
    have hsign : (if (x != y) = true then (-1 : ℤ) else 1) = if x = y then 1 else -1 := by cases x <;> cases y <;> rfl
    rw [mxProduct_eq_fin ha hb rfl]
    exact ⟨rfl, rfl, rfl, rfl, hsign ▸ addProduct_fin_s acc wl (x != y) (m * n) (e + d + ea + eb - 254)⟩

/-! ### Records (R39, R40) -/

/-- The flag byte of a record, N lowest (R39). -/
def Acc.flagBits (a : Acc) : Nat := Nat.bit a.n (Nat.bit a.p (Nat.bit a.m (Nat.bit a.r (Nat.bit a.o (Nat.bit a.t 0)))))

theorem flagBits_lt (a : Acc) : a.flagBits < 2 ^ 6 := by
  have hle := fun b : Bool => Bool.toNat_le b
  simp only [Acc.flagBits, Nat.bit_val]
  have := hle a.n; have := hle a.p; have := hle a.m; have := hle a.r; have := hle a.o; have := hle a.t
  omega

theorem record_toNat (a : Acc) : a.record.toNat = 2 ^ 120 * a.flagBits + a.s.toNat := by
  have hs := a.s.isLt
  have hf := flagBits_lt a
  rw [Acc.record, BitVec.toNat_ofNat]
  simp only [Acc.flagBits, Nat.bit_val] at hf ⊢
  omega

theorem bitAt_record_low (a : Acc) {i : Nat} (h : i < 120) : bitAt a.record i = a.s.getLsbD i := by
  rw [bitAt, record_toNat, Nat.testBit_two_pow_mul_add _ a.s.isLt, if_pos h]
  rfl

theorem bitAt_record_high (a : Acc) (i : Nat) : bitAt a.record (120 + i) = a.flagBits.testBit i := by
  rw [bitAt, record_toNat, Nat.testBit_two_pow_mul_add _ a.s.isLt, if_neg (by omega), Nat.add_sub_cancel_left]

/-- The fields of a record (R39). -/
theorem bitAt_record_flags (a : Acc) : bitAt a.record 120 = a.n ∧ bitAt a.record 121 = a.p ∧ bitAt a.record 122 = a.m
    ∧ bitAt a.record 123 = a.r ∧ bitAt a.record 124 = a.o ∧ bitAt a.record 125 = a.t ∧ bitAt a.record 126 = false
    ∧ bitAt a.record 127 = false := by
  have hbit := bitAt_record_high a
  have htop : ∀ i, 6 ≤ i → a.flagBits.testBit i = false := fun i hi =>
    Nat.testBit_lt_two_pow ((flagBits_lt a).trans_le (Nat.pow_le_pow_right two_pos hi))
  refine ⟨hbit 0 |>.trans ?_, hbit 1 |>.trans ?_, hbit 2 |>.trans ?_, hbit 3 |>.trans ?_, hbit 4 |>.trans ?_, hbit 5 |>.trans ?_,
    hbit 6 |>.trans (htop 6 le_rfl), hbit 7 |>.trans (htop 7 (by decide))⟩
  all_goals simp [Acc.flagBits, Nat.testBit_bit_succ]

theorem getLsbD_slice {w : Nat} (x : BitVec w) (lo n i : Nat) : (slice x lo n).getLsbD i = (decide (i < n) && bitAt x (lo + i)) := by
  rw [slice, BitVec.getLsbD_ofNat, bitAt, Nat.testBit_div_two_pow, Nat.add_comm]

theorem slice_record_s (a : Acc) : slice a.record 0 120 = a.s := by
  refine BitVec.eq_of_getLsbD_eq fun i hi => ?_
  rw [getLsbD_slice, Nat.zero_add, bitAt_record_low a hi, decide_eq_true hi, Bool.true_and]

/-- S is added and the flags are ORed; O is left to the sum (R40). -/
theorem addRecord_record (a b : Acc) : a.addRecord b.record
    = { s := a.s + b.s, n := a.n || b.n, p := a.p || b.p, m := a.m || b.m, r := a.r || b.r, t := a.t || b.t } := by
  obtain ⟨hn, hp, hm, hr, -, ht, -, -⟩ := bitAt_record_flags b
  rw [Acc.addRecord, slice_record_s, hn, hp, hm, hr, ht]

theorem empty_addRecord_record (a : Acc) : Acc.addRecord {} a.record = a := by
  simp [addRecord_record]

/-- Adding a record reads neither its o bit nor its reserved bits (R40). -/
theorem addRecord_congr (a : Acc) {x y : BitVec 128} (h : ∀ i, i < 126 → i ≠ 124 → bitAt x i = bitAt y i) :
    a.addRecord x = a.addRecord y := by
  have hs : slice x 0 120 = slice y 0 120 := BitVec.eq_of_getLsbD_eq fun i hi => by
    rw [getLsbD_slice, getLsbD_slice, h (0 + i) (by omega) (by omega)]
  simp only [Acc.addRecord, hs, h 120 (by decide) (by decide), h 121 (by decide) (by decide), h 122 (by decide) (by decide),
    h 123 (by decide) (by decide), h 125 (by decide) (by decide)]

/-- Settles O59: the record is S with the flag byte above it, and what an addition reads of it is the accumulator. -/
theorem recordsHoldAccumulators : Obligations.RecordsHoldAccumulators := by
  unfold Obligations.RecordsHoldAccumulators
  intro a
  obtain ⟨hn, hp, hm, hr, ho, ht, h126, h127⟩ := bitAt_record_flags a
  exact ⟨slice_record_s a, hn, hp, hm, hr, ho, ht, h126, h127,
    fun x hx => (addRecord_congr {} hx).trans (empty_addRecord_record a)⟩

/-! ### Sums in any order and any split (R37, R40, R47) -/

theorem addRecord_comm (a : Acc) (x y : BitVec 128) : (a.addRecord x).addRecord y = (a.addRecord y).addRecord x := by
  simp only [Acc.addRecord, Acc.mk.injEq]
  refine ⟨?_, ?_, ?_, ?_, ?_, ?_⟩ <;> ac_rfl

theorem addRecord_record_comm (a b : Acc) : a.addRecord b.record = b.addRecord a.record := by
  simp only [addRecord_record, BitVec.add_comm, Bool.or_comm]

/-- A product may enter the total or the partial sum that is added to it. -/
theorem addRecord_addProduct (wl : Int) (a c : Acc) (p : Val) :
    (a.addRecord c.record).addProduct wl p = a.addRecord (c.addProduct wl p).record :=
  calc (a.addRecord c.record).addProduct wl p
    _ = (c.addRecord a.record).addProduct wl p := by rw [addRecord_record_comm]
    _ = (c.addProduct wl p).addRecord a.record := (addProduct_addRecord wl c p a.record).symm
    _ = a.addRecord (c.addProduct wl p).record := addRecord_record_comm _ _

theorem addRecord_sum (wl : Int) (a : Acc) (ps : List Val) : ∀ c : Acc,
    ps.foldl (fun (a : Acc) p => a.addProduct wl p) (a.addRecord c.record)
      = a.addRecord (ps.foldl (fun (a : Acc) p => a.addProduct wl p) c).record := by
  induction ps with
  | nil => exact fun _ => rfl
  | cons p ps ih =>
    intro c
    rw [List.foldl_cons, List.foldl_cons, addRecord_addProduct, ih]

theorem addRecord_empty (a : Acc) : a.addRecord ({} : Acc).record = a := by
  rw [addRecord_record_comm, empty_addRecord_record]

/-- Settles O60: additions of products and records commute, and a partial sum starts from the record of the empty accumulator, which adds
nothing. -/
theorem windowSumOrderFree : Obligations.WindowSumOrderFree := by
  unfold Obligations.WindowSumOrderFree
  refine ⟨fun wl a ps qs h => h.foldl_eq' (fun p _ q _ b => addProduct_comm wl b p q) a,
    fun a xs ys h => h.foldl_eq' (fun x _ y _ b => addRecord_comm b x y) a, addProduct_addRecord, fun wl a ps qs => ?_⟩
  rw [List.foldl_append, ← addRecord_sum, addRecord_empty]

end Sys2Proof.Machine

/-! ## Lane arithmetic of the VX slot (R50, R102) -/

namespace Sys2Proof.Machine

section
variable {s u : State} {c : Nat} {t : Thread} {op : Nat} {i : Issue} {x : Nat}

theorem vxRow_of_slotTurn (h : s.slotTurn c t .vx op u i x) (f : State → Issue → Nat → State) :
    vxRow c t op f s = .next (commit s ((f u i x).slotDone c t .vx)) := by
  rw [vxRow, act_eq, slotRow_of_slotTurn h]

/-- Each pair of lanes gives the exact result of f, rounded once to the type (R50). -/
theorem arithRow_of_slotTurn (h : s.slotTurn c t .vx op u i x) (f : Val → Val → Val) :
    let m := laneFmt (sf x 6 2)
    let w := laneBits (sf x 6 2)
    vxRow c t op (fun s i x => s.arith2 c t i x f) s = .next (commit s ((u.putLanes c t i x w
      (((lanesOf w (vxSrcA i x)).zip (lanesOf w (vxSrcB i x))).map fun e => m.round .nearest (f (m.decode e.1) (m.decode e.2)))).slotDone
        c t .vx)) :=
  vxRow_of_slotTurn h _

end

/-- Settles O16: the operation in the slot takes effect on the registers as they stood at issue, and its slot is done. -/
theorem laneArithmeticRuns : Obligations.LaneArithmeticRuns := by
  unfold Obligations.LaneArithmeticRuns
  intro s u c t i x
  refine ⟨fun hadd => arithRow_of_slotTurn hadd Val.add, fun hsub => arithRow_of_slotTurn hsub fun a b => a.add b.neg,
    fun hmul => arithRow_of_slotTurn hmul Val.mul, fun hfma => vxRow_of_slotTurn hfma _,
    fun hmin => arithRow_of_slotTurn hmin Val.minOf, fun hmax => arithRow_of_slotTurn hmax Val.maxOf,
    fun hcmp => vxRow_of_slotTurn hcmp fun s i x => s.doVcmp c t i x, fun hsel => vxRow_of_slotTurn hsel _⟩

end Sys2Proof.Machine

/-! ## Slots and waits of a bundle (R88 to R91) -/

namespace Sys2Proof.Machine

section
variable {s u : State} {c : Nat} {t : Thread} {k : Slot} {op : Nat} {i : Issue} {x : Nat}

theorem act_slotRow_of_slotTurn (h : s.slotTurn c t k op u i x) (f : State → Issue → Nat → State) :
    act (fun s => s.slotRow c t k op f) s = .next (commit s ((f u i x).slotDone c t k)) := by
  rw [act_eq, slotRow_of_slotTurn h]

theorem act_waitRow_of_waitTurn (h : s.waitTurn c t op u x) (w : State → ThreadSt → Nat → State) :
    act (fun s => s.waitRow c t op w) s = .next (commit s (w u (u.th c t) x)) := by
  rw [act_eq, waitRow_of_waitTurn h]

end

end Sys2Proof.Machine

/-! ## Address arithmetic of the MV slot (R53, R104) -/

namespace Sys2Proof.Machine

@[simp] theorem regA_zero (m : Sparse (BitVec 64)) : regA m 0 = 0 := if_pos rfl

/-- Settles O15: the operation in the slot takes effect on the registers as they stood at issue, and `putA` discards what goes to A0. -/
theorem addressArithmeticRuns : Obligations.AddressArithmeticRuns := by
  unfold Obligations.AddressArithmeticRuns
  intro s u c t i x
  exact ⟨fun hali => act_slotRow_of_slotTurn hali fun s _ x => s.putA c t (sf x 6 5) (mvImm x),
    fun haaddi => act_slotRow_of_slotTurn haaddi fun s i x => s.putA c t (sf x 6 5) (mvS i x + mvImm x),
    fun haadd => act_slotRow_of_slotTurn haadd fun s i x => s.putA c t (sf x 6 5) (mvS i x + mvT i x),
    fun haand => act_slotRow_of_slotTurn haand fun s i x => s.putA c t (sf x 6 5) (mvS i x &&& mvT i x),
    fun hashl => act_slotRow_of_slotTurn hashl fun s i x => s.putA c t (sf x 6 5) (mvS i x <<< sf x 16 6),
    fun hashr => act_slotRow_of_slotTurn hashr fun s i x => s.putA c t (sf x 6 5) ((mvS i x).sshiftRight (sf x 16 6)),
    regA_zero i.a⟩

end Sys2Proof.Machine

/-! ## Branches, STEP, sync objects and HALT in the CT slot (R82, R108, R109, R115) -/

namespace Sys2Proof.Machine

/-- Settles O21: the operation in the slot takes effect on the registers as they stood at issue; BLT and BGE compare as signed numbers. -/
theorem controlSlotsRun : Obligations.ControlSlotsRun := by
  unfold Obligations.ControlSlotsRun
  intro s u c t i x
  refine ⟨fun hbr => act_slotRow_of_slotTurn hbr fun s _ x => s.branch c t x true,
    fun hbz => act_slotRow_of_slotTurn hbz fun s i x => s.branch c t x (ctS i x = 0),
    fun hbnz => act_slotRow_of_slotTurn hbnz fun s i x => s.branch c t x (ctS i x ≠ 0), fun hblt => ?_, fun hbge => ?_,
    fun hstep => act_slotRow_of_slotTurn hstep _,
    fun hsrd => act_slotRow_of_slotTurn hsrd fun s i x => s.putA c t (sf x 6 5) (s.obj (ctObj i.a x)).word,
    fun hsadd => act_slotRow_of_slotTurn hsadd _, fun hhalt => act_slotRow_of_slotTurn hhalt _⟩
  · rw [← BitVec.slt_eq_decide]
    exact act_slotRow_of_slotTurn hblt fun s i x => s.branch c t x ((ctS i x).slt (ctT i x))
  · rw [← BitVec.sle_eq_decide, BitVec.sle_eq_not_slt]
    exact act_slotRow_of_slotTurn hbge fun s i x => s.branch c t x (!(ctS i x).slt (ctT i x))

end Sys2Proof.Machine

/-! ## DMA, SEND and FERRY join the MV queue (R78, R104 to R107) -/

namespace Sys2Proof.Machine

theorem mvAddrFault_eq_none {a : Nat} (hlocal : a ≤ 0x1FFFFF) (halign : a % 64 = 0) : mvAddrFault a = none := by
  rw [mvAddrFault, if_neg (Nat.not_lt.mpr hlocal), if_neg (not_not.mpr halign)]

section
variable {s u : State} {c : Fin 128} {t : Thread} {i : Issue} {x : Nat}

theorem dma_accepted (hturn : s.slotTurn c t .mv 0x08 u i x) (haddr : mvAddrFault (mvAddr i x) = none)
    (hok : u.dmaBad c (u.mvEntry c t .dma (mvAddr i x)).ctx (mvAddr i x) (u.mvEntry c t .dma (mvAddr i x)).desc = none) :
    execDma c t s = .next (commit s ((u.mvPush c (u.mvEntry c t .dma (mvAddr i x))).slotDone c t .mv)) := by
  rw [execDma, act_slotRow_of_slotTurn hturn]
  simp only [State.doDma, haddr, hok]

theorem send_accepted (hturn : s.slotTurn c t .mv 0x09 u i x) (haddr : mvAddrFault (mvAddr i x) = none)
    (hok : u.sendBad c t (u.mvEntry c t .send (mvAddr i x)).ctx (u.mvEntry c t .send (mvAddr i x)).desc = none) :
    execSend c t s = .next (commit s ((u.mvPush c (u.mvEntry c t .send (mvAddr i x))).slotDone c t .mv)) := by
  rw [execSend, act_slotRow_of_slotTurn hturn]
  simp only [State.doSend, haddr, hok]

/-- FERRY has no check beyond the address of its record. -/
theorem ferry_accepted (hturn : s.slotTurn c t .mv 0x0A u i x) (haddr : mvAddrFault (mvAddr i x) = none) :
    execFerry c t s = .next (commit s ((u.mvPush c (u.mvEntry c t .ferry (mvAddr i x))).slotDone c t .mv)) := by
  rw [execFerry, act_slotRow_of_slotTurn hturn]
  simp only [haddr]

end

/-- Settles O19: an address inside the cell and a multiple of 64 has no fault, and a descriptor that passes its checks joins the queue. -/
theorem moverSlotsRun : Obligations.MoverSlotsRun := by
  unfold Obligations.MoverSlotsRun
  intro s u c t i x row a e hlocal halign
  have haddr : mvAddrFault (mvAddr i x) = none := mvAddrFault_eq_none hlocal halign
  exact ⟨fun hok hturn => dma_accepted hturn haddr hok, fun hok hturn => send_accepted hturn haddr hok,
    fun hturn => ferry_accepted hturn haddr⟩

end Sys2Proof.Machine

/-! ## The matrix array (R65, R71, R94 to R101)

An array that holds an instruction begins no other; what it holds is suspended only where it is an MMA of a stopped trickle thread. -/

namespace Sys2Proof.Machine

/-! ### What the array begins and suspends (R65, R71) -/

section
variable {s : State} {c : Nat} {r : MxRun}

theorem beginMx_of_running (hrun : (s.cell c).mxRun = some r) (n : Nat) : s.beginMx n c = s := by
  cases n with
  | zero => rfl
  | succ n => simp [State.beginMx, hrun]

theorem beginMx_of_mxBegin {q : MxInstr} (hcompute : s.compute = true) (hreset : (s.cell c).inReset = false)
    (hidle : (s.cell c).mxRun = none) (hnext : s.mxNext c = some q) (hheld : q.thread = .fg ∨ (s.cell c).mxHeld = none)
    (hbegin : s.mxBegin c q = .ok r) (n : Nat) : s.beginMx (n + 1) c = s.updCell c fun y => { y with mxRun := some r } := by
  have hfresh : (if q.thread = .tr then (s.cell c).mxHeld else none) = none := by
    obtain hfg | hnone := hheld
    · simp [hfg]
    · simp [hnone]
  simp [State.beginMx, hcompute, hreset, hidle, hnext, hfresh, hbegin]

theorem suspendMx_of_goesOn (hrun : (s.cell c).mxRun = some r) (hgo : r.q.thread = .fg ∨ r.q.op ≠ .mma ∨ s.trGoes c = true) :
    s.suspendMx c = s := by
  have hstay : ¬(r.q.thread = .tr ∧ r.q.op = .mma ∧ s.trGoes c = false) := by
    rintro ⟨htr, hmma, hstop⟩
    obtain hfg | hop | hgoes := hgo
    · exact absurd (hfg.symm.trans htr) (by decide)
    · exact hop hmma
    · exact absurd (hgoes.symm.trans hstop) (by decide)
  simp [State.suspendMx, hrun, hstay]

theorem suspendMx_of_stopped (hrun : (s.cell c).mxRun = some r) (htr : r.q.thread = .tr) (hmma : r.q.op = .mma)
    (hstop : s.trGoes c = false) :
    s.suspendMx c = ((s.mxCut r).1.mxSteps c r (s.mxCut r).2).updCell c fun y =>
      { y with mxRun := none, mxHeld := some { r with pos := (s.mxCut r).2 } } := by
  simp [State.suspendMx, hrun, htr, hmma, hstop]

theorem settleArray_of_goesOn (hrun : (s.cell c).mxRun = some r) (hgo : r.q.thread = .fg ∨ r.q.op ≠ .mma ∨ s.trGoes c = true) :
    s.settleArray c = s := by
  rw [State.settleArray, suspendMx_of_goesOn hrun hgo, beginMx_of_running hrun]

end

/-- MATRIX_QUEUE_ADVANCE: the running instruction leaves with its work done, and the next one begins. -/
theorem matrixQueueAdvance_of_goesOn {s : State} {c : Fin 128} {r : MxRun} (hcompute : s.compute = true)
    (hreset : (s.cell c).inReset = false) (hrun : (s.cell c).mxRun = some r)
    (hgo : r.q.thread = .fg ∨ r.q.op ≠ .mma ∨ s.trGoes c = true) :
    execMatrixQueueAdvance c s = .next (commit s ((s.mxLeave c r).beginMx 3 c)) := by
  simp [execMatrixQueueAdvance, hcompute, hreset, settleArray_of_goesOn hrun hgo, hrun]

/-! ### An instruction's descriptor (R97, R100, R101) -/

/-- The descriptor of a queued instruction as the array reads it (R97). -/
def State.mxLine (s : State) (c : Nat) (q : MxInstr) : Line := BitVec.ofNat 512 (s.cellNat c q.desc 64)

/-- The fault of an instruction with its descriptor read (R100, R101). -/
def State.mxLineFault (s : State) (c : Nat) (q : MxInstr) : MxFault :=
  if q.op = .mma then mmaFault q ((s.cell c).bank q.acc.toNat) (s.mxLine c q)
  else drainFault q ((s.cell c).bank q.acc.toNat) (s.mxLine c q)

section
variable {s : State} {c : Nat} {q : MxInstr}

theorem mxLineFault_mma (hop : q.op = .mma) :
    s.mxLineFault c q = mmaFault q ((s.cell c).bank q.acc.toNat) (s.mxLine c q) := if_pos hop

theorem mxLineFault_drain (hop : q.op ≠ .mma) :
    s.mxLineFault c q = drainFault q ((s.cell c).bank q.acc.toNat) (s.mxLine c q) := if_neg hop

theorem mxBegin_mclr (hop : q.op = .mclr) : s.mxBegin c q = .ok { q := q } := if_pos hop

theorem mxBegin_eq_ok (hop : q.op ≠ .mclr) (hdesc : descFault q.desc = none) (hline : s.mxLineFault c q = none) :
    s.mxBegin c q = .ok { q := q, desc := s.mxLine c q } := by
  simp only [State.mxLineFault, State.mxLine] at hline ⊢
  simp only [State.mxBegin, if_neg hop, hdesc, hline]

theorem mxBegin_eq_error {f : Nat × Nat} (hop : q.op ≠ .mclr) (hdesc : descFault q.desc = none)
    (hline : s.mxLineFault c q = some f) : s.mxBegin c q = .error f := by
  simp only [State.mxLineFault, State.mxLine] at hline
  simp only [State.mxBegin, if_neg hop, hdesc, hline]

end

/-! ### An instruction's work (R94 to R101) -/

section
variable {s : State} {c : Nat} {r : MxRun}

theorem runMx_mclr (hop : r.q.op = .mclr) :
    s.runMx c r = s.updCell c fun y => y.setBank r.q.acc.toNat { fp32 := winFp32 r.q.win } := by
  simp only [State.runMx, hop]

theorem runMx_mma (hop : r.q.op = .mma) : s.runMx c r = s.mxSteps c r (lineK r.desc) := by
  simp only [State.runMx, hop]

theorem runMx_mload (hop : r.q.op = .mload) :
    s.runMx c r = s.updCell c fun y =>
      y.setBank r.q.acc.toNat (s.doMload c r.q r.desc ((s.cell c).bank r.q.acc.toNat)) := by
  simp only [State.runMx, hop]

theorem runMx_mdrain (hop : r.q.op = .mdrain) :
    s.runMx c r = s.doMdrain c r.q r.desc ((s.cell c).bank r.q.acc.toNat) (s.cellConf c) := by
  simp only [State.runMx, hop]

end

/-- Settles O18: the MX slot's operations are rows of their slot; an instruction leaves the array with the work of `runMx`, and the array
begins what `mxBegin` lets begin. -/
theorem matrixWorkRuns : Obligations.MatrixWorkRuns := by
  unfold Obligations.MatrixWorkRuns
  refine ⟨fun s u c t i x => ?slots, fun s c r hcompute hreset => ?array, fun s c q => ?begins, fun s c r => ?works⟩
  case slots =>
    exact ⟨fun hmma => act_slotRow_of_slotTurn hmma fun s i x => s.queueMx c t .mma i x,
      fun hmdrain => act_slotRow_of_slotTurn hmdrain fun s i x => s.queueMx c t .mdrain i x,
      fun hmload => act_slotRow_of_slotTurn hmload fun s i x => s.queueMx c t .mload i x,
      fun hmclr => act_slotRow_of_slotTurn hmclr fun s i x => s.queueMx c t .mclr i x,
      fun hmwin => act_slotRow_of_slotTurn hmwin _⟩
  case array =>
    exact ⟨fun hrun hgo => matrixQueueAdvance_of_goesOn hcompute hreset hrun hgo,
      fun hrun htr hmma hstop => suspendMx_of_stopped hrun htr hmma hstop,
      fun q n hidle hnext hheld hbegin => beginMx_of_mxBegin hcompute hreset hidle hnext hheld hbegin n⟩
  case begins =>
    refine ⟨mxBegin_mclr, fun hop hdesc hok => ?_, fun hop hdesc hok => ?_, fun f hop hdesc hbad => ?_⟩
    · exact mxBegin_eq_ok (by simp [hop]) hdesc ((mxLineFault_mma hop).trans hok)
    · have hmma : q.op ≠ .mma := by intro h; simp [h] at hop
      have hmclr : q.op ≠ .mclr := by intro h; simp [h] at hop
      exact mxBegin_eq_ok hmclr hdesc ((mxLineFault_drain hmma).trans hok)
    · exact mxBegin_eq_error (by simp [hop]) hdesc ((mxLineFault_mma hop).trans hbad)
  case works => exact ⟨runMx_mclr, runMx_mma, runMx_mload, runMx_mdrain⟩

end Sys2Proof.Machine

/-! ## Moves end (R78 to R80, R106, R129, R141, R408) -/

namespace Sys2Proof.Machine

/-! ### The front of the MV queue (R78 to R80, R106, R408) -/

section
variable {s : State} {c : Fin 128} {e : MvEntry} {r : List MvEntry}
variable (hcompute : s.compute = true) (hreset : (s.cell c).inReset = false) (hfront : (s.cell c).mvq = e :: r)
include hcompute hfront

theorem pairWriteTimeout_due (hpair : e.toPair = true) (hsent : e.done = true) (hdue : e.sentAt + usTicks 100 ≤ s.now) :
    execPairWriteTimeout c s = .next (commit s
      (State.dmaDone { s with cnt := { s.cnt with pairDrop := satAdd 8 s.cnt.pairDrop (dmaRows e.desc) } } c e)) := by
  simp [execPairWriteTimeout, hfront, hpair, hsent, hdue, hcompute]

include hreset

theorem sendPayloadRead_send (hkind : e.kind = .send) :
    execSendPayloadRead c s = .next (commit s (State.mvPop
      (if bitAt e.desc 173 then (s.sendPacket c e).syncAddIf (sndLsync e.desc) e.ctx 1 else s.sendPacket c e) c)) := by
  simp [execSendPayloadRead, hfront, hkind, hcompute, hreset]

theorem sendPayloadRead_ferry (hkind : e.kind = .ferry) (hread : e.done = true) :
    execSendPayloadRead c s = .next (commit s (s.mvPop c)) := by
  simp [execSendPayloadRead, hfront, hkind, hread, hcompute, hreset]

/-! A DMA command whose rows lie in memories of the module, out of reset, moves them at once. -/

variable (hkind : e.kind = .dma) (hready : s.dmaWaits e = false) (hfrom : e.fromHost = false) (hpair : e.toPair = false)
  (hto : e.toHost = false)
include hkind hready hfrom hpair hto

theorem dmaCommandComplete_moved {w : State} (hmove : s.dmaMove c e = (w, none)) :
    execDmaCommandComplete c s = .next (commit s (w.dmaDone c e)) := by
  simp [execDmaCommandComplete, hfront, hkind, hcompute, hreset, hready, hfrom, hpair, hto, hmove]

theorem dmaCommandFault_failed {w : State} {code a : Nat} (hmove : s.dmaMove c e = (w, some (code, a))) :
    execDmaCommandFault c s = .next (commit s (w.dmaFail c e code a)) := by
  simp [execDmaCommandFault, hfront, hkind, hcompute, hreset, hready, hfrom, hpair, hto, hmove]

end

/-! ### A mover's command (R139, R141) -/

theorem running_eq_cur {s : State} {m : Nat} (hreset : (s.mover m).inReset = false) (hxfer : (s.mover m).xfer = none) :
    s.running m = (s.mover m).cur := by
  simp [State.running, hreset, hxfer]

section
variable {s : State} {m : Fin 32} {k : MoverCmd}
variable (hrun : s.running m = some k) (hdst : k.dstSpace = 0) (hsrc : k.srcSpace = 0) (hready : s.memWaits k.dst k.len = false)
include hrun hdst hsrc hready

theorem moverCommandComplete_fill (hkind : k.kind = .fill) :
    execMoverCommandComplete m s = .next (commit s ((s.fillLocal k).1.curEnds m (s.fillLocal k).2)) := by
  simp [execMoverCommandComplete, hrun, hdst, hsrc, hready, hkind]

theorem moverCommandComplete_copy (hkind : k.kind ≠ .fill) (hsource : s.memWaits k.src k.len = false) :
    execMoverCommandComplete m s = .next (commit s ((s.copyLocal k).1.curEnds m (s.copyLocal k).2)) := by
  simp [execMoverCommandComplete, hrun, hdst, hsrc, hready, hkind, hsource]

end

/-! ### A row over the pair port (R129, R408) -/

/-- A row of a context without a key is written as it comes. -/
theorem pairWindowWrite_unkeyed {s : State} {w : PairWrite} (hcompute : s.compute = true) (hup : s.fab.pairUp = true)
    (htwin : s.twin = true) (hlive : (s.ctx w.ctx.toNat).live = true) (hslot : s.ctxSlot w.ctx.toNat = 0) (hkey : w.keySlot = 0)
    (hregion : regionOf w.addr.toNat = .lpddr) (hcap : w.addr.toNat + w.data.length ≤ s.capacity)
    (hpages : s.pageFail w.ctx true false w.addr.toNat w.data.length = none) :
    execPairWindowWrite w s = .next (commit s (s.writeBytes w.ctx 0 false true w.addr.toNat w.data).1) := by
  have hfits : ¬s.capacity < w.addr.toNat + w.data.length := Nat.not_lt.mpr hcap
  simp [execPairWindowWrite, hcompute, hup, htwin, hlive, hslot, hkey, hregion, hfits, hpages]

/-- Settles O20: the command at the front has moved its rows, met its fault, waited its time or been read, and leaves the queue; a
move within device memory ends on its mover; an unkeyed row is written. -/
theorem movesEnd : Obligations.MovesEnd := by
  unfold Obligations.MovesEnd
  intro s c e r hcompute hreset hfront
  refine ⟨fun w hkind hready hfrom hpair hto hmove => dmaCommandComplete_moved hcompute hreset hfront hkind hready hfrom hpair hto hmove,
    fun w code a hkind hready hfrom hpair hto hmove =>
      dmaCommandFault_failed hcompute hreset hfront hkind hready hfrom hpair hto hmove,
    fun hpair hsent hdue => pairWriteTimeout_due hcompute hfront hpair hsent hdue,
    fun hkind => sendPayloadRead_send hcompute hreset hfront hkind,
    fun hkind hread => sendPayloadRead_ferry hcompute hreset hfront hkind hread,
    fun m k hcur hmover hxfer hdst hready hsrc => ?mover,
    fun w hup htwin hlive hslot hkey hregion hcap hpages =>
      pairWindowWrite_unkeyed hcompute hup htwin hlive hslot hkey hregion hcap hpages⟩
  case mover =>
    have hrun : s.running m = some k := (running_eq_cur hmover hxfer).trans hcur
    exact ⟨fun hkind => moverCommandComplete_fill hrun hdst hsrc hready hkind,
      fun hkind hsource => moverCommandComplete_copy hrun hdst hsrc hready hkind hsource⟩

end Sys2Proof.Machine

/-! ## Waits of the CT slot (R16, R62, R63, R83, R91, R110, R267) -/

namespace Sys2Proof.Machine

/-! ### A wait begins (R62, R83, R110) -/

/-- SWAIT on an object of the context that is not aborted waits for its count (R83). -/
theorem swait_waits {s u : State} {c : Fin 128} {t : Thread} {x : Nat} (hturn : s.waitTurn c t 0x0E u x)
    (hobj : u.objOk (ctObj (u.th c t).a x) (u.th c t).ctx = true) (hlive : (u.obj (ctObj (u.th c t).a x)).aborted = false) :
    execSwait c t s = .next (commit s
      (let target := (regA (u.th c t).a (sf x 16 5)).toInt
        let sat := decide (target ≤ (u.obj (ctObj (u.th c t).a x)).count)
        let v := u.updTh c t fun th => { th with wait := .sync (ctObj (u.th c t).a x) target sat false }
        if sat then v.release_ c t false else v)) := by
  rw [execSwait, act_waitRow_of_waitTurn hturn]
  simp only [hobj, hlive, Bool.not_true, Bool.false_eq_true, if_false]

/-! ### A wait ends (R16, R63, R83, R110, R267) -/

section
variable {s : State} {c : Fin 128} {t : Thread} {sq : Fin 256} {slot : BitVec 16} {w : SyncWaiter}

theorem tickWaitRelease_due {n : Nat} (hcompute : s.compute = true) (hwait : (s.th c .fg).wait = .tick n)
    (hswitch : (s.cell c).switching = false) (hdue : n ≤ s.time.tick) :
    execTickWaitRelease c s = .next (commit s (s.release_ c .fg (decide (n < s.time.tick)))) := by
  simp [execTickWaitRelease, hwait, hcompute, hswitch, hdue]

theorem settleRelease_settled {mask : BitVec 5} (hcompute : s.compute = true) (hwait : (s.th c t).wait = .settle mask)
    (hsettled : (s.cell c).settled t mask.toNat = true) :
    execSettleRelease c t s = .next (commit s (s.release_ c t false)) := by
  simp [execSettleRelease, hwait, hcompute, hsettled]

theorem syncWaitRelease_thread {o : Nat} {g : Int} (hcompute : s.compute = true) (hwait : (s.th c t).wait = .sync o g true false) :
    execSyncWaitRelease (.thread c t) s = .next (commit s (s.release_ c t false)) := by
  simp [execSyncWaitRelease, hwait, hcompute]

theorem syncWaitRelease_desc (hwaiter : s.syncWaiter sq slot.toNat = some w) (habort : w.aborted = false)
    (hsat : w.satisfied = true) :
    execSyncWaitRelease (.desc sq slot) s = .next (commit s (s.endSyncWait sq slot.toNat { status := stOk })) := by
  simp [execSyncWaitRelease, hwaiter, habort, hsat]

theorem syncWaitTimeout_due (hwaiter : s.syncWaiter sq slot.toNat = some w) (habort : w.aborted = false) (hsat : w.satisfied = false)
    (hlimit : w.due ≠ 0) (hdue : w.due ≤ s.now) :
    execSyncWaitTimeout sq slot s = .next (commit s (s.endSyncWait sq slot.toNat { status := stTimeout })) := by
  simp [execSyncWaitTimeout, hwaiter, habort, hsat, hlimit, hdue]

end

/-- Settles O23: a wait operation whose turn has come begins its wait, and a wait whose condition holds, or whose limit has come, ends. -/
theorem waitsBeginAndEnd : Obligations.WaitsBeginAndEnd := by
  unfold Obligations.WaitsBeginAndEnd
  refine ⟨fun s u c t x => ⟨?twa, ?twr, ?settle, fun hobj hlive hturn => swait_waits hturn hobj hlive⟩,
    fun s c t sq slot hcompute => ⟨fun n hwait hswitch hdue => tickWaitRelease_due hcompute hwait hswitch hdue,
      fun m hwait hsettled => settleRelease_settled hcompute hwait hsettled,
      fun o g hwait => syncWaitRelease_thread hcompute hwait,
      fun w hwaiter habort hsat => syncWaitRelease_desc hwaiter habort hsat,
      fun w hwaiter habort hsat hlimit hdue => syncWaitTimeout_due hwaiter habort hsat hlimit hdue⟩⟩
  case twa => exact fun hturn => act_waitRow_of_waitTurn hturn fun s th x => s.tickWait c t (regA th.a (sf x 11 5)).toNat
  case twr =>
    exact fun hturn => act_waitRow_of_waitTurn hturn fun s th x => s.tickWait c t (th.stepBase + BitVec.ofNat 64 (ctImm x)).toNat
  case settle => exact fun hturn => act_waitRow_of_waitTurn hturn _

end Sys2Proof.Machine

/-! ## Trickle work, barrier windows and the ramp (R65, R167, R178 to R181) -/

namespace Sys2Proof.Machine

/-! ### TRICKLE_DISPATCH and TRICKLE_STOP (R64, R65, R178, R179) -/

section
variable {s : State} {c : Fin 128} (hcompute : s.compute = true)
include hcompute

theorem trickleStop_noGap (hrun : (s.th c .tr).running = true) (hgap : s.gap c = false) :
    execTrickleStop c s = .next (commit s ((s.updTh c .tr fun th => { th with paused := true, share := 0 }).settleArray c)) := by
  simp [execTrickleStop, hcompute, hrun, hgap]

theorem trickleDispatch_idle (hshed : s.pw.shed = false) (hrun : (s.cell c).tr.running = false) :
    execTrickleDispatch c s = .next (commit s (s.dispatch c (s.cellHeld c))) := by
  simp [execTrickleDispatch, hcompute, hshed, hrun]

theorem trickleDispatch_staged (hshed : s.pw.shed = false) (hrun : (s.cell c).tr.running = true)
    (hstaged : (s.cell c).tr.staged = true) (hfree : s.unstage c = true) :
    execTrickleDispatch c s = .next (commit s
      ((s.updTh c .tr fun th => { th with staged := false, share := s.rampStart c }).ready c .tr)) := by
  simp [execTrickleDispatch, hcompute, hshed, hrun, hstaged, hfree]

theorem trickleDispatch_paused (hshed : s.pw.shed = false) (hrun : (s.cell c).tr.running = true)
    (hstaged : (s.cell c).tr.staged = false) (hpaused : (s.cell c).tr.paused = true) (hgap : s.gap c = true) :
    execTrickleDispatch c s = .next (commit s
      ((s.updTh c .tr fun th => { th with paused := false, share := s.rampStart c }).trickleOn c)) := by
  simp [execTrickleDispatch, hcompute, hshed, hrun, hstaged, hpaused, hgap]

/-! ### Owned spans (R167) -/

theorem openLaunchPreempt_owned {sq slot : Nat} (hwork : (s.th c .fg).work = some (.launch sq slot))
    (howned : s.owned c s.time.tick = true ∨ s.owned c (s.time.tick + 2) = true) :
    execOpenLaunchPreempt c s = .next (commit s ((s.haltThread c .fg).launchEnd sq slot c .timeout)) := by
  simp [execOpenLaunchPreempt, hwork, hcompute, howned]

/-! ### Barrier windows and the ramp (R181) -/

theorem barrierHoldStart_begins {n : Nat} {b : Barrier} (hwindow : s.windows[n]? = some b)
    (hnew : b.holding = false) (hspans : b.spans s.reserveTicks s.time.tick = true) :
    execBarrierHoldStart n s = .next (commit s
      (forEach (List.range 128) (fun s c => if (s.cell c).ofCtx b.ctx && s.trIdle c && !s.pw.shed then s.dispatch c true else s)
        { s with tt := { s.tt with
            barriers := (s.tt.barriers.filter fun w => !(w.ctx = b.ctx && w.start = b.start && w.len = b.len)
              && decide (s.time.tick < w.start + w.len)) ++ [{ b with holding := true }] } })) := by
  simp only [execBarrierHoldStart, act_eq, hwindow, hcompute, hnew, hspans, Bool.not_true, Bool.or_self, Bool.false_eq_true, if_false]

/-- The trickle thread with its share one sixteenth up, where it issues. -/
def ThreadSt.rampUp (th : ThreadSt) : ThreadSt :=
  if th.running ∧ th.paused = false ∧ th.staged = false ∧ 0 < th.share then { th with share := min 16 (th.share + 1) } else th

theorem rampStep_due (hset : s.time.tickSet = true) (hdue : s.time.tick % s.stepTicks = 0) :
    execRampStep s = .next (commit s { s with cells := s.cells.map fun e => (e.1, { e.2 with tr := e.2.tr.rampUp }) }) := by
  simp [execRampStep, ThreadSt.rampUp, hcompute, hset, hdue, and_assoc]

end

/-- Settles O24: each event finds its premise in the state and takes its step. -/
theorem trickleEventsAct : Obligations.TrickleEventsAct := by
  unfold Obligations.TrickleEventsAct
  intro s c hcompute
  exact ⟨fun hshed hrun => trickleDispatch_idle hcompute hshed hrun,
    fun hshed hrun hstaged hfree => trickleDispatch_staged hcompute hshed hrun hstaged hfree,
    fun hshed hrun hstaged hpaused hgap => trickleDispatch_paused hcompute hshed hrun hstaged hpaused hgap,
    fun hrun hgap => trickleStop_noGap hcompute hrun hgap,
    fun n b hwindow hnew hspans => barrierHoldStart_begins hcompute hwindow hnew hspans,
    fun hset hdue => rampStep_due hcompute hset hdue,
    fun sq slot hwork howned => openLaunchPreempt_owned hcompute hwork howned⟩

end Sys2Proof.Machine

/-! ## The LD slot (R92, R93) -/

namespace Sys2Proof.Machine

/-- Settles O14: the operation in the slot takes effect on the registers as they stood at issue, its addresses formed by `ldAddr`. -/
theorem loadsAndStoresRun : Obligations.LoadsAndStoresRun := by
  unfold Obligations.LoadsAndStoresRun
  intro s u c t i x
  exact ⟨fun hldl => act_slotRow_of_slotTurn hldl fun s i x => s.doLdl c t i x,
    fun hstl => act_slotRow_of_slotTurn hstl fun s i x => s.doStl c i x,
    fun hlda => act_slotRow_of_slotTurn hlda fun s i x => s.putA c t (sf x 6 5) (BitVec.ofNat 64 (s.cellNat c (ldAddr i.a x 0) 8)),
    fun hsta => act_slotRow_of_slotTurn hsta fun s i x => s.cellPut c (ldAddr i.a x 0) (leBytes 8 (regA i.a (sf x 6 5)).toNat),
    fun hldp => act_slotRow_of_slotTurn hldp fun s i x =>
      s.putP c t (sf x 6 3) (BitVec.ofNat 128 (s.cellNat c (ldAddr i.a x 0) 16)),
    fun hstp => act_slotRow_of_slotTurn hstp fun s i x => s.cellPut c (ldAddr i.a x 0) (leBytes 16 (sget 0 i.p (sf x 6 3)).toNat)⟩

end Sys2Proof.Machine

/-! ## Threads end (R61, R108, R115) -/

namespace Sys2Proof.Machine

/-! ### TRAP (R108) -/

section
variable {s v : State} {c : Nat} {t : Thread} {k : Slot} {op code detail : Nat}

/-- TRAP faults where no slot ahead of it does (log 21). -/
theorem preciseFault_trap {b : BitVec 256} (hop : slotOp b .ct = 0x0F) (hld : ldFault (s.th c t).a (slotOf b .ld) = none)
    (hmx : mxFault t (s.cell c).win (slotOf b .mx) = false) :
    s.preciseFault c t b = some (0x08, ctImm (slotOf b .ct) % 2 ^ 16) := by
  simp [State.preciseFault, hop, hld, hmx]

/-- A bundle that may issue raises its precise fault instead. -/
theorem beginIssue_of_preciseFault (hfresh : (s.th c t).issue = none) (hcan : s.canIssue c t = true)
    (hwait : isWait (slotOp (s.bundle c t) .ct) = false) (hroom : s.stalled c (s.bundle c t) = false)
    (hfault : s.preciseFault c t (s.bundle c t) = some (code, detail)) :
    s.beginIssue c t = some (s.progFault c t (s.th c t).pc code detail) := by
  simp [State.beginIssue, hfresh, hcan, hwait, hroom, hfault]

/-- A bundle that leaves nothing in issue takes no effect in its slots. -/
theorem slotRow_of_noIssue (hrun : ((s.ready c t).th c t).running = true) (hop : slotOp ((s.ready c t).bundle c t) k = op)
    (hbegin : (s.ready c t).beginIssue c t = some v) (hnone : (v.th c t).issue = none) (f : State → Issue → Nat → State) :
    s.slotRow c t k op f = v := by
  simp [State.slotRow, hrun, hop, hbegin, hnone]

end

/-! ### Work ends (R115) and a frequency switch ends (R61) -/

section
variable {s : State} {c : Fin 128} {t : Thread} (hcompute : s.compute = true)
include hcompute

theorem frequencySwitchEnd_switched :
    execFrequencySwitchEnd c s = .next (commit s (s.updCell c fun x => { x with switching := false })) := by
  simp [execFrequencySwitchEnd, hcompute]

variable (hhalted : (s.th c t).halted = true) (hissue : (s.th c t).issue = none) (hsettled : (s.cell c).settled t 31 = true)
include hhalted hissue hsettled

theorem threadWorkEnd_entry {inst r j : Nat} (hwork : (s.th c t).work = some (.entry inst r j)) :
    execThreadWorkEnd c t s = .next (commit s
      (((s.updTh c t fun th => { th with work := none }).recordEnds inst r j).startLaunch c)) := by
  unfold State.th at hwork hhalted hissue
  simp [execThreadWorkEnd, hwork, hcompute, hhalted, hissue, hsettled]

theorem threadWorkEnd_other {w : Work} (hwork : (s.th c t).work = some w) (hother : ∀ inst r j, w ≠ .entry inst r j) :
    execThreadWorkEnd c t s = .next (commit s
      (((s.updTh c t fun th => { th with work := none }).workEnd c w .ok).startLaunch c)) := by
  unfold State.th at hwork hhalted hissue
  cases w with
  | entry inst r j => exact absurd rfl (hother inst r j)
  | launch sq slot => simp [execThreadWorkEnd, hwork, hcompute, hhalted, hissue, hsettled]
  | trickle id => simp [execThreadWorkEnd, hwork, hcompute, hhalted, hissue, hsettled]

end

/-- Settles O22: the bundle of a TRAP raises its fault and issues nothing; a halted thread with nothing left in its queues ends its work. -/
theorem threadsEnd : Obligations.ThreadsEnd := by
  unfold Obligations.ThreadsEnd
  intro s c t
  refine ⟨?trap,
    fun w hwork hcompute hhalted hissue hsettled hother => threadWorkEnd_other hcompute hhalted hissue hsettled hwork hother,
    fun n r j hwork hcompute hhalted hissue hsettled => threadWorkEnd_entry hcompute hhalted hissue hsettled hwork,
    fun hcompute => frequencySwitchEnd_switched hcompute⟩
  case trap =>
    intro u b hrun hfresh hop hcan hroom hld hmx v hnone
    have hwait : isWait (slotOp b .ct) = false := by rw [hop]; rfl
    have hbegin : u.beginIssue c t = some v := beginIssue_of_preciseFault hfresh hcan hwait hroom (preciseFault_trap hop hld hmx)
    exact congrArg (fun v => Host.Outcome.next (commit s v)) (slotRow_of_noIssue hrun hop hbegin hnone _)

end Sys2Proof.Machine

/-! ## PROGRAM_LOAD, LAUNCH_OPEN and TRICKLE_SUBMIT (R112, R113, R176, R177, R264, R266) -/

namespace Sys2Proof.Machine

/-! ### A descriptor starts -/

@[simp] theorem lowestBad_nil : lowestBad [] = none := rfl

/-- A field that passes is passed over (R255). -/
@[simp] theorem lowestBad_cons_false (n : Nat) (l : List (Nat × Bool)) : lowestBad ((n, false) :: l) = lowestBad l := rfl

section
variable {s : State} {sq : Fin 256} {slot : Nat} {d : Line} {rest : List Fetched} (hhead : s.headStarts sq slot d rest)
include hhead

/-- PROGRAM_LOAD starts once the channels that it reads are out of reset (R133). -/
theorem programLoad_starts (hop : fieldNat d 7 0 = 0x03) (hready : s.memWaits (fieldNat d 191 128) (fieldNat d 255 224) = false) :
    execProgramLoad sq s = .next (commit s (((s.taken sq rest).programStart sq slot d).followed sq)) := by
  rw [execProgramLoad, act_eq, startRow_of_headStarts hhead hop (by simp [hready])]

theorem launchOpen_starts (hop : fieldNat d 7 0 = 0x05) :
    execLaunchOpen sq s = .next (commit s (((s.taken sq rest).launchStart sq slot d).followed sq)) := by
  rw [execLaunchOpen, act_eq, startRow_of_headStarts hhead hop rfl]

theorem trickleSubmitProgram_starts (hop : fieldNat d 7 0 = 0x06) (hkind : trickleKind d = 0) :
    execTrickleSubmitProgram sq s = .next (commit s (((s.taken sq rest).trickleProgram sq slot d).followed sq)) := by
  rw [execTrickleSubmitProgram, act_eq, startRow_of_headStarts hhead hop (by simp [hkind])]

theorem trickleSubmitPrefetch_starts (hop : fieldNat d 7 0 = 0x06) (hkind : trickleKind d = 1) :
    execTrickleSubmitPrefetch sq s = .next (commit s (((s.taken sq rest).tricklePrefetch sq slot d).followed sq)) := by
  rw [execTrickleSubmitPrefetch, act_eq, startRow_of_headStarts hhead hop (by simp [hkind])]

end

/-! ### PROGRAM_LOAD (R112, R113, R264) -/

/-- The first bundle that an image takes (R112). -/
def imgBase (img : List Byte) : Nat := bytesField (img.take 128) 75 64

/-- The bundles of an image (R112). -/
def imgCount (img : List Byte) : Nat := bytesField (img.take 128) 92 80

/-- What a cell keeps of an image of a context (R112). -/
def imgOf (ctx : BitVec 6) (img : List Byte) : Image :=
  { ctx := ctx, base := imgBase img, count := imgCount img, entry := bytesField (img.take 128) 107 96,
    thread := if bytesField (img.take 128) 113 112 = 2 then .tr else .fg, digest := BitVec.ofNat 384 (bytesField (img.take 128) 895 512) }

/-- The image in the named cells. -/
def State.withProgram (s : State) (ctx : BitVec 6) (img : List Byte) (cells : List Nat) : State :=
  forEach cells (fun s x => s.updCell x fun y => y.loadImage (imgOf ctx img) ((List.range (imgCount img)).map (imgBundle img))) s

section
variable {s u w : State} {sq slot : Nat} {d : Line} {img : List Byte}

/-- An image that passes its checks is in every named cell, and the descriptor completes. -/
theorem loadProgram_good (hlen : fieldNat d 255 224 = 128 + 32 * imgCount img) (hgood : imgBad img = none)
    (hfree : ∀ x ∈ maskCells (fieldNat d 383 256), s.imageBusy x (imgBase img) (imgCount img) = false) :
    s.loadProgram sq slot d img
      = (s.withProgram (s.sq sq).ctx img (maskCells (fieldNat d 383 256))).endDesc sq slot d { status := stOk } := by
  unfold imgBase imgCount at hfree
  unfold imgCount at hlen
  have hidle : ((maskCells (fieldNat d 383 256)).any fun x =>
      s.imageBusy x (bytesField (img.take 128) 75 64) (bytesField (img.take 128) 92 80)) = false := by
    simpa using hfree
  simp only [State.loadProgram, hlen, hgood, hidle, ne_eq, not_true_eq_false, if_false, Bool.false_eq_true]
  rfl

/-- An image in device memory that its context may read goes on to its checks. -/
theorem programStart_read (hdev : fieldNat d 193 192 = 0) (hregion : regionOf (fieldNat d 191 128) = .lpddr)
    (hcap : fieldNat d 191 128 + fieldNat d 255 224 ≤ u.capacity) (hzero : fieldNat d 223 194 = 0)
    (hlen : imgLenOk (fieldNat d 255 224) = true) (hmask : fieldNat d 383 256 ≠ 0) (hend : fieldNat d 511 384 = 0)
    (hpages : u.pageFail (u.sq sq).ctx false false (fieldNat d 191 128) (fieldNat d 255 224) = none)
    (hcells : ∀ x ∈ maskCells (fieldNat d 383 256), (u.cell x).failed = false)
    (hread : u.moduleRead (u.sq sq).ctx (fieldNat d 191 128) (fieldNat d 255 224) = (w, .ok img)) :
    u.programStart sq slot d = w.loadProgram sq slot d img := by
  have hfind : (maskCells (fieldNat d 383 256)).find? (fun x => (u.cell x).failed) = none := by
    simpa using hcells
  have hfits : ¬u.capacity < fieldNat d 191 128 + fieldNat d 255 224 := Nat.not_lt.mpr hcap
  simp [State.programStart, hdev, hregion, hfits, hzero, hlen, hmask, hend, hpages, hfind, hread]

end

/-! ### LAUNCH_OPEN (R266) -/

section
variable {u : State} {sq slot : Nat} {d : Line}

theorem launchStart_queued (hcells : maskCells (fieldNat d 319 192) ≠ [])
    (himage : ∀ x ∈ maskCells (fieldNat d 319 192),
      (u.cell x).failed = false ∧ ((u.cell x).image .fg (u.sq sq).ctx (fieldNat d 139 128)).isSome = true)
    (hzero : fieldNat d 143 140 = 0) (harg : u.argOk (u.sq sq).ctx (fieldNat d 191 144) 64 8 = true) (hend : fieldNat d 511 320 = 0) :
    u.launchStart sq slot d
      = forEach (maskCells (fieldNat d 319 192)) (fun w x => w.startLaunch x)
          (forEach (maskCells (fieldNat d 319 192)) (fun w x => w.updCell x fun y => { y with launches := y.launches ++ [(sq, slot)] })
            (u.startJob sq slot d (.launch (maskCells (fieldNat d 319 192)) 0 false false none))) := by
  have hfind : (maskCells (fieldNat d 319 192)).find? (fun x => (u.cell x).failed) = none := by
    simpa using fun x hx => (himage x hx).1
  have hheld : ((maskCells (fieldNat d 319 192)).any fun x =>
      !(u.cell x).failed && ((u.cell x).image .fg (u.sq sq).ctx (fieldNat d 139 128)).isNone) = false := by
    simpa [Option.isSome_iff_ne_none] using fun x hx _ => (himage x hx).2
  have hsome : (maskCells (fieldNat d 319 192)).isEmpty = false := by simpa using hcells
  simp [State.launchStart, hheld, hzero, harg, hsome, hend, hfind]

end

/-! ### TRICKLE_SUBMIT (R176, R177) -/

/-- The entry is behind the others of the queue, under its descriptor. -/
def State.trickleQueued (s : State) (sq slot : Nat) (d : Line) (e : TrickleEntry) : State :=
  let w := s.startJob sq slot d (.trickle s.tt.nextId)
  { w with tt := { w.tt with
      queue := w.tt.queue ++ [{ e with id := s.tt.nextId, sq := sq, slot := slot, ctx := (s.sq sq).ctx }], nextId := s.tt.nextId + 1 } }

/-- The cells that a program run names: those of its mask, or all. -/
def namedCells (mask : Nat) : List Nat := if mask = 0 then List.range 128 else maskCells mask

section
variable {u : State} {sq slot : Nat} {d : Line}

theorem queueTrickle_room (hroom : u.tt.queue.length < 4096) (e : TrickleEntry) :
    u.queueTrickle sq slot d e = u.trickleQueued sq slot d e :=
  if_neg (Nat.not_le.mpr hroom)

theorem trickleProgram_queued (hkind : trickleKind d = 0) (hlow : fieldNat d 135 130 = 0) (hmid : fieldNat d 159 148 = 0)
    (hhigh : fieldNat d 223 208 = 0) (hend : fieldNat d 511 352 = 0)
    (harg : u.argOk (u.sq sq).ctx (fieldNat d 207 160) 64 8 = true)
    (hcell : ∃ x ∈ namedCells (fieldNat d 351 224),
      ((u.cell x).entryImage .tr (u.sq sq).ctx (fieldNat d 147 136)).isSome = true ∧ (u.cell x).failed = false)
    (hroom : u.tt.queue.length < 4096) :
    u.trickleProgram sq slot d = u.trickleQueued sq slot d
      { bundle := fieldNat d 147 136, argAddr := fieldNat d 207 160, mask := BitVec.ofNat 128 (fieldNat d 351 224) } := by
  obtain ⟨x, hx, himage, hlive⟩ := hcell
  have hholds : ((namedCells (fieldNat d 351 224)).any fun c =>
      ((u.cell c).entryImage .tr (u.sq sq).ctx (fieldNat d 147 136)).isSome) = true := List.any_eq_true.mpr ⟨x, hx, himage⟩
  have hsomeLive : ((namedCells (fieldNat d 351 224)).all fun c => (u.cell c).failed) = false :=
    List.all_eq_false.mpr ⟨x, hx, by simp [hlive]⟩
  unfold namedCells at hholds hsomeLive
  unfold trickleKind at hkind
  simp [State.trickleProgram, hkind, hlow, hholds, hsomeLive, hmid, harg, hhigh, hend, queueTrickle_room hroom]

/-- The fields that a prefetch keeps at 0 (R176). -/
def prefetchReserved (d : Line) : Prop :=
  fieldNat d 135 130 = 0 ∧ fieldNat d 147 136 = 0 ∧ fieldNat d 159 148 = 0 ∧ fieldNat d 207 160 = 0 ∧ fieldNat d 223 208 = 0
    ∧ fieldNat d 511 352 = 0

/-- A side of a prefetch passes the checks of a COPY (R121, R129, R141, R177). -/
structure State.PrefetchSide (s : State) (ctx : BitVec 6) (write : Bool) (a len : Nat) : Prop where
  range : moverRange a len = true
  inside : s.beyond a len = false
  pages : s.rangePage ctx write a len = none

theorem tricklePrefetch_queued (hzero : prefetchReserved d) (hmin : 4 ≤ fieldNat d 351 320) (hmult : fieldNat d 351 320 % 4 = 0)
    (hapart : overlaps (fieldNat d 271 224) (fieldNat d 319 272) (fieldNat d 351 320) = false)
    (hsrc : u.PrefetchSide (u.sq sq).ctx false (fieldNat d 271 224) (fieldNat d 351 320))
    (hdst : u.PrefetchSide (u.sq sq).ctx true (fieldNat d 319 272) (fieldNat d 351 320)) (hroom : u.tt.queue.length < 4096) :
    u.tricklePrefetch sq slot d = u.trickleQueued sq slot d
      { prefetch := true, src := fieldNat d 271 224, dst := fieldNat d 319 272, len := fieldNat d 351 320 } := by
  obtain ⟨hlow, hbundle, hmid, harg, hhigh, hend⟩ := hzero
  have hlong : ¬fieldNat d 351 320 < 4 := Nat.not_lt.mpr hmin
  simp [State.tricklePrefetch, hlow, hbundle, hmid, harg, hhigh, hend, hlong, hmult, hapart, hsrc.range, hdst.range, hsrc.inside,
    hdst.inside, hsrc.pages, hdst.pages, queueTrickle_room hroom]

end

/-- Settles O3: each descriptor passes the checks of its start, and an image those of its header and bundles besides. -/
theorem programDescriptorsRun : Obligations.ProgramDescriptorsRun := by
  unfold Obligations.ProgramDescriptorsRun
  intro s sq slot d rest hhead u c queued
  refine ⟨?load, ?launch, ?program, ?prefetch⟩
  case load =>
    intro src len cells w img hop hdev hregion hcap hzero hlen hmask hend hpages hcells hread hwhole hgood hfree hready
    calc execProgramLoad sq s
      _ = .next (commit s ((u.programStart sq slot d).followed sq)) := programLoad_starts hhead hop hready
      _ = .next (commit s ((w.loadProgram sq slot d img).followed sq)) := by
        rw [programStart_read hdev hregion hcap hzero hlen hmask hend hpages hcells hread]
      _ = .next (commit s (((w.withProgram (w.sq sq).ctx img cells).endDesc sq slot d { status := stOk }).followed sq)) := by
        rw [loadProgram_good hwhole hgood hfree]
  case launch =>
    intro cells hop hcells himage hzero harg hend
    rw [← launchStart_queued hcells himage hzero harg hend]
    exact launchOpen_starts hhead hop
  case program =>
    intro mask named hop hkind hlow hmid hhigh hend harg hcell hroom
    calc execTrickleSubmitProgram sq s
      _ = .next (commit s ((u.trickleProgram sq slot d).followed sq)) := trickleSubmitProgram_starts hhead hop hkind
      _ = .next (commit s ((u.trickleQueued sq slot d _).followed sq)) := by
        rw [trickleProgram_queued hkind hlow hmid hhigh hend harg hcell hroom]
  case prefetch =>
    intro src dst len hop hkind hlow hbundle hmid harg hhigh hend hmin hmult hsrc hdst hapart hsrcIn hdstIn hsrcPages hdstPages hroom
    calc execTrickleSubmitPrefetch sq s
      _ = .next (commit s ((u.tricklePrefetch sq slot d).followed sq)) := trickleSubmitPrefetch_starts hhead hop hkind
      _ = .next (commit s ((u.trickleQueued sq slot d _).followed sq)) := by
        rw [tricklePrefetch_queued ⟨hlow, hbundle, hmid, harg, hhigh, hend⟩ hmin hmult hapart ⟨hsrc, hsrcIn, hsrcPages⟩
          ⟨hdst, hdstIn, hdstPages⟩ hroom]

end Sys2Proof.Machine

/-! ## COPY, FILL and WEIGHT_LOAD (R141, R143, R265) -/

namespace Sys2Proof.Machine

/-- A move under way: its job waits for its one piece, or for the pieces of a spread command, which are in the movers' queues (R142, R143). -/
def State.moveQueued (s : State) (sq slot : Nat) (d : Line) (m : MoverCmd) (spread : Bool) : State :=
  let ps := if spread then cutPieces m else [m]
  (s.startJob sq slot d (.move ps.length none 0 0 0 0 [])).dispatchPieces sq true ps

/-- A device range of a move lies inside the capacity, in pages that its context may use (R121, R129). -/
def State.rangeGood (s : State) (ctx : BitVec 6) (write : Bool) (a len : Nat) : Prop :=
  s.beyond a len = false ∧ s.rangePage ctx write a len = none

/-- What a context may have moved, by a COPY or else by a FILL: its device ranges are good, none of its bytes go between host memory and
a cell while it is confidential, and a remote destination is in its slice (R121, R126, R129, R141). -/
structure State.MayMove (s : State) (copy : Bool) (ctx : BitVec 6) (m : MoverCmd) : Prop where
  source : copy = true → m.srcSpace = 0 → s.rangeGood ctx false m.src m.len
  target : m.dstSpace = 0 → s.rangeGood ctx true m.dst m.len
  toCell : s.conf ctx.toNat = true → m.srcSpace = 1 → m.dstSpace = 0 → inCells m.dst = false
  fromCell : s.conf ctx.toNat = true → copy = true → m.srcSpace = 0 → m.dstSpace = 1 → inCells m.src = false
  inSlice : m.dstSpace = 2 → s.inSliceOf ctx.toNat m.dstMod = true

/-- The command of a WEIGHT_LOAD descriptor: from host memory into the context's LPDDR6 (R265). -/
def weightCmd (sq slot : Nat) (c : BitVec 6) (d : Line) : MoverCmd :=
  { kind := .weight, sq := sq, slot := slot, ctx := c, srcSpace := 1, src := fieldNat d 191 128, dst := fieldNat d 239 192,
    len := fieldNat d 287 256 }

section
variable {u : State} {sq slot : Nat} {d : Line}

theorem moveStart_queued {copy : Bool} (hgood : moveBad copy d = none)
    (hmay : u.MayMove copy (u.sq sq).ctx (moveCmd copy sq slot (u.sq sq).ctx d)) :
    u.moveStart copy sq slot d = u.moveQueued sq slot d (moveCmd copy sq slot (u.sq sq).ctx d) (bitAt d 260) := by
  simp only [State.moveStart, hgood]
  generalize moveCmd copy sq slot (u.sq sq).ctx d = m at *
  obtain ⟨hsource, htarget, htoCell, hfromCell, hslice⟩ := hmay
  have hsourceIn : (copy && decide (m.srcSpace = 0) && u.beyond m.src m.len) = false := by
    simpa using fun hcopy hdev => (hsource hcopy hdev).1
  have htargetIn : (decide (m.dstSpace = 0) && u.beyond m.dst m.len) = false := by
    simpa using fun hdev => (htarget hdev).1
  have hsecret : (u.conf (u.sq sq).ctx.toNat && ((decide (m.srcSpace = 1) && decide (m.dstSpace = 0) && inCells m.dst)
      || (copy && decide (m.srcSpace = 0) && decide (m.dstSpace = 1) && inCells m.src))) = false := by
    simpa using fun hconf => ⟨htoCell hconf, hfromCell hconf⟩
  have hsourcePages : (if (copy && decide (m.srcSpace = 0)) = true then u.rangePage (u.sq sq).ctx false m.src m.len else none) = none := by
    simpa using fun hcopy hdev => (hsource hcopy hdev).2
  have htargetPages : (if m.dstSpace = 0 then u.rangePage (u.sq sq).ctx true m.dst m.len else none) = none := by
    simpa using fun hdev => (htarget hdev).2
  have hinSlice : (decide (m.dstSpace = 2) && !u.inSliceOf (u.sq sq).ctx.toNat m.dstMod) = false := by
    simpa using hslice
  simp only [hsourceIn, htargetIn, hsecret, hsourcePages, htargetPages, hinSlice, Option.orElse_none,
    Bool.false_eq_true, if_false]
  rfl

theorem weightStart_queued (hgood : weightBad d = none)
    (htarget : u.rangeGood (u.sq sq).ctx true (fieldNat d 239 192) (fieldNat d 287 256))
    (hroom : (u.weightIds (u.sq sq).ctx.toNat).length < 1024 ∨ (u.weightIds (u.sq sq).ctx.toNat).contains (fieldNat d 319 288) = true) :
    u.weightStart sq slot d = u.moveQueued sq slot d (weightCmd sq slot (u.sq sq).ctx d) (bitAt d 320) := by
  obtain ⟨hinside, hpages⟩ := htarget
  have hfits : ¬(1024 ≤ (u.weightIds (u.sq sq).ctx.toNat).length
      ∧ (!(u.weightIds (u.sq sq).ctx.toNat).contains (fieldNat d 319 288)) = true) := by
    rintro ⟨hfull, hnew⟩
    rcases hroom with hroom | hheld
    · omega
    · rw [hheld] at hnew
      cases hnew
  simp only [State.weightStart, hgood, hinside, hpages, hfits, if_false, Bool.false_eq_true]
  rfl

end

/-! ### The moves start (R252) -/

section
variable {s : State} {sq : Fin 256} {slot : Nat} {d : Line} {rest : List Fetched} (hhead : s.headStarts sq slot d rest)
include hhead

theorem copy_starts (hop : fieldNat d 7 0 = 0x01) :
    execCopy sq s = .next (commit s (((s.taken sq rest).moveStart true sq slot d).followed sq)) := by
  rw [execCopy, act_eq, startRow_of_headStarts hhead hop rfl]

theorem fill_starts (hop : fieldNat d 7 0 = 0x02) :
    execFill sq s = .next (commit s (((s.taken sq rest).moveStart false sq slot d).followed sq)) := by
  rw [execFill, act_eq, startRow_of_headStarts hhead hop rfl]

theorem weightLoad_starts (hop : fieldNat d 7 0 = 0x04) :
    execWeightLoad sq s = .next (commit s (((s.taken sq rest).weightStart sq slot d).followed sq)) := by
  rw [execWeightLoad, act_eq, startRow_of_headStarts hhead hop rfl]

end

/-- Settles O2: each descriptor passes the checks of its start, and its pieces are in the movers' queues. -/
theorem moveDescriptorsStart : Obligations.MoveDescriptorsStart := by
  unfold Obligations.MoveDescriptorsStart
  intro s sq slot d rest hhead u c go m
  refine ⟨?copy, ?fill, ?weight⟩
  case copy =>
    intro hop hgood hsource htarget hslice hsecret
    have hmay : u.MayMove true c m :=
      { source := fun _ => hsource
        target := htarget
        toCell := fun hconf hhost _ => Bool.eq_false_iff.mpr fun hcell => (hsecret hconf).1 ⟨hhost, hcell⟩
        fromCell := fun hconf _ _ hhost => Bool.eq_false_iff.mpr fun hcell => (hsecret hconf).2 ⟨hhost, hcell⟩
        inSlice := hslice }
    calc execCopy sq s
      _ = .next (commit s ((u.moveStart true sq slot d).followed sq)) := copy_starts hhead hop
      _ = .next (commit s (go m (bitAt d 260))) := by rw [moveStart_queued hgood hmay]; rfl
  case fill =>
    intro f hop hgood hsource htarget hinside hpages
    have hmay : u.MayMove false c f :=
      { source := nofun
        target := fun _ => ⟨hinside, hpages⟩
        toCell := fun _ hhost => by simp [hsource] at hhost
        fromCell := nofun
        inSlice := fun hremote => by simp [htarget] at hremote }
    calc execFill sq s
      _ = .next (commit s ((u.moveStart false sq slot d).followed sq)) := fill_starts hhead hop
      _ = .next (commit s (go f (bitAt d 260))) := by rw [moveStart_queued hgood hmay]; rfl
  case weight =>
    intro dst len ws hop hgood hinside hpages hroom
    calc execWeightLoad sq s
      _ = .next (commit s ((u.weightStart sq slot d).followed sq)) := weightLoad_starts hhead hop
      _ = .next (commit s (go (weightCmd sq slot c d) (bitAt d 320))) := by
        rw [weightStart_queued hgood ⟨hinside, hpages⟩ hroom]; rfl

end Sys2Proof.Machine

/-! ## The patrol, freed pages, refresh and retracking (R132, R146) -/

namespace Sys2Proof.Machine

/-- A command without an effect leaves the state as it is. -/
@[simp] theorem commit_self (s : State) : commit s s = s := if_pos rfl

/-- The patrol stands at a line, in whose symbols errors have come up (R146). -/
def State.patrolled (s : State) (line : BitVec 42) (found : SymbolErrors) : State :=
  { s with scrubLine := line.toNat, tags := supd {} s.tags (64 * line.toNat / 64) fun t => t.hit found }

/-- What the patrol leaves of a line by what its read gave: poisoned after a memory error, which the read has recorded; rewritten
corrected where it held an error; as it is where it held none (R146). -/
def State.patrolEnd (s : State) (a : Nat) : State × Option (List Byte × BitVec 24) → State
  | (w, none) => w.poisonLine a
  | (w, some (bs, tag)) => if (s.tag a).err.isEmpty then w else w.rewriteLine a bs tag

section
variable {s : State} {a : Nat} {read : State × Option (List Byte × BitVec 24)}

theorem patrolEnd_memError (hread : read.2 = none) : s.patrolEnd a read = read.1.poisonLine a := by
  obtain ⟨w, _⟩ := read
  cases hread
  rfl

theorem patrolEnd_readable {bs : List Byte} {tag : BitVec 24} (hread : read.2 = some (bs, tag)) :
    s.patrolEnd a read = if (s.tag a).err.isEmpty then read.1 else read.1.rewriteLine a bs tag := by
  obtain ⟨w, _⟩ := read
  cases hread
  rfl

end

theorem scrubPatrol_reads {s : State} {line : BitVec 42} {found : SymbolErrors} (hcompute : s.compute = true)
    (hon : s.fld 0x200040 0 8 ≠ 0) (hinside : 64 * line.toNat < s.capacity)
    (hready : s.groupInReset (s.controllerOf (64 * line.toNat)) = false) :
    execScrubPatrol line found s = .next (commit s ((s.patrolled line found).patrolEnd (64 * line.toNat)
      ((s.patrolled line found).checkLine (s.page (64 * line.toNat / pageSize)).ctx (64 * line.toNat)))) := by
  simp only [execScrubPatrol, act_eq, hcompute, hon, Nat.not_le.mpr hinside, hready, Bool.not_true, Bool.false_eq_true, or_self, if_false]
  rfl

theorem pageZeroed_zeroes {s : State} {p : Fin 393216} (hcompute : s.compute = true) (hfreed : (s.page p).state = .scrubbing) :
    execPageZeroed p s = .next (commit s (s.pageZeroed p)) := by
  simp [execPageZeroed, hcompute, hfreed]

theorem refresh_unchanged (k : Fin 32) (b : BitVec 8) (s : State) : execRefresh k b s = .next s := by
  rw [execRefresh, act_eq, commit_self]

theorem readRetrack_unchanged (k : Fin 32) (s : State) : execReadRetrack k s = .next s := by
  rw [execReadRetrack, act_eq, commit_self]

/-- Settles O29: the patrol poisons or rewrites by what its read gave, the scrub engine zeroes a page that is scrubbing, and the two
timing commands have no effect on the state. -/
theorem memoryCareRuns : Obligations.MemoryCareRuns := by
  unfold Obligations.MemoryCareRuns
  intro s hcompute
  refine ⟨?patrol, fun p hfreed => pageZeroed_zeroes hcompute hfreed, fun k b => refresh_unchanged k b s, fun k => readRetrack_unchanged k s⟩
  case patrol =>
    intro line found hon hinside hready a u read
    have hend : execScrubPatrol line found s = .next (commit s (u.patrolEnd a read)) := scrubPatrol_reads hcompute hon hinside hready
    constructor
    · intro hbad
      rw [← patrolEnd_memError (s := u) hbad]
      exact hend
    · intro bs tag hdata
      rw [← patrolEnd_readable (s := u) hdata]
      exact hend

end Sys2Proof.Machine

/-! ## TIMETABLE_LOAD, STREAM_ADMIT, TIMETABLE_ARM and STREAM_RELEASE (R155 to R163) -/

namespace Sys2Proof.Machine

/-! ### The descriptors start (R252) -/

section
variable {s : State} {sq : Fin 256} {slot : Nat} {d : Line} {rest : List Fetched} (hhead : s.headStarts sq slot d rest)
include hhead

/-- TIMETABLE_LOAD starts once the channels that it reads are out of reset (R133). -/
theorem timetableLoad_starts (hop : fieldNat d 7 0 = 0x07) (hready : s.memWaits (fieldNat d 175 128) (fieldNat d 223 192) = false) :
    execTimetableLoad sq s = .next (commit s (((s.taken sq rest).ttLoad sq slot d).followed sq)) := by
  rw [execTimetableLoad, act_eq, startRow_of_headStarts hhead hop (by simp [hready])]

/-- STREAM_ADMIT starts once no other search runs (log 30) and its stream record can be read. -/
theorem streamAdmit_starts (answers : List MemberAnswer) (hop : fieldNat d 7 0 = 0x09) (hnone : s.tt.search = none)
    (hready : s.recordWaits sq d = false) :
    execStreamAdmit sq answers s = .next (commit s (((s.taken sq rest).admitStart sq slot d answers).followed sq)) := by
  rw [execStreamAdmit, act_eq, hnone, Option.isSome_none, if_neg Bool.false_ne_true,
    startRow_of_headStarts hhead hop (by simp [hready])]

theorem timetableArm_starts (answers : List (Fin 512 × ArmAnswer)) (hop : fieldNat d 7 0 = 0x08) (hready : s.objectWaits d = false) :
    execTimetableArm sq answers s = .next (commit s (((s.taken sq rest).armStart sq slot d answers).followed sq)) := by
  rw [execTimetableArm, act_eq, startRow_of_headStarts hhead hop (by simp [hready])]

theorem streamRelease_starts (hop : fieldNat d 7 0 = 0x0A) :
    execStreamRelease sq s = .next (commit s (((s.taken sq rest).releaseStart sq slot d).followed sq)) := by
  rw [execStreamRelease, act_eq, startRow_of_headStarts hhead hop rfl]

end

/-! ### TIMETABLE_LOAD (R155 to R158) -/

/-- An aligned range of LPDDR6 in pages of the context, owned or shared (R157). -/
structure State.ObjectRange (s : State) (ctx : BitVec 6) (a len : Nat) : Prop where
  aligned : a % 64 = 0
  region : regionOf a = .lpddr
  inside : a + len ≤ s.capacity
  pages : ∀ p ∈ pagesOf a len, ((s.page p).state = .owned ∨ (s.page p).state = .shared) ∧ (s.page p).ctx = ctx

/-- The state that holds an object, in the place of one of its context under its handle (R158). -/
def State.holdObject (s : State) (o : TtObject) : State :=
  { s with tt := { s.tt with objects := (s.tt.objects.filter fun x => !(x.ctx = o.ctx && x.handle = o.handle)) ++ [o] } }

section
variable {u w : State} {sq slot : Nat} {d : Line} {o : List Byte}

theorem ttLoad_held (hrange : u.ObjectRange (u.sq sq).ctx (fieldNat d 175 128) (fieldNat d 223 192)) (hmid : fieldNat d 191 176 = 0)
    (hmin : 160 ≤ fieldNat d 223 192) (hmult : fieldNat d 223 192 % 32 = 0) (hmax : fieldNat d 223 192 ≤ 128 + 32 * 65535)
    (hend : fieldNat d 511 232 = 0) (hread : u.moduleRead (u.sq sq).ctx (fieldNat d 175 128) (fieldNat d 223 192) = (w, .ok o))
    (hwhole : fieldNat d 223 192 = 128 + 32 * bytesField (o.take 128) 175 160) (hgood : ttBad o = none)
    (hfree : ∀ i ∈ w.tt.instances, ¬(i.ctx = (u.sq sq).ctx ∧ i.object.handle = fieldNat d 231 224 ∧ i.state ≠ .reserved)) :
    u.ttLoad sq slot d
      = (w.holdObject (ttParse (u.sq sq).ctx (fieldNat d 231 224) (fieldNat d 175 128) o)).complete sq slot d { status := stOk } := by
  obtain ⟨haligned, hregion, hinside, hpages⟩ := hrange
  have hlong : ¬fieldNat d 223 192 < 160 := Nat.not_lt.mpr hmin
  have hshort : ¬128 + 32 * 65535 < fieldNat d 223 192 := Nat.not_lt.mpr hmax
  have howned : ((pagesOf (fieldNat d 175 128) (fieldNat d 223 192)).all fun p =>
      ((u.page p).state = .owned || (u.page p).state = .shared) && (u.page p).ctx = (u.sq sq).ctx) = true := by
    simpa using hpages
  have hidle : (w.tt.instances.any fun i =>
      i.ctx = (u.sq sq).ctx && i.object.handle = fieldNat d 231 224 && i.state ≠ .reserved) = false := by
    simpa using hfree
  simp only [State.ttLoad, haligned, hregion, hinside, howned, hmid, hlong, hmult, hshort, hend, ne_eq, not_true_eq_false, decide_true,
    decide_false, Bool.and_self, Bool.not_true, Bool.or_self, lowestBad_cons_false, lowestBad_nil, hread, ← hwhole, if_false, hgood, hidle,
    Bool.false_eq_true]
  rfl

end

/-! ### STREAM_ADMIT (R157, R163) -/

/-- A search that every member's answer fits ends, and the stream is enrolled. -/
theorem searchFrom_of_fit {s : State} {q : Search} (d : Line) (hfit : q.asks = .fit) (n : Nat) :
    s.searchFrom (n + 1) q d
      = (({ s with tt := { s.tt with search := none } } : State).enrol q).endDesc q.sq q.slot d { status := stOk, r0 := q.phase } := by
  simp only [State.searchFrom, hfit]

/-- The search of a STREAM_ADMIT, at its first phase: the one asked for, and no sooner than four frames from now (R157). -/
def admitSearch (sq slot : Nat) (d : Line) (answers : List MemberAnswer) (o : TtObject) (record : Option StreamRec) (frame : Nat) : Search :=
  { sq := sq, slot := slot, inst := fieldNat d 145 136, phase := max (fieldNat d 207 160) (frame + 4),
    last := max (fieldNat d 207 160) (frame + 4) + fieldNat d 229 224, answers := answers, object := o, itk := fieldNat d 247 232,
    record := record }

section
variable {u v : State} {sq slot : Nat} {d : Line} {o : TtObject}

/-- A STREAM_ADMIT with good fields begins its search. -/
theorem admitStart_searches {record : Option StreamRec} (answers : List MemberAnswer)
    (hobj : u.ttObj (u.sq sq).ctx (fieldNat d 135 128) = some o) (hlead : o.member = o.lead)
    (hnew : ∀ i ∈ u.tt.instances, i.id ≠ fieldNat d 145 136) (hmid : fieldNat d 159 146 = 0) (hphase : fieldNat d 223 208 = 0)
    (hwindow : fieldNat d 231 230 = 0) (hitk : fieldNat d 247 232 ≤ (u.ctx (u.sq sq).ctx.toNat).itkCount) (hend : fieldNat d 511 248 = 0)
    (hparts : u.searchParts (u.sq sq).ctx d = (v, some (o, .ok record)))
    (hrecord : ∀ r, record = some r → v.recBad (u.sq sq).ctx o.period r = none) :
    let b := (v.startJob sq slot d .search).beginPhase (admitSearch sq slot d answers o record v.frame)
    u.admitStart sq slot d answers = b.1.searchFrom 65 b.2 d := by
  have hfresh : (u.tt.instances.any fun i => i.id = fieldNat d 145 136) = false := by simpa using hnew
  have hcount : ¬(u.ctx (u.sq sq).ctx.toNat).itkCount < fieldNat d 247 232 := Nat.not_lt.mpr hitk
  have hgood : (record.bind fun r => v.recBad (u.sq sq).ctx o.period r) = none := Option.bind_eq_none_iff.mpr hrecord
  simp [State.admitStart, hobj, hlead, hfresh, hmid, hphase, hwindow, hcount, hend, hparts, hgood, admitSearch]

end

/-! ### TIMETABLE_ARM (R158 to R160) -/

/-- What is held under an id is arming, to run from its period j on. -/
def State.beginArming (s : State) (id j args : Nat) (quiet : Bool) (sq slot : Nat) : State :=
  s.updInst id fun i => { i with arming := true, firstPeriod := j, recorded := j, args := args, quiet := quiet, sq := sq, slot := slot }

section
variable {u w : State} {sq slot : Nat} {d : Line} {i : Instance}

/-- A TIMETABLE_ARM with good fields, whose object has its digest and which no member turns down, tells the members and arms. -/
theorem armStart_arms {answers : List (Fin 512 × ArmAnswer)}
    (hinst : (u.tt.instances.find? fun i =>
      i.id = fieldNat d 137 128 && i.ctx = (u.sq sq).ctx && i.isLead && i.state = .admitted && !i.arming) = some i)
    (hlow : fieldNat d 143 138 = 0) (hargs : u.argOk (u.sq sq).ctx (fieldNat d 191 144) 16384 64 = true) (hend : fieldNat d 511 193 = 0)
    (hdigest : u.digestOk i.object = (w, .ok true)) (hothers : othersFail i.object answers = none) :
    let j := i.firstFrom u.time.tick
    let v := w.tellMembers i.id i.object (.arm (i.phase + j * i.object.period) (fieldNat d 191 144) (bitAt d 192))
    u.armStart sq slot d answers
      = (State.startJob { v with tt := { v.tt with skipped := sset 0 v.tt.skipped i.id 0 } } sq slot d (.arm i.id)).beginArming i.id j
          (fieldNat d 191 144) (bitAt d 192) sq slot := by
  simp only [State.armStart, hinst, Option.isNone_some, hlow, hargs, hend, ne_eq, not_true_eq_false, decide_false, Bool.not_true,
    lowestBad_cons_false, lowestBad_nil, hdigest, hothers]
  rfl

/-! ### STREAM_RELEASE (R161) -/

/-- A STREAM_RELEASE of what is armed waits until it is free; any other completes at once. -/
theorem releaseStart_found
    (hinst : (u.tt.instances.find? fun i => i.id = fieldNat d 137 128 && i.ctx = (u.sq sq).ctx && i.isLead) = some i)
    (hend : fieldNat d 511 139 = 0) :
    u.releaseStart sq slot d =
      if i.state = .armed ∨ i.state = .releasing then (u.startJob sq slot d (.release i.id)).release i.id (bitAt d 138) { status := stOk }
      else (u.release i.id (bitAt d 138) { status := stOk }).complete sq slot d { status := stOk } := by
  simp only [State.releaseStart, hinst, Option.isNone_some, hend, ne_eq, not_true_eq_false, decide_false, lowestBad_cons_false,
    lowestBad_nil]

end

/-- Settles O4: each descriptor passes the checks of its fields and of what it names, and has its effect. -/
theorem timetableDescriptorsRun : Obligations.TimetableDescriptorsRun := by
  unfold Obligations.TimetableDescriptorsRun
  intro s sq slot d rest hhead u c
  refine ⟨?load, ?search, ?arm, ?release⟩
  case load =>
    intro addr len w o hop haligned hregion hinside hpages hmid hmin hmult hmax hend hread hwhole hgood hfree hready
    calc execTimetableLoad sq s
      _ = .next (commit s ((u.ttLoad sq slot d).followed sq)) := timetableLoad_starts hhead hop hready
      _ = .next (commit s (((w.holdObject (ttParse c (fieldNat d 231 224) addr o)).complete sq slot d { status := stOk }).followed sq)) := by
        rw [ttLoad_held ⟨haligned, hregion, hinside, hpages⟩ hmid hmin hmult hmax hend hread hwhole hgood hfree]
  case search =>
    intro id phase answers v o record hop hnone hobj hlead hnew hmid hphase hwindow hitk hend hready hparts hrecord hframe b hfit
    have hbegin : (v.startJob sq slot d .search).beginPhase (admitSearch sq slot d answers o record v.frame) = b := by rw [hframe]; rfl
    calc execStreamAdmit sq answers s
      _ = .next (commit s ((u.admitStart sq slot d answers).followed sq)) := streamAdmit_starts hhead answers hop hnone hready
      _ = .next (commit s ((b.1.searchFrom 65 b.2 d).followed sq)) := by
        rw [admitStart_searches answers hobj hlead hnew hmid hphase hwindow hitk hend hparts hrecord, hbegin]
      _ = _ := by rw [searchFrom_of_fit d hfit]; rfl
  case arm =>
    intro args w i answers hop hinst hlow hargs hend hready hdigest hothers j v
    calc execTimetableArm sq answers s
      _ = .next (commit s ((u.armStart sq slot d answers).followed sq)) := timetableArm_starts hhead answers hop hready
      _ = _ := by rw [armStart_arms hinst hlow hargs hend hdigest hothers]; rfl
  case release =>
    intro i hop hinst hend
    calc execStreamRelease sq s
      _ = .next (commit s ((u.releaseStart sq slot d).followed sq)) := streamRelease_starts hhead hop
      _ = _ := by rw [releaseStart_found hinst hend, apply_ite (State.followed · sq)]

end Sys2Proof.Machine

/-! ## Entries, transfers and periods of armed instances (R160 to R162, R165, R167 to R175) -/

namespace Sys2Proof.Machine

@[simp] theorem forEach_singleton {σ α : Type} (x : α) (f : σ → α → σ) (s : σ) : forEach [x] f s = f s x := rfl

/-- A row of the instances of an id, in the compute domain, does its work on the only one. -/
theorem forInsts_only {s : State} {n : BitVec 10} {i : Instance} (hcompute : s.compute = true) (honly : s.instsOf n = [i])
    (f : State → Instance → State) : (if (!s.compute) = true then s else forEach (s.instsOf n) f s) = f s i := by
  rw [hcompute, honly, Bool.not_true, if_neg Bool.false_ne_true, forEach_singleton]

/-! ### Starts (R162, R165, R167, R168, R591) -/

/-- A transfer runs on its mover for a period. -/
def State.startTransfer (s : State) (i : Instance) (r j : Nat) (m : Transfer) : State :=
  (s.updMover m.mover fun v => { v with
    xfer := some { kind := .transfer, ctx := i.ctx, src := m.src, dst := m.dst, len := m.len, inst := i.id, recIdx := r, period := j }
    progress := s.now }).updInst i.id fun i => { i with active := i.active ++ [(r, j)] }

section
variable {s : State} {n : BitVec 10} {r j : Nat} {i : Instance} (hcompute : s.compute = true) (honly : s.instsOf n = [i])
include hcompute honly

section
variable (hdue : i.due r s.time.tick = some j)
include hdue

/-- An entry that is due starts where its argument words are held or can be read (R133, R591). -/
theorem cellEntryStart_due {e : CellEntry} (hentry : lfind i.object.entries r = some e)
    (hargs : (lfind i.argsHeld (r, j)).isSome = true ∨ s.memWaits (i.args + 64 * e.args) 64 = false) :
    execCellEntryStart n r s = .next (commit s (s.entryStart i r e j)) := by
  have hgoes : ((lfind i.argsHeld (r, j)).isNone && s.memWaits (i.args + 64 * e.args) 64) = false := by
    obtain hheld | hready := hargs
    · simp [Option.isNone_eq_false_iff.mpr hheld]
    · simp [hready]
  rw [execCellEntryStart, act_eq, forInsts_only hcompute honly]
  simp only [hdue, hentry, hgoes, Bool.false_eq_true, if_false]

/-- A transfer that is due starts on a mover that runs no other. -/
theorem transferStart_due {m : Transfer} (htransfer : lfind i.object.transfers r = some m) (hreset : (s.mover m.mover).inReset = false)
    (hidle : (s.mover m.mover).xfer = none) (hgood : s.transferBad i r m = none) :
    execTransferStart n r s = .next (commit s (s.startTransfer i r j m)) := by
  rw [execTransferStart, act_eq, forInsts_only hcompute honly]
  simp only [hdue, htransfer, hreset, hidle, hgood, Option.isSome_none, Bool.false_eq_true, if_false]
  rfl

end

/-! ### Ends and overruns (R168, R170 to R172) -/

/-- A transfer ends once its bytes have moved between memories out of reset, and its mover goes on. -/
theorem transferEnd_moved {m : Transfer} {c : MoverCmd} (htransfer : lfind i.object.transfers r = some m)
    (hxfer : (s.mover m.mover).xfer = some c) (hinst : c.inst = i.id) (hrec : c.recIdx = r) (hgoes : c.stopping = false)
    (hsrc : s.memWaits c.src c.len = false) (hdst : s.memWaits c.dst c.len = false) (hok : (s.copyLocal c).2.1 = stOk) :
    execTransferEnd n r s = .next (commit s
      (((s.copyLocal c).1.updMover m.mover fun v => { v with xfer := none, progress := s.now }).moversGoOn.recordEnds i.id r c.period)) := by
  rw [execTransferEnd, act_eq, forInsts_only hcompute honly]
  simp only [htransfer, hxfer, hinst, hrec, hgoes, hsrc, hdst, hok, Bool.not_false, and_self, if_true]

theorem entryFailed_overdue :
    execEntryFailed n r s = .next (commit s
      (forEach (i.overdue r s.time.tick) (fun s j => (s.failRecord i.id r j).settleInst 64 i.id) s)) := by
  rw [execEntryFailed, act_eq, forInsts_only hcompute honly]

/-! ### Arming, release and the end (R160, R161, R174, R224) -/

/-- What is arming is armed at the start of its first period, and its stream with it. -/
theorem instanceArmed_begins (harming : i.arming = true)
    (hphase : (i.phase + i.firstPeriod * i.object.period) * frameTicks ≤ s.time.tick + 2) :
    execInstanceArmed n s = .next (commit s
      (let u := s.updInst i.id fun i => { i with arming := false, state := .armed }
      { u with streams := u.streams.map fun x =>
          if x.inst = i.id then { x with steering := true, armed := true, lastPacket := s.now, period := i.firstPeriod } else x })) := by
  simp only [execInstanceArmed, act_eq, honly, forEach_singleton, harming, hcompute, hphase, and_self, if_true]

theorem leadSilenceRelease_due (hmember : i.isLead = false) (harmed : i.state = .armed) (hsilent : s.failLimit ≤ i.silent) :
    execLeadSilenceRelease n s = .next (commit s (s.release i.id false { status := stOverrun })) := by
  simp only [execLeadSilenceRelease, act_eq, honly, forEach_singleton, hmember, harmed, hsilent, hcompute, Bool.not_false, and_self, if_true]

end

/-- The resources of k return with the status of its end, and the STREAM_RELEASEs that wait for it complete. -/
def State.freeInst (s : State) (k : Instance) : State :=
  (forEach (s.jobs.filter fun j => match j.kind with
      | .release id => id = k.id
      | _ => false) (fun s j => s.finish j.sq j.slot { status := stOk })
    (s.dropInst k { status := k.endStatus.toNat, r0 := k.endR0, r1 := k.endR1, detail := k.endDetail })).ticketSignal

/-- What has nothing left to run once its periods are settled is free. -/
theorem instanceFree_quiet {s : State} {n : BitVec 10} {i k : Instance} (hcompute : s.compute = true) (honly : s.instsOf n = [i])
    (hsettled : (s.settleInst 64 i.id).inst i.id = some k) (hquiet : k.quietNow = true) :
    execInstanceFree n s = .next (commit s ((s.settleInst 64 i.id).freeInst k)) := by
  rw [execInstanceFree, act_eq, forInsts_only hcompute honly]
  simp only [hsettled, hquiet, if_true]
  rfl

/-! ### The deadline of a step record (R173) -/

/-- The reports that a deadline settles a period by: the lead's own, failed where its part is not over, those that came, and a failure for
each member that sent none. -/
def Instance.deadlineReports (i : Instance) (p tick : Nat) : List MemberReport :=
  let rs := i.reports.filter fun x => x.period = p
  let missing := (i.object.others.filter fun m => rs.all fun x => x.member.val ≠ m).map fun m =>
    ({ failed := true } : Kinds).report (Fin.ofNat 512 m) p
  let own := if i.periodOver p tick then i.ownReport p else { i.ownReport p with failed := true }
  own :: rs ++ missing

theorem stepRecordDeadline_due {s : State} {n : BitVec 10} {i : Instance} {p : Nat} (hcompute : s.compute = true)
    (hinst : s.inst n.toNat = some i) (hlead : i.isLead = true)
    (hstate : i.state = .armed ∨ (i.state = .releasing ∧ p < i.lastPeriod)) (hnext : p = i.recorded)
    (hdue : i.lastDeadline p + 49152 ≤ s.time.tick) (hpause : s.hst.paused = false) :
    execStepRecordDeadline n p s = .next (commit s ((s.settlePeriod i p (i.deadlineReports p s.time.tick)).settleInst 64 i.id)) := by
  have hpremise : i.isLead ∧ (i.state = .armed ∨ (i.state = .releasing ∧ p < i.lastPeriod)) ∧ p = i.recorded
      ∧ i.lastDeadline p + 49152 ≤ s.time.tick ∧ s.compute ∧ !s.hst.paused :=
    ⟨hlead, hstate, hnext, hdue, hcompute, by simp [hpause]⟩
  simp only [execStepRecordDeadline, act_eq, hinst, if_pos hpremise]
  rfl

/-- Settles O25: each event finds its premise at the only one of its id and takes its step. -/
theorem timetableEventsAct : Obligations.TimetableEventsAct := by
  unfold Obligations.TimetableEventsAct
  intro s n r i hcompute honly
  exact ⟨fun j e hdue hentry hargs => cellEntryStart_due hcompute honly hdue hentry hargs,
    fun j m hdue htransfer hreset hidle hgood => transferStart_due hcompute honly hdue htransfer hreset hidle hgood,
    fun m c htransfer hxfer hinst hrec hgoes hsrc hdst hok =>
      transferEnd_moved hcompute honly htransfer hxfer hinst hrec hgoes hsrc hdst hok,
    entryFailed_overdue hcompute honly,
    fun harming hphase => instanceArmed_begins hcompute honly harming hphase,
    fun k hsettled hquiet => instanceFree_quiet hcompute honly hsettled hquiet,
    fun hmember harmed hsilent => leadSilenceRelease_due hcompute honly hmember harmed hsilent,
    fun p hinst hlead hstate hnext hdue hpause => stepRecordDeadline_due hcompute hinst hlead hstate hnext hdue hpause⟩

end Sys2Proof.Machine

/-! ## The lead and the members of a set (R158, R160 to R163, R172 to R174) -/

namespace Sys2Proof.Machine

/-! ### Reservations (R158, R162, R163) -/

section
variable {s : State} {n : BitVec 10} {lead : Fin 512} {ctx : BitVec 6} {setId : BitVec 32} {phase : BitVec 48} {o : TtObject}
variable (hcompute : s.compute = true) (hobj : (s.tt.objects.find? fun o => o.ctx = ctx && o.setId = setId.toNat) = some o)
include hcompute hobj

/-- An object that fits is reserved for the lead, and the member answers so. -/
theorem memberReserve_fits (hfits : s.memberTest ctx o phase.toNat none = 0) (hnew : s.inst (memberId n lead) = none) :
    execMemberReserve ctx setId n phase lead s = .next (commit s
      (State.relay { s with tt := { s.tt with instances := s.tt.instances ++
        [{ id := memberId n lead, ctx := ctx, leader := lead.val, object := o, state := .reserved, phase := phase.toNat }] } }
          (.answer 0) (memberId n lead) o.member lead.val)) := by
  simp only [execMemberReserve, act_eq, hcompute, hobj, hfits, hnew, Option.isNone_none, Bool.not_true, Bool.false_eq_true, if_false,
    and_self, if_true]

/-- An object that does not fit is answered with the reason, and nothing is held. -/
theorem memberReserve_refused (hrefused : s.memberTest ctx o phase.toNat none ≠ 0) :
    execMemberReserve ctx setId n phase lead s = .next (commit s
      (s.relay (.answer (s.memberTest ctx o phase.toNat none)) (memberId n lead) o.member lead.val)) := by
  simp only [execMemberReserve, act_eq, hcompute, hobj, hrefused, Bool.not_true, Bool.false_eq_true, if_false, false_and]

end

theorem memberCommit_admits (s : State) (n : BitVec 10) (lead : Fin 512) :
    execMemberCommit n lead s = .next (commit s (State.ticketSignal (s.updInst (memberId n lead) fun i =>
      { i with state := if i.state = .reserved then .admitted else i.state }))) := by
  rw [execMemberCommit, act_eq]

theorem memberDrop_drops (s : State) (n : BitVec 10) (lead : Fin 512) :
    execMemberDrop n lead s = .next (commit s (s.dropReserved (memberId n lead))) := by
  rw [execMemberDrop, act_eq]

/-! ### Arming and release on a member (R158 to R161) -/

section
variable {s w : State} {n : BitVec 10} {i : Instance}

/-- A row of the members' instances of an id does its work on the only one, which another module leads. -/
theorem forMembers_only (honly : s.instsOf n = [i]) (hmember : i.isLead = false) (f : State → Instance → State) :
    forEach ((s.instsOf n).filter fun i => !i.isLead) f s = f s i := by
  simp [honly, hmember]

variable (hcompute : s.compute = true) (honly : s.instsOf n = [i]) (hmember : i.isLead = false)
include hcompute honly hmember

/-- A member whose object has its digest, and whose arguments it may read, arms at the lead's frame and answers so. -/
theorem armRelay_arms {phase arg : BitVec 48} {quiet : Bool} (hadmitted : i.state = .admitted) (hidle : i.arming = false)
    (hready : s.memWaits i.object.addr i.object.len = false) (hdigest : s.digestOk i.object = (w, .ok true))
    (hargs : w.argOk i.ctx arg.toNat 16384 64 = true) :
    let j := if i.object.period = 0 then 0 else (phase.toNat - i.phase) / i.object.period
    execArmRelay (.arm phase arg quiet) n s = .next (commit s
      ((w.updInst i.id fun i => { i with arming := true, firstPeriod := j, recorded := j, args := arg.toNat, quiet := quiet,
                                         silent := 0 }).relay (.armAnswer .ok) i.id i.object.member i.leader)) := by
  rw [execArmRelay, act_eq, forMembers_only honly hmember]
  simp only [hcompute, hadmitted, hidle, hready, hdigest, hargs, ne_eq, not_true_eq_false, Bool.not_true, Bool.false_eq_true, or_self,
    if_false, if_true]

theorem armRelay_releases (now : Bool) :
    execArmRelay (.release now) n s = .next (commit s
      ((s.updInst i.id fun i => { i with silent := 0 }).release i.id now { status := stOk })) := by
  rw [execArmRelay, act_eq, forMembers_only honly hmember]
  simp only [hcompute, Bool.not_true, Bool.false_eq_true, if_false]

end

/-! ### Reports and answers at the lead (R163, R172 to R174) -/

/-- A report of a period that the lead has not recorded is kept, with the fault that it tells, and the periods are settled. -/
theorem memberStatus_taken {s : State} {n : BitVec 10} {r : MemberReport} {i : Instance} (hcompute : s.compute = true)
    (hinst : s.inst n.toNat = some i) (hlead : i.isLead = true) (hopen : i.recorded ≤ r.period)
    (hother : i.object.others.contains r.member.val = true)
    (hfirst : (i.reports.any fun x => x.member = r.member && x.period = r.period) = false) :
    execMemberStatus n r s = .next (commit s
      (((s.updInst n.toNat fun i => { i with reports := i.reports ++ [r] }).memberFault n.toNat r.fault).settleInst 64 n.toNat)) := by
  simp only [execMemberStatus, act_eq, hinst, hcompute, hlead, hopen, hother, hfirst, Bool.not_false, and_self, if_true]

/-- A member that has not answered in its time counts as refusing with MEMBER, and the search goes on. -/
theorem memberAnswerTimeout_due {s : State} {n : BitVec 10} {m : Fin 512} {q : Search} (hsearch : s.tt.search = some q)
    (hid : q.inst = n.toNat) (hdue : q.asked + msTicks 10 ≤ s.now)
    (hnone : (q.answers.any fun a => a.member = m && a.phase = q.phase) = false) (hother : q.object.others.contains m.val = true)
    (hjob : (s.job q.sq q.slot).isSome = true) :
    execMemberAnswerTimeout n m s = .next (commit s (s.searchFrom 65
      { q with answers := q.answers ++ [{ member := m, phase := BitVec.ofNat 48 q.phase, reason := 0x0B }] } (s.jobDesc q.sq q.slot))) := by
  have hpast : ¬s.now < q.asked + msTicks 10 := Nat.not_lt.mpr hdue
  have hheld : (s.job q.sq q.slot).isNone = false := Option.isNone_eq_false_iff.mpr hjob
  simp only [execMemberAnswerTimeout, act_eq, hsearch, hid, hpast, hnone, hother, hheld, ne_eq, not_true_eq_false, Bool.not_true,
    Bool.false_eq_true, or_self, if_false]

/-- Settles O26: each message finds its premise at what it names, and has its effect. -/
theorem memberExchangesAct : Obligations.MemberExchangesAct := by
  unfold Obligations.MemberExchangesAct
  intro s n lead hcompute id
  exact ⟨fun ctx setId phase o hobj hfits hnew => memberReserve_fits hcompute hobj hfits hnew,
    fun ctx setId phase o hobj hrefused => memberReserve_refused hcompute hobj hrefused,
    fun _ _ _ => memberCommit_admits s n lead,
    memberDrop_drops s n lead,
    fun i w phase arg quiet honly hmember hadmitted hidle hready hdigest hargs =>
      armRelay_arms hcompute honly hmember hadmitted hidle hready hdigest hargs,
    fun i now honly hmember => armRelay_releases hcompute honly hmember now,
    fun r i hinst hlead hopen hother hfirst => memberStatus_taken hcompute hinst hlead hopen hother hfirst,
    fun q m hsearch hid hdue hnone hother hjob => memberAnswerTimeout_due hsearch hid hdue hnone hother hjob⟩

end Sys2Proof.Machine

/-! ## Fields that are zero -/

namespace Sys2Proof

/-- A field is zero where each of its bits is. -/
theorem fieldNat_eq_zero_iff {w : Nat} {x : BitVec w} {hi lo : Nat} :
    fieldNat x hi lo = 0 ↔ ∀ i, lo ≤ i → i ≤ hi → bitAt x i = false := by
  unfold fieldNat bitAt
  constructor
  · intro h i hlo hhi
    have hbit : (x.toNat / 2 ^ lo % 2 ^ (hi + 1 - lo)).testBit (i - lo) = false := by simp [h]
    have hin : i - lo < hi + 1 - lo := by omega
    simpa [Nat.testBit_mod_two_pow, Nat.testBit_div_two_pow, hin, Nat.sub_add_cancel hlo] using hbit
  · intro h
    apply Nat.zero_of_testBit_eq_false
    intro j
    by_cases hin : j < hi + 1 - lo
    · simpa [Nat.testBit_mod_two_pow, Nat.testBit_div_two_pow, hin] using h (j + lo) (by omega) (by omega)
    · simp [Nat.testBit_mod_two_pow, hin]

/-- A field inside a field that is zero is zero. -/
theorem fieldNat_eq_zero_of_inside {w : Nat} {x : BitVec w} {hi lo a b : Nat} (h : fieldNat x hi lo = 0) (hlo : lo ≤ a) (hhi : b ≤ hi) :
    fieldNat x b a = 0 :=
  fieldNat_eq_zero_iff.mpr fun i ha hb => fieldNat_eq_zero_iff.mp h i (hlo.trans ha) (hb.trans hhi)

end Sys2Proof

/-! ## FERRY_PLACE and FERRY_OPEN (R188 to R194) -/

namespace Sys2Proof.Machine

/-! ### The descriptors start (R252) -/

section
variable {s : State} {sq : Fin 256} {slot : Nat} {d : Line} {rest : List Fetched} (hhead : s.headStarts sq slot d rest)
include hhead

/-- A write starts once the channels that it reads are out of reset (R133). -/
theorem ferryPlaceWrite_starts (hop : fieldNat d 7 0 = 0x0E) (haction : fryAction d = 0)
    (hready : s.memWaits (fieldNat d 223 176) (32 * fieldNat d 174 160) = false) :
    execFerryPlaceWrite sq s = .next (commit s (((s.taken sq rest).placeWrite sq slot d).followed sq)) := by
  rw [execFerryPlaceWrite, act_eq, startRow_of_headStarts hhead hop (by simp [haction, hready])]

theorem ferryPlaceSwap_starts (hop : fieldNat d 7 0 = 0x0E) (haction : fryAction d = 1) :
    execFerryPlaceSwap sq s = .next (commit s (((s.taken sq rest).placeSwap sq slot d).followed sq)) := by
  rw [execFerryPlaceSwap, act_eq, startRow_of_headStarts hhead hop (by simp [haction])]

theorem ferryOpenOpen_starts (hop : fieldNat d 7 0 = 0x0F) (haction : fryAction d = 0) :
    execFerryOpenOpen sq s = .next (commit s (((s.taken sq rest).ferryOpen sq slot d).followed sq)) := by
  rw [execFerryOpenOpen, act_eq, startRow_of_headStarts hhead hop (by simp [haction])]

/-- A close with no field but its action closes the session of its context (R190). -/
theorem ferryOpenClose_closes (hop : fieldNat d 7 0 = 0x0F) (haction : fryAction d = 1) (hzero : fieldNat d 511 130 = 0) :
    let u := s.taken sq rest
    let r := u.closeSession (u.sq sq).ctx
    execFerryOpenClose sq s = .next (commit s ((r.1.complete sq slot d
      (if r.2 = 0 then { status := stOk } else { status := stPartial, r0 := r.2 })).followed sq)) := by
  have hfield {hi lo : Nat} (hlo : 130 ≤ lo) (hhi : hi ≤ 511) : fieldNat d hi lo = 0 := fieldNat_eq_zero_of_inside hzero hlo hhi
  have hbit : bitAt d 175 = false := fieldNat_eq_zero_iff.mp hzero 175 (by omega) (by omega)
  rw [execFerryOpenClose, act_eq, startRow_of_headStarts hhead hop (by simp [haction])]
  simp (disch := omega) only [hfield, hbit, ne_eq, not_true_eq_false, decide_false, lowestBad_cons_false, lowestBad_nil]

end

/-! ### FERRY_PLACE (R192 to R194) -/

/-- An entry may be placed for a context: it is well formed, and its home lies in the context's slice if it is valid (R193). -/
def State.MayPlace (s : State) (ctx : BitVec 6) (e : Placement) : Prop :=
  plBad e = false ∧ (plValid e = true → s.inSliceOf ctx.toNat (plHome e) = true)

/-- The entries in the bytes that a write reads (R193). -/
def placementsIn (bs : List Byte) : List Placement := (chunks 32 bs).map fun b => BitVec.ofNat 256 (leNat b)

/-- The range that a write reads lies aligned in LPDDR6, in pages that the context may read (R193). -/
structure State.EntryRange (s : State) (ctx : BitVec 6) (a len : Nat) : Prop where
  aligned : a % 64 = 0
  region : regionOf a = .lpddr
  inside : a + len ≤ s.capacity
  pages : s.pageFail ctx false false a len = none

/-- The fields that both actions of FERRY_PLACE keep at 0 (R192). -/
def placeReserved (d : Line) : Prop :=
  fieldNat d 143 130 = 0 ∧ fieldNat d 159 158 = 0 ∧ bitAt d 175 = false ∧ fieldNat d 511 240 = 0

section
variable {u w : State} {sq : Fin 256} {slot : Nat} {d : Line} {x : Session} {bs : List Byte}

theorem placeEntries_written (hmay : ∀ e ∈ placementsIn bs, w.MayPlace x.ctx e) :
    w.placeEntries sq slot d x bs
      = (w.putPlacements (!x.active) (x.pbase + fieldNat d 157 144) (placementsIn bs)).complete sq slot d { status := stOk } := by
  have hgood : ((placementsIn bs).any fun e => plBad e || (plValid e && !w.inSliceOf x.ctx.toNat (plHome e))) = false := by
    simpa [State.MayPlace] using hmay
  unfold placementsIn at hgood
  simp only [State.placeEntries, hgood, Bool.false_eq_true, if_false]
  rfl

/-- A write with good fields, while its session takes on no swap, goes on to its entries. -/
theorem placeWrite_read (haction : fryAction d = 0) (hsession : u.session (u.sq sq).ctx = some x) (hidle : x.swapStep = none)
    (hfit : fieldNat d 157 144 + fieldNat d 174 160 ≤ x.pcount) (hzero : placeReserved d) (hsome : fieldNat d 174 160 ≠ 0)
    (hmax : fieldNat d 174 160 ≤ 16384) (hstep : fieldNat d 239 224 = 0)
    (hrange : u.EntryRange (u.sq sq).ctx (fieldNat d 223 176) (32 * fieldNat d 174 160))
    (hread : u.moduleRead (u.sq sq).ctx (fieldNat d 223 176) (32 * fieldNat d 174 160) = (w, .ok bs)) :
    u.placeWrite sq slot d = w.placeEntries sq slot d x bs := by
  obtain ⟨hlow, hmid, hbit, hend⟩ := hzero
  obtain ⟨haligned, hregion, hinside, hpages⟩ := hrange
  simp [State.placeWrite, haction, hsession, hidle, Nat.not_lt.mpr hfit, hlow, hmid, hbit, hend, hsome, Nat.not_lt.mpr hmax, hstep,
    haligned, hregion, Nat.not_lt.mpr hinside, hpages, hread]

/-- A swap with good fields, to a step later than the last, is taken on; it completes at once where no ticket holds the old bank (R194). -/
theorem placeSwap_taken (hsession : u.session (u.sq sq).ctx = some x) (hidle : x.swapStep = none)
    (hlater : ∀ l, x.lastStep = some l → later (fieldNat d 239 224) l = true) (hzero : placeReserved d) (hfirst : fieldNat d 157 144 = 0)
    (hcount : fieldNat d 174 160 = 0) (hsrc : fieldNat d 223 176 = 0) :
    u.placeSwap sq slot d
      = ((u.startJob sq slot d .swap).updSession (u.sq sq).ctx fun x =>
          { x with swapStep := some (fieldNat d 239 224), swapJob := (sq, slot) }).settleSwap (u.sq sq).ctx := by
  obtain ⟨hlow, hmid, hbit, hend⟩ := hzero
  cases hlast : x.lastStep with
  | none => simp [State.placeSwap, hsession, hidle, hlast, hlow, hmid, hbit, hend, hfirst, hcount, hsrc]
  | some l => simp [State.placeSwap, hsession, hidle, hlast, hlater l hlast, hlow, hmid, hbit, hend, hfirst, hcount, hsrc]

end

/-! ### FERRY_OPEN (R188 to R190) -/

/-- The fields that an open keeps at 0 (R188). -/
def openReserved (d : Line) : Prop :=
  fieldNat d 143 130 = 0 ∧ fieldNat d 159 158 = 0 ∧ bitAt d 175 = false ∧ fieldNat d 191 185 = 0 ∧ fieldNat d 223 202 = 0
    ∧ fieldNat d 255 244 = 0 ∧ fieldNat d 319 304 = 0 ∧ fieldNat d 511 352 = 0

/-- A run of entries is in range and free of every session's (R188). -/
structure State.EntriesFree (s : State) (first count : Nat) : Prop where
  apart : ∀ x ∈ s.fry.sessions, ¬(first < x.pbase + x.pcount ∧ x.pbase < first + count)
  inside : first + count ≤ 16384
  nonempty : 0 < count

/-- A park region, which may be empty, lies aligned in LPDDR6, in pages that the context may write (R190, R211). -/
structure State.ParkRegion (s : State) (ctx : BitVec 6) (base len : Nat) : Prop where
  aligned : base % 64 = 0
  inside : len ≠ 0 → regionOf base = .lpddr ∧ base + len ≤ s.capacity
  whole : len % 64 = 0
  pages : s.pageFail ctx true false base len = none

/-- The session that an open asks for (R189). -/
def openedSession (ctx : BitVec 6) (d : Line) : Session :=
  { ctx := ctx, pbase := fieldNat d 157 144, pcount := fieldNat d 174 160, srcIndex := fieldNat d 184 176, nSrc := fieldNat d 201 192,
    openMax := fieldNat d 243 224, parkBase := fieldNat d 303 256, parkBytes := fieldNat d 351 320 }

theorem ferryOpen_opened {u : State} {sq : Fin 256} {slot : Nat} {d : Line} (haction : fryAction d = 0)
    (hnone : u.session (u.sq sq).ctx = none) (hfree : u.EntriesFree (fieldNat d 157 144) (fieldNat d 174 160)) (hzero : openReserved d)
    (hindex : fieldNat d 184 176 < fieldNat d 201 192) (hsources : fieldNat d 201 192 ≤ 512)
    (hpark : u.ParkRegion (u.sq sq).ctx (fieldNat d 303 256) (fieldNat d 351 320)) :
    u.ferryOpen sq slot d
      = State.complete { u with fry := { u.fry with sessions := u.fry.sessions ++ [openedSession (u.sq sq).ctx d] } } sq slot d
          { status := stOk } := by
  obtain ⟨hlow, hmid, hbit, hindexEnd, hsourcesEnd, hmaxEnd, hbaseEnd, hend⟩ := hzero
  obtain ⟨hapart, hinside, hsome⟩ := hfree
  obtain ⟨haligned, hpartIn, hwhole, hpages⟩ := hpark
  have hclash : (u.fry.sessions.any fun x =>
      fieldNat d 157 144 < x.pbase + x.pcount && x.pbase < fieldNat d 157 144 + fieldNat d 174 160) = false := by
    simpa using hapart
  have hregion : (fieldNat d 351 320 ≠ 0 && (regionOf (fieldNat d 303 256) ≠ .lpddr
      || u.capacity < fieldNat d 303 256 + fieldNat d 351 320)) = false := by
    simpa using hpartIn
  have hcount : ¬16384 < fieldNat d 174 160 := by omega
  have hsource : fieldNat d 201 192 ≠ 0 := by omega
  simp only [State.ferryOpen, haction, hnone, hlow, hmid, hbit, hindexEnd, hsourcesEnd, hmaxEnd, hbaseEnd, hend, hclash, hregion, hcount,
    hsource, haligned, hwhole, hpages, hsome.ne', Nat.not_lt.mpr hinside, Nat.not_le.mpr hindex, Nat.not_lt.mpr hsources,
    Nat.not_le.mpr Nat.two_pos, Option.isSome_none, ne_eq, not_true_eq_false, decide_false, Bool.or_self, lowestBad_cons_false, lowestBad_nil]
  rfl

/-- Settles O5: each descriptor passes the checks of its fields, and an open or a write those of the session, and has its effect. -/
theorem ferryDescriptorsRun : Obligations.FerryDescriptorsRun := by
  unfold Obligations.FerryDescriptorsRun
  intro s sq slot d rest hhead u c
  refine ⟨?write, ?swap, ?opening, ?closing⟩
  case write =>
    intro x w bs hop haction hsession hidle hfit hlow hmid hsome hmax hbit haligned hregion hinside hstep hend hpages hready hread hgood
    have hmay : ∀ e ∈ placementsIn bs, w.MayPlace x.ctx e := List.forall_mem_map.mpr hgood
    calc execFerryPlaceWrite sq s
      _ = .next (commit s ((u.placeWrite sq slot d).followed sq)) := ferryPlaceWrite_starts hhead hop haction hready
      _ = .next (commit s ((w.placeEntries sq slot d x bs).followed sq)) := by
        rw [placeWrite_read haction hsession hidle hfit ⟨hlow, hmid, hbit, hend⟩ hsome hmax hstep
          ⟨haligned, hregion, hinside, hpages⟩ hread]
      _ = _ := by rw [placeEntries_written hmay]; rfl
  case swap =>
    intro x hop haction hsession hidle hlater hlow hfirst hmid hcount hbit hsrc hend
    calc execFerryPlaceSwap sq s
      _ = .next (commit s ((u.placeSwap sq slot d).followed sq)) := ferryPlaceSwap_starts hhead hop haction
      _ = _ := by rw [placeSwap_taken hsession hidle hlater ⟨hlow, hmid, hbit, hend⟩ hfirst hcount hsrc]
  case opening =>
    intro pb pc base len hop haction hnone hapart hinside hsome hlow hmid hbit hindex hindexEnd hsources hsourcesEnd hmaxEnd haligned
      hpartIn hbaseEnd hwhole hend hpages
    calc execFerryOpenOpen sq s
      _ = .next (commit s ((u.ferryOpen sq slot d).followed sq)) := ferryOpenOpen_starts hhead hop haction
      _ = _ := by
        rw [ferryOpen_opened haction hnone ⟨hapart, hinside, hsome⟩
          ⟨hlow, hmid, hbit, hindexEnd, hsourcesEnd, hmaxEnd, hbaseEnd, hend⟩ hindex hsources ⟨haligned, hpartIn, hwhole, hpages⟩]
        rfl
  case closing => exact fun hop haction hzero => ferryOpenClose_closes hhead hop haction hzero

end Sys2Proof.Machine

/-! ## Dispatch records (R195 to R202, R211) -/

namespace Sys2Proof.Machine

/-! ### Records of each kind (R195, R196)

The Ferry serves the record at the front of a cell's queue by its kind and writes back the status that it ends with. -/

section
variable {s : State} {c : Fin 128} {e : MvEntry} {r : Line} (hrecord : s.record c = some (e, r))
include hrecord

theorem ferryTokenRecord_served (hclose : rcKind r ≠ 2) (hresult : rcKind r ≠ 3) :
    execFerryTokenRecord c s = .next (commit s ((s.token c e r).1.recordDone c e (s.token c e r).2)) := by
  simp only [execFerryTokenRecord, act_eq, hrecord, hclose, hresult, or_self, if_false]

theorem ferryCloseRecord_served (hkind : rcKind r = 2) :
    execFerryCloseRecord c s = .next (commit s ((s.closeRecord c e r).1.recordDone c e (s.closeRecord c e r).2)) := by
  simp only [execFerryCloseRecord, act_eq, hrecord, hkind, ne_eq, not_true_eq_false, if_false]

theorem ferryResultRecord_served (hkind : rcKind r = 3) :
    execFerryResultRecord c s = .next (commit s ((s.resultRecord c e r).1.recordDone c e (s.resultRecord c e r).2)) := by
  simp only [execFerryResultRecord, act_eq, hrecord, hkind, ne_eq, not_true_eq_false, if_false]

end

/-! ### Token records (R197, R198, R211) -/

/-- The entry to which a record of a session resolves (R194). -/
def State.recordEntry (s : State) (x : Session) (r : Line) : Placement := s.placement (x.bank (rcStep r)) (x.pbase + rcExpert r)

/-- The last step noted for the record's entry, as noteStep keeps it. -/
def State.notedStep (s : State) (x : Session) (r : Line) : Nat × Nat := sget (0, 0) s.fry.lastStep (x.pbase + rcExpert r)

/-- The slots of the entry's step buffer that the record's step has used. -/
def State.slotsUsed (s : State) (x : Session) (r : Line) : Nat :=
  if (s.notedStep x r).1 = rcStep r + 1 then (s.notedStep x r).2 else 0

/-- A token record that passes the checks before its slot: its fields, its session, a valid entry with room for its bytes at a home in the
slice, a flow, and a step not before the last (R196, R197). -/
structure State.TokenGood (s : State) (x : Session) (c : Nat) (q : MvEntry) (r : Line) : Prop where
  fields : tokenBad r = false
  serving : s.serving q.ctx = some x
  expert : rcExpert r < x.pcount
  valid : plValid (s.recordEntry x r) = true
  fits : 64 + rcLen r ≤ plSlot (s.recordEntry x r)
  inSlice : s.inSliceOf q.ctx.toNat (plHome (s.recordEntry x r)) = true
  flow : s.noFlow c q r = false
  inStep : ¬((s.notedStep x r).1 ≠ 0 ∧ later ((s.notedStep x r).1 - 1) (rcStep r) = true)

section
variable {s : State} {x : Session} {c : Nat} {q : MvEntry} {r : Line} {k : Nat} (hgood : s.TokenGood x c q r)
include hgood

/-- A token takes the next slot of its expert, with the lowest free ticket (R197, log 97). -/
theorem token_sent {cls : TicketClass} {inst : Nat} (hcls : cls = if rcTt r then .timetabled else .open_)
    (hinst : inst = if rcTt r then ((s.flowOwner q.ctx c (rcFlow r)).map (·.id)).getD 0 else 0)
    (hroom : s.slotsUsed x r < plQ (s.recordEntry x r)) (htake : s.canTake x cls inst = true) (hfree : s.freeTicket = some k) :
    s.token c q r =
      (((s.noteStep x (x.pbase + rcExpert r) (rcStep r) (s.slotsUsed x r + 1)).sendSlot x c (s.recordEntry x r) r k
          (s.newTicket x c (s.recordEntry x r) r cls inst k)
          (x.srcIndex * plQ (s.recordEntry x r) + s.slotsUsed x r)).ticketSignal, if rcTt r then 0x01 else 0x03) := by
  subst hcls hinst
  obtain ⟨hfields, hserving, hexpert, hvalid, hfits, hslice, hflow, hstep⟩ := hgood
  unfold State.slotsUsed at hroom
  unfold State.recordEntry at hvalid hfits hslice hroom
  unfold State.notedStep at hroom hstep
  simp only [State.token, hfields, hserving, Nat.not_le.mpr hexpert, hvalid, Nat.not_lt.mpr hfits, hslice, hflow, hstep, hroom, htake, hfree,
    Bool.not_true, Bool.false_eq_true, or_self, if_false, if_true]
  rfl

/-- A token whose expert's slots are used up is parked with an overflow ticket, where the entry allows it (R211). -/
theorem token_parked {w : State} (hused : plQ (s.recordEntry x r) ≤ s.slotsUsed x r) (hovf : plOvf (s.recordEntry x r) = true)
    (htake : s.canTake x .overflow 0 = true) (hfree : s.freeTicket = some k)
    (hpark : (let t : Ticket := { s.newTicket x c (s.recordEntry x r) r .overflow 0 k with due := s.time.tick + s.ovfTicks }
      s.parkToken x k t (leBytes 64 (s.slotHeader k t (fieldNat r 223 192) (fieldNat r 255 224)).toNat ++ s.cellGet c (rcData r) (rcLen r)))
        = some w) :
    s.token c q r = ((w.noteStep x (x.pbase + rcExpert r) (rcStep r) (s.slotsUsed x r)).ticketSignal, 0x02) := by
  obtain ⟨hfields, hserving, hexpert, hvalid, hfits, hslice, hflow, hstep⟩ := hgood
  have hfull : ¬s.slotsUsed x r < plQ (s.recordEntry x r) := Nat.not_lt.mpr hused
  unfold State.slotsUsed at hfull
  unfold State.recordEntry at hvalid hfits hslice hfull hovf hpark
  unfold State.notedStep at hfull hstep
  simp only [State.token, hfields, hserving, Nat.not_le.mpr hexpert, hvalid, Nat.not_lt.mpr hfits, hslice, hflow, hstep, hfull, hovf, htake,
    hfree, hpark, Bool.not_true, Bool.false_eq_true, or_self, if_false]
  rfl

end

/-! ### Close and result records (R201, R202) -/

/-- The valid entries that a close record names (R201). -/
def State.closedEntries (s : State) (x : Session) (r : Line) : List Placement :=
  ((List.range (rcCount r)).map fun i => s.placement (x.bank (rcStep r)) (x.pbase + rcExpert r + i)).filter plValid

/-- The step's close in the counts of an entry's home (R201). -/
def State.sendClose (s : State) (x : Session) (r : Line) (p : Placement) : State :=
  s.send { cls := if rcTt r then clsTt else clsOpen, dstEp := plCell p, dst := plHome p, ordered := true,
           raddr := cellAddr (plCell p) (plBuf p + 4 * x.srcIndex), srcEp := 160, gen := s.fry.gen.toNat, ctx := x.ctx,
           keySlot := s.ctxSlot x.ctx.toNat, flow := rcFlow r, rsync := plSync p, rsyncEn := true, payload := leBytes 4 (rcStep r) }
    false none

/-- The slot header that a result record names (R199, R202). -/
def State.resultHeader (s : State) (c : Nat) (r : Line) : Line := BitVec.ofNat 512 (s.cellNat c (rcAux r) 64)

/-- The module that a slot header came from (R199). -/
def headerOrigin (h : Line) : Nat := fieldNat h 38 36 * 64 + fieldNat h 41 39 * 8 + fieldNat h 44 42

/-- A result goes to the origin of its token in chunks of 4 KiB (R202, R208). -/
def State.sendResult (s : State) (x : Session) (c : Nat) (r h : Line) : State :=
  forEach ((chunks 4096 (s.cellGet c (rcData r) (rcLen r))).zipIdx) (fun s p =>
    s.send { cls := if rcTt r then clsTt else clsOpen, dstEp := 160, dst := headerOrigin h, reply := true,
             raddr := fieldNat h 27 0 + p.2 * 2 ^ 28 + 2 ^ 32, srcEp := 160, gen := fieldNat h 35 28, ctx := x.ctx,
             keySlot := s.ctxSlot x.ctx.toNat, flow := rcFlow r, payload := p.1 } false none) s

section
variable {s : State} {x : Session} {c : Nat} {q : MvEntry} {r : Line} (hserving : s.serving q.ctx = some x) (hflow : s.noFlow c q r = false)
include hserving hflow

theorem closeRecord_sent (hgood : closeBad r = false) (hfit : rcExpert r + rcCount r ≤ x.pcount)
    (hslice : ((s.closedEntries x r).all fun p => s.inSliceOf q.ctx.toNat (plHome p)) = true) :
    s.closeRecord c q r = (forEach (s.closedEntries x r) (fun s p => s.sendClose x r p) s, 0x05) := by
  have hinside : ((s.closedEntries x r).any fun p => !s.inSliceOf q.ctx.toNat (plHome p)) = false := by
    simpa using hslice
  unfold State.closedEntries at hinside
  simp only [State.closeRecord, hgood, hserving, Nat.not_lt.mpr hfit, hinside, hflow, Bool.false_eq_true, if_false]
  rfl

theorem resultRecord_sent (hgood : resultBad r = false) (hmark : bitAt (s.resultHeader c r) 46 = true)
    (hlen : rcLen r = fieldNat (s.resultHeader c r) 176 160)
    (hslice : s.inSliceOf q.ctx.toNat (headerOrigin (s.resultHeader c r)) = true) :
    s.resultRecord c q r =
      (if rcSyncEn r then (s.sendResult x c r (s.resultHeader c r)).syncAddIf (rcSync r) q.ctx 1
        else s.sendResult x c r (s.resultHeader c r), 0x05) := by
  unfold headerOrigin at hslice
  unfold State.resultHeader at hmark hlen hslice
  simp only [State.resultRecord, hgood, hserving, hmark, ← hlen, hslice, hflow, ne_eq, not_true_eq_false, Bool.not_true, Bool.false_eq_true,
    or_self, if_false]
  rfl

end

/-- Settles O27: a record that passes the checks of its kind has its effect, and its status is written back. -/
theorem ferryRecordsServed : Obligations.FerryRecordsServed := by
  unfold Obligations.FerryRecordsServed
  intro s c e r x hrecord hserving hflow p last count cls inst served
  refine ⟨?sent, ?parked, ?closed, ?result⟩
  case sent =>
    intro k hclose hresult hfields hexpert hvalid hfits hslice hstep hroom htake hfree
    calc execFerryTokenRecord c s
      _ = served (s.token c e r).1 (s.token c e r).2 := ferryTokenRecord_served hrecord hclose hresult
      _ = _ := by rw [token_sent ⟨hfields, hserving, hexpert, hvalid, hfits, hslice, hflow, hstep⟩ rfl rfl hroom htake hfree]; rfl
  case parked =>
    intro k w hclose hresult hfields hexpert hvalid hfits hslice hstep hused hovf htake hfree hpark
    calc execFerryTokenRecord c s
      _ = served (s.token c e r).1 (s.token c e r).2 := ferryTokenRecord_served hrecord hclose hresult
      _ = _ := by rw [token_parked ⟨hfields, hserving, hexpert, hvalid, hfits, hslice, hflow, hstep⟩ hused hovf htake hfree hpark]; rfl
  case closed =>
    intro es hkind hgood hfit hslice
    calc execFerryCloseRecord c s
      _ = served (s.closeRecord c e r).1 (s.closeRecord c e r).2 := ferryCloseRecord_served hrecord hkind
      _ = _ := by rw [closeRecord_sent hserving hflow hgood hfit hslice]; rfl
  case result =>
    intro h dst u hkind hgood hmark hlen hslice
    calc execFerryResultRecord c s
      _ = served (s.resultRecord c e r).1 (s.resultRecord c e r).2 := ferryResultRecord_served hrecord hkind
      _ = _ := by rw [resultRecord_sent hserving hflow hgood hmark hlen hslice]; rfl

end Sys2Proof.Machine

/-! ## Packets for the Ferry, its timers and its overflow rings (R203 to R218) -/

namespace Sys2Proof.Machine

/-! ### The outcome of a command whose effect is known -/

theorem act_of_effect {f : State → State} {s t : State} (h : f s = t) : act f s = .next (commit s t) := by
  rw [act_eq, h]

theorem actIf_of_effect {ok : Bool} (hok : ok = true) {f : State → State} {s t : State} (h : f s = t) :
    actIf ok f s = .next (commit s t) := by
  rw [actIf_eq hok, h]

/-! ### Results (R208, R209) -/

/-- A chunk in its place at the origin, or added into the records there (R208). -/
def State.combineChunk (s : State) (t : Ticket) (i : Nat) (payload : List Byte) : State :=
  if t.cmode then s.cellPut t.originCell (t.aux + t.k * t.rlen + 4096 * i) payload
  else s.addRecords (cellAddr t.originCell (t.aux + 4096 * i)) payload

/-- The ticket once chunk i is combined. -/
def Ticket.received (t : Ticket) (i : Nat) : Ticket := { t with state := .combining, rmask := t.rmask ||| BitVec.ofNat 16 (2 ^ i) }

/-- The Ferry has made progress now (R450). -/
def State.fryProgress (s : State) : State := { s with fry := { s.fry with progress := s.now } }

/-! ### Overflow tokens at their home (R199, R212) -/

/-- The slot header at the front of a packet's payload (R199). -/
def payloadHeader (payload : List Byte) : Line := BitVec.ofNat 512 (leNat (payload.take 64))

/-- The ring of an entry stands under that entry. -/
theorem ring_place (s : State) (ctx : BitVec 6) (i : Nat) (e : Placement) : (s.ring ctx i e).place = e := by
  unfold State.ring
  split <;> rfl

theorem ring_slotAt (s : State) (ctx : BitVec 6) (i : Nat) (e : Placement) (j : Nat) :
    (s.ring ctx i e).slotAt j = plRing e + j * plSlot e := by
  rw [OvfRing.slotAt, ring_place]

/-- A ring of so many slots with a token of n bytes in the slot at its head. -/
def OvfRing.push (r : OvfRing) (slots n now : Nat) : OvfRing :=
  { r with head := (r.head + 1) % slots, taken := r.taken ++ [r.head], waiting := r.waiting ++ [(r.head, n)], lastArrival := now }

/-- The slot at a, at the head of the ring of entry e, takes n bytes of the context: it is free, long enough, within the capacity, out of
channels in reset and in pages that the context may write (R129, R133, R212). -/
structure State.HeadTakes (s : State) (ctx : BitVec 6) (e : Placement) (r : OvfRing) (a n : Nat) : Prop where
  head : r.head < plSlots e
  free : r.taken.contains r.head = false
  fits : n ≤ plSlot e
  ready : s.memWaits a n = false
  pages : s.pageFail ctx true false a n = none
  inside : a + n ≤ s.capacity

/-! ### Refusals at the origin (R209, R212, R218) -/

/-- A refusal that reaches its ticket (R209, R212): an overflow ticket on its way, of this generation, under its context's key. -/
structure State.RefusalFresh (s : State) (hdr : Line) (t : Ticket) : Prop where
  gen : hGen hdr = s.fry.gen.toNat
  sent : t.state = .sent
  overflow : t.cls = .overflow
  ticketGen : t.tgen.toNat = raTgen hdr
  keySlot : hKeySlot hdr = s.ctxSlot t.ctx.toNat
  keyGen : hKeyGen hdr = s.slotGen (s.ctxSlot t.ctx.toNat)

/-- A refusal is counted. -/
def State.countRefusal (s : State) : State := { s with cnt := { s.cnt with fryRefused := satAdd 16 s.cnt.fryRefused 1 } }

/-- The ticket under the result of a new resolution in the session's active bank, to be tried again after retry_frames (R212, R218). -/
def State.retryTicket (s : State) (x : Session) (t : Ticket) : Ticket :=
  let e := s.placement x.active (x.pbase + t.expert)
  { t with bank := x.active, home := if plValid e then plHome e else t.home, homeCell := if plValid e then plCell e else t.homeCell,
           retryAt := s.time.tick + frameTicks * max 1 (s.fld 0x500030 0 4) }

/-- The token's bytes with the bank of the new resolution in their slot header (R199, R212). -/
def retryBytes (x : Session) (payload : List Byte) : List Byte :=
  leBytes 64 (putField (payloadHeader payload) 45 1 x.active.toNat).toNat ++ payload.drop 64

/-- A refused token is parked again under its ticket, which is lost where its context has no session; without room it
stays as it was until its timeout (R212, log 37). -/
def State.parkAgain (s : State) (k : Nat) (t : Ticket) (payload : List Byte) : State :=
  match s.session t.ctx with
  | none => s.loseTicket k
  | some x =>
    match s.parkToken x k (s.retryTicket x t) (retryBytes x payload) with
    | some w => w.settleSwap t.ctx
    | none => s

theorem parkAgain_room {s w : State} {k : Nat} {t : Ticket} {x : Session} {payload : List Byte} (hsession : s.session t.ctx = some x)
    (hpark : s.parkToken x k (s.retryTicket x t) (retryBytes x payload) = some w) : s.parkAgain k t payload = w.settleSwap t.ctx := by
  simp only [State.parkAgain, hsession, hpark]

/-! ### Packets (R200, R208, R209, R212)

In each, u is the state in which the packet has left the endpoint's input. -/

section
variable {s u : State} {hdr : Line} {payload : List Byte} (hcompute : s.compute = true) (hruns : s.fry.inReset = false)
  (htaken : s.takeLocal { hdr := hdr, payload := payload } = u)
include hcompute hruns htaken

/-- The row of a kind takes its packet, as the Ferry still runs when the packet has left the input. -/
theorem packet_goesOn {n : Nat} (hkind : raKind hdr = n) : ¬(u.fry.inReset = true ∨ (!u.compute) = true ∨ raKind hdr ≠ n) := by
  have hon : u.compute = true := by rw [← htaken]; exact hcompute
  have hrunning : u.fry.inReset = false := by rw [← htaken]; exact hruns
  simp [hon, hrunning, hkind]

variable (hsize : Sys2Proof.payloadOk 4096 4 payload = true)
include hsize

/-- A result that passes R209 is combined, and with its last chunk the ticket retires. -/
theorem resultChunk_combined {k : Nat} {t : Ticket} (hkind : raKind hdr = 1) (hfresh : u.resultStale hdr payload.length = false)
    (hk : raTicket hdr = k) (hticket : u.ticket k = t) :
    let t' := t.received (raChunk hdr)
    let w := ((u.combineChunk t (raChunk hdr) payload).setTicket k t').fryProgress
    execResultChunk hdr payload s = .next (commit s (if t'.rmask.toNat + 1 = 2 ^ ceilDiv t.rlen 4096 then w.retireTicket k else w)) := by
  have hgoes : ¬(u.fry.inReset = true ∨ (!u.compute) = true) := fun h =>
    packet_goesOn hcompute hruns htaken hkind (h.imp_right .inl)
  subst htaken hk hticket
  exact actIf_of_effect hsize <| (if_neg hgoes).trans <| (if_neg (not_not.mpr hkind)).trans <| if_neg (Bool.eq_false_iff.mp hfresh)

/-- A token that the home's own entry takes stands in its ring, and a run is queued where a batch waits. -/
theorem overflowToken_kept {x : Session} {i a : Nat} {e : Placement} {r : OvfRing} (hkind : raKind hdr = 2)
    (hserving : u.serving (hCtx hdr) = some x) (hi : fieldNat (payloadHeader payload) 77 64 = i)
    (hentry : u.placement (bitAt (payloadHeader payload) 45) (x.pbase + i) = e) (hring : u.ring (hCtx hdr) i e = r)
    (haddr : r.slotAt r.head = a) (hexpert : i < x.pcount) (hvalid : plValid e = true) (hhome : plHome e = u.selfIdx)
    (hhead : u.HeadTakes (hCtx hdr) e r a payload.length) (hkey : u.ctxSlot (hCtx hdr).toNat = hKeySlot hdr) :
    let r' := r.push (plSlots e) payload.length u.now
    let v := ((u.writeBytes (hCtx hdr) (hKeySlot hdr) false false a payload).1).setRing r'
    execOverflowToken hdr payload s = .next (commit s (if plBatch e ≤ r'.waiting.length then v.queueRing r' else v)) := by
  have hgoes := packet_goesOn hcompute hruns htaken hkind
  obtain ⟨hslot, hfree, hfits, hready, hpages, hinside⟩ := hhead
  have htakes : ¬(x.pcount ≤ i ∨ (!plValid e) = true ∨ plHome e ≠ u.selfIdx ∨ plSlots e ≤ r.head ∨ r.taken.contains r.head = true
      ∨ plSlot e < payload.length) := by
    simp only [hvalid, hhome, hfree, Nat.not_le.mpr hexpert, Nat.not_le.mpr hslot, Nat.not_lt.mpr hfits, Bool.not_true, Bool.false_eq_true,
      ne_eq, not_true_eq_false, or_self, not_false_eq_true]
  have hwrites : ¬((u.pageFail (hCtx hdr) true false a payload.length).isSome = true ∨ u.capacity < a + payload.length
      ∨ u.ctxSlot (hCtx hdr).toNat ≠ hKeySlot hdr) := by
    simp only [hpages, hkey, Nat.not_lt.mpr hinside, Option.isSome_none, Bool.false_eq_true, ne_eq, not_true_eq_false, or_self,
      not_false_eq_true]
  subst htaken hi
  refine actIf_of_effect hsize <| (if_neg hgoes).trans ?_
  rw [hserving]
  subst hentry hring haddr
  exact (if_neg htakes).trans <| (if_neg (Bool.eq_false_iff.mp hready)).trans <| if_neg hwrites

/-- A refusal that reaches its ticket is counted, and its token is parked again. -/
theorem refusal_parksAgain {k : Nat} {t : Ticket} (hkind : raKind hdr = 3) (hk : raTicket hdr = k) (hticket : u.ticket k = t)
    (hfresh : u.RefusalFresh hdr t) : execRefusal hdr payload s = .next (commit s (u.countRefusal.parkAgain k t payload)) := by
  have hgoes := packet_goesOn hcompute hruns htaken hkind
  obtain ⟨hgen, hsent, hovf, htgen, hslot, hkeyGen⟩ := hfresh
  have hreaches : ¬(hGen hdr ≠ u.fry.gen.toNat ∨ t.state ≠ .sent ∨ t.cls ≠ .overflow ∨ t.tgen.toNat ≠ raTgen hdr
      ∨ hKeySlot hdr ≠ u.ctxSlot t.ctx.toNat ∨ hKeyGen hdr ≠ u.slotGen (u.ctxSlot t.ctx.toNat)) := by
    simp only [hgen, hsent, hovf, htgen, hslot, hkeyGen, ne_eq, not_true_eq_false, or_self, not_false_eq_true]
  subst htaken hk hticket
  exact actIf_of_effect hsize <| (if_neg hgoes).trans <| if_neg hreaches

end

/-! ### Timers (R207, R211, R212, R218) -/

section
variable {s : State} (k : BitVec 20)

theorem parkedTokenSend_ready (hready : s.parkReady (s.ticket k.toNat) = true) (hfirst : (s.ticket k.toNat).retryAt = 0) :
    execParkedTokenSend k s = .next (commit s (s.sendParked k.toNat)) :=
  act_of_effect <| if_pos ⟨hready, hfirst⟩

theorem overflowRetryTimer_due (hready : s.parkReady (s.ticket k.toNat) = true) (hagain : 0 < (s.ticket k.toNat).retryAt)
    (hdue : (s.ticket k.toNat).retryAt ≤ s.time.tick) :
    execOverflowRetryTimer k s = .next (commit s (s.sendParked k.toNat)) :=
  act_of_effect <| if_pos ⟨hready, hagain, hdue⟩

end

section
variable {s : State} (hcompute : s.compute = true) (hruns : s.fry.inReset = false)
include hcompute hruns

theorem ticketTimeout_due (k : BitVec 20) (hopen : (s.ticket k.toNat).state = .sent ∨ (s.ticket k.toNat).state = .combining)
    (hcls : (s.ticket k.toNat).cls ≠ .overflow) (hdue : (s.ticket k.toNat).due ≤ s.time.tick) :
    execTicketTimeout k s = .next (commit s (s.loseTicket k.toNat)) :=
  act_of_effect <| if_pos ⟨hopen, hcls, hdue, hcompute, by simp [hruns]⟩

theorem overflowTicketTimeout_due (k : BitVec 20) (hheld : (s.ticket k.toNat).state ≠ .free)
    (hcls : (s.ticket k.toNat).cls = .overflow) (hdue : (s.ticket k.toNat).due ≤ s.time.tick) :
    execOverflowTicketTimeout k s = .next (commit s (s.loseTicket k.toNat)) :=
  act_of_effect <| if_pos ⟨hheld, hcls, hdue, hcompute, by simp [hruns]⟩

/-- The only ring of an entry that has been idle for idle_frames queues what waits in it. -/
theorem overflowIdleTimer_only {ctx : BitVec 6} {n : Nat} {r : OvfRing}
    (honly : s.fry.rings.filter (fun r => r.ctx = ctx && r.entry = n
      && decide (r.lastArrival + frameTicks * max 1 (s.fld 0x500030 4 4) ≤ s.now)) = [r]) :
    execOverflowIdleTimer ctx n s = .next (commit s (s.queueRing r)) := by
  rw [execOverflowIdleTimer, act_eq, if_neg (by simp [hcompute, hruns]), honly, forEach_singleton]

/-- The only ring that a full trickle queue blocked tries again. -/
theorem overflowQueueRetry_only {r : OvfRing} (honly : s.fry.rings.filter (·.blocked) = [r]) :
    execOverflowQueueRetry s = .next (commit s (s.queueRing r)) := by
  rw [execOverflowQueueRetry, act_eq, if_neg (by simp [hcompute, hruns]), honly, forEach_singleton]

end

/-- Settles O28: a packet that passes the checks of its kind, and a timer that is due, have their effect. -/
theorem ferryPacketsAndTimers : Obligations.FerryPacketsAndTimers := by
  unfold Obligations.FerryPacketsAndTimers
  intro s hcompute hruns
  refine ⟨fun hdr payload hsize => ⟨?combined, ?kept, ?refused⟩, fun k => ⟨?parked, ?retried, ?lost, ?overflowLost⟩, ?idle, ?blocked⟩
  case combined => exact fun hkind hfresh => resultChunk_combined hcompute hruns rfl hsize hkind hfresh rfl rfl
  case kept =>
    intro sh i x hkind hserving e r r' a v hexpert hvalid hhome hslot hfree hfits hready hpages hinside hkey
    exact overflowToken_kept hcompute hruns rfl hsize hkind hserving rfl rfl rfl (ring_slotAt _ _ _ _ _) hexpert hvalid hhome
      ⟨hslot, hfree, hfits, hready, hpages, hinside⟩ hkey
  case refused =>
    intro x w hkind hgen hsent hovf htgen hslot hkeyGen v e sh hsession hpark
    calc execRefusal hdr payload s
      _ = .next (commit s (v.parkAgain (raTicket hdr) _ payload)) :=
        refusal_parksAgain hcompute hruns rfl hsize hkind rfl rfl ⟨hgen, hsent, hovf, htgen, hslot, hkeyGen⟩
      _ = _ := by rw [parkAgain_room hsession hpark]
  case parked => exact parkedTokenSend_ready k
  case retried => exact overflowRetryTimer_due k
  case lost => exact ticketTimeout_due hcompute hruns k
  case overflowLost => exact overflowTicketTimeout_due hcompute hruns k
  case idle => exact fun c n r honly => overflowIdleTimer_only hcompute hruns honly
  case blocked => exact fun r honly => overflowQueueRetry_only hcompute hruns honly

end Sys2Proof.Machine

/-! ## Streams of the media intake (R225 to R227, R230, R234 to R238, R240, R288) -/

namespace Sys2Proof.Machine

/-! ### Arrival, order and decode (R225, R227, R237, R238, R288) -/

/-- The gap before packet e is given up: its packets count as lost, and e is next in order (R225). -/
def State.passGap (s : State) (n e : Nat) : State :=
  s.updStream n fun x => { x with lost := satAdd 16 x.lost (e - x.next), next := e }

/-- The engine has taken a stream's oldest access unit, and the rest wait (R227). -/
def State.takeUnit (s : State) (n : Nat) (rest : List AccessUnit) : State :=
  s.updStream n fun x => { x with decoding := rest, progress := s.now }

theorem ethFrameReceive_steered {s : State} {p : Fin 2} {f : List Byte} {x : Stream} (hcompute : s.compute = true)
    (hruns : s.itkReset = false) (hup : sget false s.ethUp p = true) (hlen : f.length ≤ 9212) (hsums : checksumsOk (netOf f) f = true)
    (hsteered : (s.streams.find? fun x => steers x p (netOf f) f) = some x) :
    execEthFrameReceive p true f s = .next (commit s
      (s.rtp x.inst x ((f.drop ((netOf f).l4 + 8)).take (beAt f ((netOf f).l4 + 4) 2 - 8)))) :=
  act_of_effect <| by simp [hcompute, hruns, hup, Nat.not_lt.mpr hlen, hsums, hsteered]

section
variable {s v w : State} {n : Nat} {x : Stream} {unit : AccessUnit} {bs : List (List Byte)}

/-! What the engine's work leaves, by how far it comes: the packets, the reference pictures, the decode, the picture's size and start. -/

theorem decodeUnit_poisoned (hread : s.readPkts x unit.pkts = (v, bs, some true)) :
    s.decodeUnit n x unit = (v.updStream n fun x => { x with lost := satAdd 16 x.lost 1 }).badFrame n := by
  simp [State.decodeUnit, hread]

theorem decodeUnit_unread (hread : s.readPkts x unit.pkts = (v, bs, some false)) : s.decodeUnit n x unit = v.badFrame n := by
  simp [State.decodeUnit, hread]

variable (hread : s.readPkts x unit.pkts = (v, bs, none))
include hread

theorem decodeUnit_refsUnread
    (hrefs : v.readPics x ((Config.decodeRefs (rCodec x.record) (rTenBit x.record) x.engState bs).filter x.dpb.contains) = (w, none)) :
    s.decodeUnit n x unit = w.badFrame n := by
  simp only [State.decodeUnit, hread, hrefs]

variable {refs : List (Nat × List Byte)}
  (hrefs : v.readPics x ((Config.decodeRefs (rCodec x.record) (rTenBit x.record) x.engState bs).filter x.dpb.contains) = (w, some refs))
include hrefs

theorem decodeUnit_undecoded (hdecode : Config.decode (rCodec x.record) (rTenBit x.record) x.engState refs bs = none) :
    s.decodeUnit n x unit = w.badFrame n := by
  simp only [State.decodeUnit, hread, hrefs, hdecode]

theorem decodeUnit_decoded {d : Decoded}
    (hdecode : Config.decode (rCodec x.record) (rTenBit x.record) x.engState refs bs = some d) :
    s.decodeUnit n x unit =
      if d.pic.width ≤ rWidth x.record ∧ d.pic.height ≤ rHeight x.record ∧ (x.waitKey = true → d.pic.randomAccess = true) then
        w.deliver n x unit d
      else w.badFrame n := by
  have hreject : ¬(d.pic.width ≤ rWidth x.record ∧ d.pic.height ≤ rHeight x.record ∧ (x.waitKey = true → d.pic.randomAccess = true)) ↔
      rWidth x.record < d.pic.width ∨ rHeight x.record < d.pic.height ∨ (x.waitKey ∧ !d.pic.randomAccess) := by
    simp only [not_and_or, not_le, Classical.not_imp, Bool.not_eq_true, Bool.not_eq_true']
  simp only [State.decodeUnit, hread, hrefs, hdecode, ← hreject, ite_not]

end

/-! ### The shaper and the period (R234 to R236) -/

/-- A shaping has ended: its frame is late once its period's ready tick has passed, else its tiles stand in the buffer of its period (R234,
R236). -/
def State.shapingEnd (s : State) (n : Nat) (x : Stream) (f : Frame) : State :=
  let u := s.updStream n fun x => { x with shaping := none }
  if f.period < x.period then u.updStream n fun x => { x with late := satAdd 8 x.late 1 }
  else (u.writeTiles x.record f).updStream n fun x =>
    { x with shaped := some (f.ts, f.arrival, s.time.tick)
             superseded := if x.shaped.isSome then satAdd 8 x.superseded 1 else x.superseded }

/-- The header of a stream's period stands in its buffer in every cell, over undefined tiles where no frame was shaped (R235, R236). -/
def State.writeHeaders (s : State) (x : Stream) : State :=
  forEach (List.range (rCells x.record)) (fun s c => s.cellPut (rCellFirst x.record + c) (bufAddr x.record x.period) x.header)
    (if x.shaped.isSome then s else s.undefineTiles x.record x.period)

/-- The stream's next period begins, with nothing shaped or counted for it (R234 rule 3, R235). -/
def State.nextPeriod (s : State) (n : Nat) : State :=
  s.updStream n fun x => { x with superseded := 0, lost := 0, bad := 0, late := 0, shaped := none, period := x.period + 1 }

/-! ### The commands of a stream -/

section
variable {s : State} {n : Nat} {x : Stream} (hcompute : s.compute = true) (hruns : s.itkReset = false) (hstream : s.stream n = some x)
include hcompute hruns hstream

theorem reorderGapTimeout_due {e at_ : Nat} {p : RtpPkt} {rest : List (Nat × RtpPkt × Nat)} (hheld : x.held = (e, p, at_) :: rest)
    (hgap : x.next < e) (hdue : at_ + 10000 * rReorder x.record ≤ s.time.tick) :
    execReorderGapTimeout n s = .next (commit s ((s.passGap n e).flushHeld x.held.length n true)) :=
  act_of_effect <| by simp only [hstream, hheld]; exact if_pos ⟨hgap, hdue, hcompute, by simp [hruns]⟩

theorem decodeComplete_ends {k : Fin 16} {unit : AccessUnit} {rest : List AccessUnit} (hengine : x.engine = k.val)
    (hunits : x.decoding = unit :: rest) (hready : s.memWaits (fieldNat x.record 335 288) (fieldNat x.record 383 352) = false) :
    execDecodeComplete n k s = .next (commit s (((s.takeUnit n rest).decodeUnit n x unit).settleUnits rest.length n)) :=
  act_of_effect <| by simp [hstream, hunits, hengine, hruns, hcompute, hready, State.takeUnit]

theorem shapingComplete_ends {f : Frame} (hshaping : x.shaping = some f) :
    execShapingComplete n s = .next (commit s ((s.shapingEnd n x f).shapeWaiting n)) :=
  act_of_effect <| by simp [hstream, hshaping, hruns, hcompute, State.shapingEnd]

theorem readyTick_due {i : Instance} (hinst : s.inst n = some i) (harmed : x.armed = true)
    (hfeeds : i.state = .armed ∨ (i.state = .releasing ∧ i.releaseNow = false ∧ x.period < i.lastPeriod))
    (hdue : i.ready x.record x.period ≤ s.time.tick) :
    execReadyTick n s = .next (commit s
      ((((s.writeHeaders x).syncAddIf (rSync x.record) x.ctx 1).nextPeriod n).shapeWaiting n)) :=
  act_of_effect <| by
    simp only [hstream, hinst]
    rw [if_neg (by simpa [harmed, hruns, hcompute, hdue, and_assoc] using or_iff_not_imp_left.mp hfeeds)]
    rfl

theorem stallTimeout_due (harmed : x.armed = true) (hlive : x.stalled = false)
    (hdue : x.lastPacket + msTicks (max 10 (s.fld 0x600010 0 16)) ≤ s.now) :
    execStallTimeout n s = .next (commit s
      (s.updStream n fun x => { x with stalled := true, waitKey := x.waitKey || rCodec x.record ≠ 3 })) :=
  act_of_effect <| by simp only [hstream]; exact if_pos ⟨harmed, by simp [hlive], hdue, hcompute, by simp [hruns]⟩

end

/-- Settles O31: a frame steered to a stream and a command that is due each have their effect; the end of an access unit goes by how far
the engine's work on it comes. -/
theorem intakeStreamsRun : Obligations.IntakeStreamsRun := by
  unfold Obligations.IntakeStreamsRun
  intro s n x hcompute hruns hstream
  refine ⟨?frame, ?gap, ?decode, ?shape, ?ready, ?stall⟩
  case frame => exact fun p f hup hlen hsums hsteered => ethFrameReceive_steered hcompute hruns hup hlen hsums hsteered
  case gap => exact fun e p at_ rest hheld hgap hdue => reorderGapTimeout_due hcompute hruns hstream hheld hgap hdue
  case decode =>
    intro k unit rest hengine hunits hready done u c ten
    have hend : execDecodeComplete n k s = done (u.decodeUnit n x unit) := decodeComplete_ends hcompute hruns hstream hengine hunits hready
    refine ⟨fun v bs hread => ?poisoned, fun v bs hread => ?unread, fun v bs hread => ?read⟩
    case poisoned => exact hend.trans (congrArg done (decodeUnit_poisoned hread))
    case unread => exact hend.trans (congrArg done (decodeUnit_unread hread))
    case read =>
      refine hend.trans (congrArg done ?_)
      split
      next w hrefs => exact decodeUnit_refsUnread hread hrefs
      next w refs hrefs =>
        split
        next hdecode => exact decodeUnit_undecoded hread hrefs hdecode
        next d hdecode => exact decodeUnit_decoded hread hrefs hdecode
  case shape => exact fun f hshaping => shapingComplete_ends hcompute hruns hstream hshaping
  case ready => exact fun i hinst harmed hfeeds hdue => readyTick_due hcompute hruns hstream hinst harmed hfeeds hdue
  case stall => exact fun harmed hlive hdue => stallTimeout_due hcompute hruns hstream harmed hlive hdue

end Sys2Proof.Machine

/-! ## SYNC_SIGNAL, SYNC_WAIT, NOP and PHASE_HINT (R180, R259, R267) -/

namespace Sys2Proof.Machine

/-! ### The descriptors start (R252) -/

section
variable {s : State} {sq : Fin 256} {slot : Nat} {d : Line} {rest : List Fetched} (hhead : s.headStarts sq slot d rest)
include hhead

/-- A NOP has no fields to check (log 27). -/
theorem nop_completes (hop : fieldNat d 7 0 = 0x00) :
    execNop sq s = .next (commit s (((s.taken sq rest).complete sq slot d { status := stOk }).followed sq)) := by
  rw [execNop, act_eq, startRow_of_headStarts hhead hop rfl]

theorem syncSignalAdd_starts (hop : fieldNat d 7 0 = 0x0B) (haction : sigAction d = 0) :
    execSyncSignalAdd sq s = .next (commit s (((s.taken sq rest).signalAdd sq slot d).followed sq)) := by
  rw [execSyncSignalAdd, act_eq, startRow_of_headStarts hhead hop (by simp [haction])]

theorem syncSignalAllocate_starts (hop : fieldNat d 7 0 = 0x0B) (haction : sigAction d = 1) :
    execSyncSignalAllocate sq s = .next (commit s (((s.taken sq rest).signalAllocate sq slot d).followed sq)) := by
  rw [execSyncSignalAllocate, act_eq, startRow_of_headStarts hhead hop (by simp [haction])]

theorem syncSignalRelease_starts (hop : fieldNat d 7 0 = 0x0B) (haction : sigAction d = 2) :
    execSyncSignalRelease sq s = .next (commit s (((s.taken sq rest).signalRelease sq slot d).followed sq)) := by
  rw [execSyncSignalRelease, act_eq, startRow_of_headStarts hhead hop (by simp [haction])]

theorem syncWait_starts (hop : fieldNat d 7 0 = 0x0C) :
    execSyncWait sq s = .next (commit s (((s.taken sq rest).syncWaitStart sq slot d).followed sq)) := by
  rw [execSyncWait, act_eq, startRow_of_headStarts hhead hop rfl]

/-- A hint whose length, kind and reserved bits are good takes effect unless its window has passed (R180). -/
theorem phaseHint_completes (hop : fieldNat d 7 0 = 0x0D) (hlen : fieldNat d 223 192 ≠ 0) (hkind : fieldNat d 227 224 = 1)
    (hend : fieldNat d 511 228 = 0) :
    let u := s.taken sq rest
    execPhaseHint sq s = .next (commit s ((State.complete
      (if fieldNat d 191 128 + fieldNat d 223 192 ≤ u.time.tick then u
        else { u with tt := { u.tt with
          barriers := u.tt.barriers ++ [{ ctx := (u.sq sq).ctx, start := fieldNat d 191 128, len := fieldNat d 223 192 }] } })
      sq slot d { status := stOk }).followed sq)) := by
  rw [execPhaseHint, act_eq, startRow_of_headStarts hhead hop rfl]
  simp only [hlen, hkind, hend, ne_eq, not_true_eq_false, decide_false, lowestBad_cons_false, lowestBad_nil]

end

/-! ### What a SYNC_SIGNAL and a SYNC_WAIT do (R83, R267) -/

section
variable {u : State} {sq slot : Nat} {d : Line}

theorem signalAdd_added (hgood : sigBad d = none) (hobj : u.objOk (fieldNat d 156 144) (u.sq sq).ctx = true) :
    u.signalAdd sq slot d
      = (u.syncAdd (fieldNat d 156 144) (signed 32 (fieldNat d 223 192))).complete sq slot d { status := stOk } := by
  simp only [State.signalAdd, hgood, hobj, if_true]

/-- The lowest free run takes the context's new objects, and its first index is the result. -/
theorem signalAllocate_allocated {j : Nat} (hgood : sigBad d = none) (hrun : u.freeRun (fieldNat d 173 160) = some j) :
    u.signalAllocate sq slot d
      = ((List.range (fieldNat d 173 160)).foldl
          (fun w k => w.setObj (j + k) { count := 0, ctx := (u.sq sq).ctx, valid := true, fabricAbort := bitAt d 130 }) u).complete
          sq slot d { status := stOk, r0 := j } := by
  simp only [State.signalAllocate, hgood, hrun]

theorem signalRelease_released (hgood : sigBad d = none)
    (hobjs : ∀ k < fieldNat d 173 160, u.objOk (fieldNat d 156 144 + k) (u.sq sq).ctx = true)
    (hidle : u.objWaited (fieldNat d 156 144) (fieldNat d 173 160) = false) :
    u.signalRelease sq slot d
      = State.complete { u with sync := sclear u.sync (fieldNat d 156 144) (fieldNat d 156 144 + fieldNat d 173 160) }
          sq slot d { status := stOk } := by
  have hall : ((List.range (fieldNat d 173 160)).all fun k => u.objOk (fieldNat d 156 144 + k) (u.sq sq).ctx) = true := by
    simpa using hobjs
  simp only [State.signalRelease, hgood, hall, hidle, Bool.not_true, Bool.false_eq_true, if_false]

/-- A wait that is not aborted completes where its target is reached, and otherwise is kept with its time limit, if it has one. -/
theorem syncWaitStart_waits (hgood : waitBad d = none) (hobj : u.objOk (fieldNat d 156 144) (u.sq sq).ctx = true)
    (hlive : (u.obj (fieldNat d 156 144)).aborted = false) :
    u.syncWaitStart sq slot d
      = if signed 48 (fieldNat d 239 192) ≤ (u.obj (fieldNat d 156 144)).count then u.complete sq slot d { status := stOk }
        else { u.startJob sq slot d .syncWait with
          syncWaits := u.syncWaits ++ [
            { sq := sq, slot := slot, object := fieldNat d 156 144, target := signed 48 (fieldNat d 239 192), satisfied := false
              aborted := false, due := if fieldNat d 271 256 = 0 then 0 else u.now + msTicks (fieldNat d 271 256) }] } := by
  simp only [State.syncWaitStart, hgood, hobj, hlive, Bool.not_true, Bool.false_eq_true, if_false]

end

/-- Settles O1: each descriptor passes the checks of its fields and of the objects that it names, and completes or waits. -/
theorem syncDescriptorsRun : Obligations.SyncDescriptorsRun := by
  unfold Obligations.SyncDescriptorsRun
  intro s sq slot d rest hhead u c i n ok
  refine ⟨?nop, ?add, ?allocate, ?release, ?wait, ?hint⟩
  case nop => exact nop_completes hhead
  case add =>
    intro hop haction hgood hobj
    calc execSyncSignalAdd sq s
      _ = .next (commit s ((u.signalAdd sq slot d).followed sq)) := syncSignalAdd_starts hhead hop haction
      _ = .next (commit s (ok (u.syncAdd i (signed 32 (fieldNat d 223 192))))) := by rw [signalAdd_added hgood hobj]
  case allocate =>
    intro j hop haction hgood hrun
    calc execSyncSignalAllocate sq s
      _ = .next (commit s ((u.signalAllocate sq slot d).followed sq)) := syncSignalAllocate_starts hhead hop haction
      _ = _ := by rw [signalAllocate_allocated hgood hrun]
  case release =>
    intro hop haction hgood hobjs hidle
    calc execSyncSignalRelease sq s
      _ = .next (commit s ((u.signalRelease sq slot d).followed sq)) := syncSignalRelease_starts hhead hop haction
      _ = .next (commit s (ok { u with sync := sclear u.sync i (i + n) })) := by rw [signalRelease_released hgood hobjs hidle]
  case wait =>
    intro hop hgood hobj hlive
    calc execSyncWait sq s
      _ = .next (commit s ((u.syncWaitStart sq slot d).followed sq)) := syncWait_starts hhead hop
      _ = _ := by rw [syncWaitStart_waits hgood hobj hlive, apply_ite (State.followed · sq)]
  case hint => exact phaseHint_completes hhead

end Sys2Proof.Machine

/-! ## CONTEXT_CREATE, CONTEXT_DESTROY, FENCE and QUERY (R261 to R263, R467, R268) -/

namespace Sys2Proof.Machine

/-! ### The descriptors start (R252) -/

section
variable {s : State} {sq : Fin 256} {slot : Nat} {d : Line} {rest : List Fetched} (hhead : s.headStarts sq slot d rest)
include hhead

theorem contextCreate_starts (hop : fieldNat d 7 0 = 0x16) :
    execContextCreate sq s = .next (commit s (((s.taken sq rest).createStart sq slot d).followed sq)) := by
  rw [execContextCreate, act_eq, startRow_of_headStarts hhead hop rfl]

theorem contextDestroy_starts (hop : fieldNat d 7 0 = 0x17) :
    execContextDestroy sq s = .next (commit s (((s.taken sq rest).destroyStart sq slot d).followed sq)) := by
  rw [execContextDestroy, act_eq, startRow_of_headStarts hhead hop rfl]

theorem fence_starts (hop : fieldNat d 7 0 = 0x18) :
    execFence sq s = .next (commit s (((s.taken sq rest).fenceStart sq slot d).followed sq)) := by
  rw [execFence, act_eq, startRow_of_headStarts hhead hop rfl]

theorem queryRegisters_starts (hop : fieldNat d 7 0 = 0x19) (hsel : querySel d = 1) :
    execQueryRegisters sq s = .next (commit s (((s.taken sq rest).queryStart sq slot d).followed sq)) := by
  rw [execQueryRegisters, act_eq, startRow_of_headStarts hhead hop (by simp [hsel])]

theorem queryEscapeCounters_starts (hop : fieldNat d 7 0 = 0x19) (hsel : querySel d = 2) :
    execQueryEscapeCounters sq s = .next (commit s (((s.taken sq rest).queryStart sq slot d).followed sq)) := by
  rw [execQueryEscapeCounters, act_eq, startRow_of_headStarts hhead hop (by simp [hsel])]

theorem queryContextSummary_starts (hop : fieldNat d 7 0 = 0x19) (hsel : querySel d = 3) :
    execQueryContextSummary sq s = .next (commit s (((s.taken sq rest).queryStart sq slot d).followed sq)) := by
  rw [execQueryContextSummary, act_eq, startRow_of_headStarts hhead hop (by simp [hsel])]

end

/-! ### CONTEXT_CREATE (R261, R262) -/

section
variable {u : State} {sq slot : Nat} {d : Line}

/-- The context that a CONTEXT_CREATE without key slot and host window table makes (R261). -/
def openContext (d : Line) : Context :=
  { live := true, keySlot := BitVec.ofNat 4 0, slice := BitVec.ofNat 8 (fieldNat d 167 160), windows := []
    itkBase := fieldNat d 431 384, itkCount := fieldNat d 442 432 }

/-- Pages assigned to the context of a CONTEXT_CREATE without key slot (R128). -/
def assignPages (d : Line) (pages : List Nat) (m : Sparse Page) : Sparse Page :=
  pages.foldl (fun m p => sset {} m p
    (assigned (BitVec.ofNat 6 (fieldNat d 133 128)) (BitVec.ofNat 4 0) ((pageRanges d).any fun r => r.shared && r.has p))) m

/-- Free pages that keep nothing of an earlier context need no zeroing: a context without key slot has them at once. -/
theorem createDone_created (hgood : lowestBad (u.createBad d) = none) (hkey : fieldNat d 139 136 = 0) (hretain : bitAt d 146 = false)
    (hfree : ∀ p ∈ rangePages (pageRanges d), (u.page p).state = .free ∧ (u.page p).retained = false) :
    u.createDone sq slot d []
      = State.endDesc { u with ctxs := sset {} u.ctxs (fieldNat d 133 128) (openContext d)
                               pages := assignPages d (rangePages (pageRanges d)) u.pages } sq slot d { status := stOk } := by
  have huses : ((rangePages (pageRanges d)).any fun p => (u.page p).state = .owned || (u.page p).state = .shared) = false :=
    List.any_eq_false.mpr fun p hp => by simp [(hfree p hp).1]
  have hscrub : ((rangePages (pageRanges d)).any fun p => (u.page p).state = .scrubbing) = false :=
    List.any_eq_false.mpr fun p hp => by simp [(hfree p hp).1]
  have hzero : ((rangePages (pageRanges d)).filter fun p => (u.page p).retained) = [] :=
    List.filter_eq_nil_iff.mpr fun p hp => by simp [(hfree p hp).2]
  have hwindows : windowBad [] = none := rfl
  simp only [State.createDone, hgood, hwindows, hkey, hretain, huses, hscrub, hzero, ne_eq, not_true_eq_false, false_and,
    Bool.false_eq_true, if_false, decide_false, decide_true, Bool.or_false, Bool.and_true, List.isEmpty_nil, if_true]
  rfl

/-! ### CONTEXT_DESTROY (R263) -/

theorem destroyStart_destroyed {x : BitVec 6} (hx : x = BitVec.ofNat 6 (fieldNat d 133 128)) (hid : fieldNat d 133 128 ≠ 0)
    (hlive : (u.ctx (fieldNat d 133 128)).live = true) (hend : fieldNat d 511 134 = 0) (hrings : u.ringsOf x = [])
    (hopen : u.conf (fieldNat d 133 128) = false) :
    u.destroyStart sq slot d
      = ((((((u.releaseAll x).stopLaunches x .fenced).stopTrickle x .fenced).fenceTrickle x).closeSession x).1.forgetCtx x).complete
          sq slot d { status := stOk } := by
  subst hx
  simp only [State.destroyStart, hid, hlive, hend, hrings, hopen, ne_eq, not_true_eq_false, decide_false, Bool.not_true, Bool.or_self,
    lowestBad_cons_false, lowestBad_nil, List.isEmpty_nil, Bool.false_eq_true, if_false]

/-! ### FENCE (R467) -/

/-- The other rings that a FENCE cancels (R467). -/
def State.fenceCuts (s : State) (sq : Nat) (d : Line) : List Nat :=
  if decide (fieldNat d 129 128 = 1) && bitAt d 130 then s.otherRings (s.sq sq).ctx sq else []

/-- The started descriptors that a FENCE waits for (R467). -/
def State.fenceWaits (s : State) (sq : Nat) (d : Line) : List (Nat × Nat) :=
  (s.jobs.filter fun (j : Job) =>
    decide (j.sq = sq) || (decide (fieldNat d 129 128 = 1) && (s.otherRings (s.sq sq).ctx sq).contains j.sq)).map fun j => (j.sq, j.slot)

/-- A FENCE under way: the descriptors that it cancels are gone, and its job waits for those that have started. -/
def State.fenceBegun (s : State) (sq slot : Nat) (d : Line) : State :=
  (forEach (s.fenceCuts sq d) (fun v r => v.fenceReady r) s).startJob sq slot d
    (.fence (s.fenceWaits sq d) (sumOf ((s.fenceCuts sq d).map fun r => (s.sq r).ready.length)) (bitAt d 131))

theorem fenceStart_begins (hscope : fieldNat d 129 128 < 2) (hend : fieldNat d 511 132 = 0) :
    u.fenceStart sq slot d
      = ((u.fenceBegun sq slot d).settleFences (u.fenceBegun sq slot d).jobs.length).settleCloses := by
  simp only [State.fenceStart, Nat.not_le.mpr hscope, hend, ne_eq, not_true_eq_false, decide_false, lowestBad_cons_false, lowestBad_nil]
  rfl

/-! ### QUERY (R268) -/

/-- The fields that every QUERY has are good (R268). -/
structure QueryFields (d : Line) : Prop where
  low : fieldNat d 159 136 = 0
  aligned : fieldNat d 255 192 % 64 = 0
  min : 64 ≤ fieldNat d 271 256
  max : fieldNat d 271 256 ≤ 4096
  high : fieldNat d 511 272 = 0

/-- The context of the ring may make the query, whose argument fits its selector: while the context is confidential, only a summary of
itself (R268, log 85). -/
inductive State.QueryAllowed (s : State) (c : BitVec 6) (d : Line) : Prop
  | registers (hsel : querySel d = 1) (harg : fieldNat d 191 160 % 4 = 0) (hopen : s.conf c.toNat = false)
  | escapes (hsel : querySel d = 2) (harg : fieldNat d 191 160 = 0) (hopen : s.conf c.toNat = false)
  | summary (hsel : querySel d = 3) (harg : fieldNat d 191 160 < 64) (hlive : (s.ctx (fieldNat d 191 160)).live = true)
      (hown : s.conf c.toNat = false ∨ fieldNat d 191 160 = c.toNat)

theorem queryStart_reports (hfields : QueryFields d) (hallowed : u.QueryAllowed (u.sq sq).ctx d) :
    u.queryStart sq slot d
      = u.reportOut sq slot d (fieldNat d 255 192) ((u.report d).take (fieldNat d 271 256))
          ((u.report d).take (fieldNat d 271 256)).length 0 := by
  obtain ⟨hlow, haligned, hmin, hmax, hhigh⟩ := hfields
  cases hallowed with
  | registers hsel harg hopen =>
    simp [State.queryStart, hsel, harg, hopen, hlow, haligned, Nat.not_lt.mpr hmin, Nat.not_lt.mpr hmax, hhigh]
  | escapes hsel harg hopen =>
    simp [State.queryStart, hsel, harg, hopen, hlow, haligned, Nat.not_lt.mpr hmin, Nat.not_lt.mpr hmax, hhigh]
  | summary hsel harg hlive hown =>
    have hmay : ¬(u.conf (u.sq sq).ctx.toNat = true ∧ ¬fieldNat d 191 160 = (u.sq sq).ctx.toNat) := by
      rcases hown with hopen | hself
      · simp [hopen]
      · simp [hself]
    simp [State.queryStart, hsel, harg, hlive, hmay, hlow, haligned, Nat.not_lt.mpr hmin, Nat.not_lt.mpr hmax, hhigh]

end

/-- Settles O8: each descriptor passes the checks of its fields, and a query those of what it names, and has its effect. -/
theorem contextDescriptorsRun : Obligations.ContextDescriptorsRun := by
  unfold Obligations.ContextDescriptorsRun
  intro s sq slot d rest hhead u c
  refine ⟨?create, ?destroy, ?fence, ?query⟩
  case create =>
    intro n pages hop hgood hwindows hkey hretain hfree _
    calc execContextCreate sq s
      _ = .next (commit s ((u.createStart sq slot d).followed sq)) := contextCreate_starts hhead hop
      _ = .next (commit s ((u.createDone sq slot d []).followed sq)) := by rw [State.createStart, if_pos hwindows]
      _ = _ := by rw [createDone_created hgood hkey hretain hfree]; rfl
  case destroy =>
    intro n x hop hid hlive hend hrings hopen
    calc execContextDestroy sq s
      _ = .next (commit s ((u.destroyStart sq slot d).followed sq)) := contextDestroy_starts hhead hop
      _ = _ := by rw [destroyStart_destroyed rfl hid hlive hend hrings hopen]
  case fence =>
    intro all rings cut m waits w hop hscope hend
    calc execFence sq s
      _ = .next (commit s ((u.fenceStart sq slot d).followed sq)) := fence_starts hhead hop
      _ = _ := by rw [fenceStart_begins hscope hend]; rfl
  case query =>
    intro hop hlow haligned hmin hmax hhigh bs told
    have htold (hallowed : u.QueryAllowed c d) : (u.queryStart sq slot d).followed sq = told :=
      congrArg (State.followed · sq) (queryStart_reports ⟨hlow, haligned, hmin, hmax, hhigh⟩ hallowed)
    refine ⟨fun hsel harg hopen => ?registers, fun hsel harg hopen => ?escapes, fun hsel harg hlive hown => ?summary⟩
    case registers =>
      rw [← htold (.registers hsel harg hopen)]
      exact queryRegisters_starts hhead hop hsel
    case escapes =>
      rw [← htold (.escapes hsel harg hopen)]
      exact queryEscapeCounters_starts hhead hop hsel
    case summary =>
      rw [← htold (.summary hsel harg hlive hown)]
      exact queryContextSummary_starts hhead hop hsel

end Sys2Proof.Machine

/-! ## The Hawser link: doorbells, training, flits and host reads (R243 to R253) -/

namespace Sys2Proof.Machine

/-! ### Doorbells and the event timer (R250, R253) -/

section
variable {s : State} {n : Nat} {v : BitVec 32}

/-- A producer index no more than a ring's size ahead of what was fetched is taken. -/
theorem producerIndex_taken (hopen : (s.sq n).isOpen = true) (hgood : (s.sq n).error = false)
    (hforward : (v.toNat + 2 ^ 32 - (s.sq n).producer) % 2 ^ 32 < 2 ^ 31)
    (hfits : (v.toNat + 2 ^ 32 - (s.sq n).fetched % 2 ^ 32) % 2 ^ 32 ≤ 2 ^ (s.sq n).log2n) :
    s.producerIndex n v = (s.updSq n fun q => { q with producer := v.toNat }).fetch := by
  simp only [State.producerIndex, hopen, hgood, Nat.not_le.mpr hforward, Nat.not_lt.mpr hfits, Bool.not_true, Bool.or_self,
    Bool.false_eq_true, if_false]

theorem producerIndex_closed (hclosed : (s.sq n).isOpen = false) : s.producerIndex n v = s.badDoorbell := by
  simp [State.producerIndex, hclosed]

theorem doorbell_producer : s.doorbell n 0 4 v = s.producerIndex n v := by
  rw [State.doorbell, if_neg (by decide)]

/-- A write of another size, at another offset, or of the producer index of a closed ring is dropped and counted. -/
theorem doorbell_dropped {offset bytes : Nat}
    (hbad : bytes ≠ 4 ∨ (offset ≠ 0 ∧ offset ≠ 0x40 ∧ offset ≠ 0x80) ∨ (s.sq n).isOpen = false ∧ offset = 0) :
    s.doorbell n offset bytes v = s.badDoorbell := by
  by_cases hsize : bytes = 4
  · subst hsize
    rcases hbad with hbytes | ⟨hproducer, hconsumer, harm⟩ | ⟨hclosed, rfl⟩
    · exact absurd rfl hbytes
    · unfold State.doorbell
      split
      · contradiction
      · split
        · exact absurd rfl hproducer
        · exact absurd rfl hconsumer
        · exact absurd rfl harm
        · rfl
    · rw [doorbell_producer, producerIndex_closed hclosed]
  · exact if_pos hsize

theorem consumerIndex_taken (hopen : (s.cq n).isOpen = true) (hgood : (s.sq n).error = false) :
    let u := s.updCq n fun q => { q with consumed := v.toNat }
    s.consumerIndex n v = (u.flushSteps u.tt.stepQueue.length).fetch := by
  simp only [State.consumerIndex, hopen, hgood, Bool.not_true, Bool.or_self, Bool.false_eq_true, if_false]

theorem eventArm_armed (hopen : (s.cq n).isOpen = true) (hgood : (s.sq n).error = false) (hidle : (s.cq n).armed = false) :
    s.eventArm n = s.updCq n fun q => { q with armed := true, evSeen := 0 } := by
  simp only [State.eventArm, hopen, hgood, hidle, Bool.not_true, Bool.or_self, Bool.false_eq_true, if_false]

end

section
variable {s : State} {n : Fin 256} {v : BitVec 32} (hup : s.linkUp = true)
include hup

theorem sqProducerIndex_reaches (o : BitVec 12) (bytes : Nat) :
    execSqProducerIndex n ⟨o, bytes, v⟩ s = .next (commit s (s.doorbell n o.toNat bytes v)) :=
  act_of_effect (if_pos hup)

theorem cqConsumerIndex_reaches : execCqConsumerIndex n v s = .next (commit s (s.consumerIndex n v)) :=
  act_of_effect (if_pos hup)

theorem cqEventArm_reaches (v : BitVec 32) : execCqEventArm n v s = .next (commit s (s.eventArm n)) :=
  act_of_effect (if_pos hup)

end

theorem cqEventTimer_due {s : State} {n : Fin 256} (hopen : (s.cq n).isOpen = true) (harmed : (s.cq n).armed = true)
    (hseen : 0 < (s.cq n).evSeen) (hdue : (s.cq n).evFirst + usTicks (s.cq n).evUs ≤ s.now) :
    execCqEventTimer n s = .next (commit s
      ((s.updCq n fun q => { q with armed := false, evSeen := 0 }).hostEvent (s.cq n).vector.toNat)) :=
  act_of_effect (if_pos (by simp [hopen, harmed, hseen, hdue]))

/-! ### The link falls and trains (R243, R246, R489) -/

section
variable {s : State}

theorem hawserLinkDown_falls (hup : s.hst.up = true) :
    execHawserLinkDown s = .next (commit s { s with hst := { s.hst with up := false, lanes := 0, downAt := s.now, retryAt := s.now } }) :=
  act_of_effect (if_pos hup)

theorem hawserLinkTrained_trains (eight : Bool) (port : BitVec 2) (hdown : s.hst.up = false ∨ s.hst.inReset = true) :
    execHawserLinkTrained eight port s = .next (commit s (s.trained eight port)) := by
  refine act_of_effect (if_neg ?_)
  rcases hdown with hdown | hreset
  · simp [hdown]
  · simp [hreset]

theorem hawserLinkRetry_due (hdown : s.hst.up = false) (hdue : s.hst.retryAt + msTicks 1000 ≤ s.now) :
    execHawserLinkRetry s = .next (commit s { s with hst := { s.hst with retryAt := s.now } }) :=
  act_of_effect (if_pos (by simp [hdown, hdue]))

end

/-! ### Flits sent again (R243, R276, R285, log 180) -/

@[simp] theorem length_leBytes : ∀ n v : Nat, (leBytes n v).length = n
  | 0, _ => rfl
  | n + 1, v => congrArg (· + 1) (length_leBytes n (v / 256))

/-- The check symbols of a flit are not those of its bytes (R243). -/
abbrev flitBad (bs : List Byte) : Prop := leNat (bs.drop 252) ≠ (crc32c (bs.take 252)).toNat

theorem replayFlits_bad (kept : List Flit) {bs : List Byte} (hbad : flitBad bs) : replayFlits kept (.inr bs) = some [{ nack := true }] :=
  if_neg fun hgood => hbad hgood.2

theorem replayFlits_good (kept : List Flit) {bs : List Byte} (hlen : bs.length = 256) (hgood : ¬flitBad bs) :
    replayFlits kept (.inr bs) = none :=
  if_pos ⟨hlen, not_not.mp hgood⟩

/-- The state once a flit that fails has been drawn. -/
def State.lossDrawn (s : State) : State := { s with freeCtr := s.freeCtr + 1 }

/-- Flits go out again on the Hawser link, which counts them (R276). -/
def State.replayed (s : State) (fs : List Flit) : State :=
  { s with hst := { s.hst with wire := s.hst.wire ++ fs }, cnt := { s.cnt with replays := satAdd 8 s.cnt.replays 1 } }

/-- Flits go out again on the pair link (R285). -/
def State.pairReplayed (s : State) (fs : List Flit) : State := { s with fab := { s.fab with pairWire := s.fab.pairWire ++ fs } }

section
variable {s : State} {lost : Nat ⊕ List Byte} {fs : List Flit}

theorem hawserReplay_of_some (hopen : s.linkOpen = true) (hsome : replayFlits s.hst.flits lost = some fs) :
    s.hawserReplay lost = s.replayed fs := by
  rw [State.hawserReplay, if_pos hopen, hsome]
  rfl

theorem hawserReplay_of_none (hopen : s.linkOpen = true) (hnone : replayFlits s.hst.flits lost = none) : s.hawserReplay lost = s := by
  rw [State.hawserReplay, if_pos hopen, hnone]

theorem pairReplay_of_some (hup : s.fab.pairUp = true) (hsome : replayFlits s.fab.pairFlits lost = some fs) :
    s.pairReplay lost = s.pairReplayed fs := by
  rw [State.pairReplay, if_pos hup, hsome]
  rfl

theorem pairReplay_of_none (hup : s.fab.pairUp = true) (hnone : replayFlits s.fab.pairFlits lost = none) : s.pairReplay lost = s := by
  rw [State.pairReplay, if_pos hup, hnone]

end

theorem hawserReplay_received {s : State} {bs : List Byte} (hopen : s.linkOpen = true) (hlen : bs.length = 256) :
    s.hawserReplay (.inr bs) = if flitBad bs then s.replayed [{ nack := true }] else s := by
  by_cases hbad : flitBad bs
  · rw [if_pos hbad, hawserReplay_of_some hopen (replayFlits_bad _ hbad)]
  · rw [if_neg hbad, hawserReplay_of_none hopen (replayFlits_good _ hlen hbad)]

theorem pairReplay_received {s : State} {bs : List Byte} (hup : s.fab.pairUp = true) (hlen : bs.length = 256) :
    s.pairReplay (.inr bs) = if flitBad bs then s.pairReplayed [{ nack := true }] else s := by
  by_cases hbad : flitBad bs
  · rw [if_pos hbad, pairReplay_of_some hup (replayFlits_bad _ hbad)]
  · rw [if_neg hbad, pairReplay_of_none hup (replayFlits_good _ hlen hbad)]

/-- The bytes of a flit received are 256. -/
theorem flitLoss_length {s : State} {bs : List Byte} (hloss : s.flitLoss.2 = .received bs ∨ s.flitLoss.2 = .pairReceived bs) :
    bs.length = 256 := by
  simp only [State.flitLoss] at hloss
  split_ifs at hloss <;> simp only [FlitLoss.received.injEq, FlitLoss.pairReceived.injEq, or_false, false_or] at hloss
  all_goals exact hloss ▸ length_leBytes 256 _

/-- A flit of the module's is sent again with those after it, and one received with a bad CRC is acknowledged negatively, on the link of
the loss that was drawn. -/
theorem flitReplay_replays {s : State} (hopen : s.linkOpen = true) (hup : s.fab.pairUp = true) :
    execFlitReplay s = .next (commit s (match s.flitLoss.2 with
      | .sent k => s.lossDrawn.replayed (s.hst.flits.filter fun f => decide (k ≤ f.seq))
      | .received bs => if flitBad bs then s.lossDrawn.replayed [{ nack := true }] else s.lossDrawn
      | .pairSent k => s.lossDrawn.pairReplayed (s.fab.pairFlits.filter fun f => decide (k ≤ f.seq))
      | .pairReceived bs => if flitBad bs then s.lossDrawn.pairReplayed [{ nack := true }] else s.lossDrawn)) := by
  have hpair : s.flitLoss = (s.lossDrawn, s.flitLoss.2) := rfl
  apply act_of_effect
  rw [hpair]
  cases hloss : s.flitLoss.2 with
  | sent k => exact hawserReplay_of_some hopen rfl
  | received bs => exact hawserReplay_received hopen (flitLoss_length (.inl hloss))
  | pairSent k => exact pairReplay_of_some hup rfl
  | pairReceived bs => exact pairReplay_received hup (flitLoss_length (.inr hloss))

/-! ### Replies to host reads (R244, R246) -/

section
variable {s : State} {r : HostRead} {tag : BitVec 10} {data : List Byte} (hup : s.linkUp = true)

section
include hup

theorem hostRdData_reaches (gen : BitVec 8) (err : BitVec 2) :
    execHostRdData tag gen err ⟨0x11, data⟩ s = .next (commit s (s.rdData tag gen err data)) := by
  refine act_of_effect ?_
  rw [hup]
  rfl

/-- A message of a type that the adapter does not send, or read data of an earlier generation, is dropped and counted (R244). -/
theorem hostRdData_stale {gen : BitVec 8} {err : BitVec 2} {type : BitVec 8}
    (hbad : type < 0x11 ∨ 0x16 < type ∨ type = 0x11 ∧ gen ≠ s.rst.hawserGen) :
    execHostRdData tag gen err ⟨type, data⟩ s = .next (commit s s.hostStale) := by
  by_cases hread : type = 0x11
  · subst hread
    have hgen : gen ≠ s.rst.hawserGen := by simpa using hbad
    rw [hostRdData_reaches hup, State.rdData, if_pos hgen]
  · have hother : (type = 0x11) = False := eq_false hread
    have hreserved : adapterType type.toNat = false := by
      have hout : type < 0x11 ∨ 0x16 < type := by simpa only [hother, false_and, or_false] using hbad
      simp only [adapterType, Bool.and_eq_false_iff, decide_eq_false_iff_not]
      bv_omega
    refine act_of_effect ?_
    simp only [hup, hother, hreserved, Bool.not_true, Bool.false_eq_true, if_false]

theorem hostRdTimeout_due (hread : s.readOf tag.toNat = some r) (hdue : r.at_ + s.rdTimeout ≤ s.now) :
    execHostRdTimeout tag s = .next (commit s ((s.readDone r.tag).readFailed r)) := by
  refine act_of_effect ?_
  simp only [hread]
  exact if_pos ⟨hup, hdue⟩

end

theorem rdData_good (hread : s.readOf tag.toNat = some r) (hlen : data.length = r.len) (hwarm : s.rst.warm = false) :
    s.rdData tag s.rst.hawserGen 0 data = (s.readDone r.tag).readGood r data := by
  simp [State.rdData, hread, hlen, hwarm]

theorem rdData_failed (hread : s.readOf tag.toNat = some r) :
    s.rdData tag s.rst.hawserGen 1 data = (s.readDone r.tag).readFailed r := by
  simp [State.rdData, hread]

end

/-! ### The end of a wait for the link (R246) -/

section
variable {s : State} {sq : Fin 256} {slot : BitVec 16} {j : Job} (hjob : s.job sq slot.toNat = some j) (hdown : s.linkUp = false)
  (hdue : max s.hst.downAt j.start + s.holdTicks ≤ s.now)
include hjob hdown hdue

theorem holdMsExpiry_gather {need asked base : Nat} {got : List (Nat × List Byte)} (hkind : j.kind = .gather need asked base got)
    (hshort : (joinGot got).length < need) :
    execHoldMsExpiry sq slot s = .next (commit s (s.gatherFailed sq slot.toNat 2)) := by
  refine act_of_effect ?_
  simp [hjob, State.heldTooLong, hdown, hdue, hkind, hshort]

theorem holdMsExpiry_report {addr r0 r1 : Nat} {bs : List Byte} (hkind : j.kind = .report addr bs r0 r1) :
    execHoldMsExpiry sq slot s = .next (commit s (s.finish sq slot.toNat { status := stTimeout, detail := 2 })) := by
  refine act_of_effect ?_
  simp [hjob, State.heldTooLong, hdown, hdue, hkind]

end

/-- Settles O12: each message that reaches the module over the link, and each timer that is due, has its effect; a flit that fails goes
out again by the loss that is drawn. -/
theorem hostLinkActs : Obligations.HostLinkActs := by
  unfold Obligations.HostLinkActs
  refine ⟨fun s n v => ⟨?producer, ?dropped, ?consumer, ?arm, ?timer⟩, fun s eight port => ⟨?down, ?trained, ?retry, ?replay⟩,
    fun s r => ⟨?data, ?stale, ?timeout, ?gather, ?report⟩⟩
  case producer =>
    intro hup hopen hgood hforward hfits
    have htaken : s.doorbell n 0 4 v = (s.updSq n fun q => { q with producer := v.toNat }).fetch :=
      doorbell_producer.trans (producerIndex_taken hopen hgood hforward hfits)
    rw [← htaken]
    exact sqProducerIndex_reaches hup 0 4
  case dropped =>
    intro o bytes hup hbad
    have hdrop : s.doorbell n o.toNat bytes v = s.badDoorbell := doorbell_dropped (by simpa [BitVec.toNat_eq] using hbad)
    exact (sqProducerIndex_reaches hup o bytes).trans (by rw [hdrop]; rfl)
  case consumer =>
    intro hup hopen hgood u
    rw [← consumerIndex_taken hopen hgood]
    exact cqConsumerIndex_reaches hup
  case arm =>
    intro hup hopen hgood hidle
    rw [← eventArm_armed hopen hgood hidle]
    exact cqEventArm_reaches hup v
  case timer => exact cqEventTimer_due
  case down => exact hawserLinkDown_falls
  case trained => exact fun hdown => hawserLinkTrained_trains eight port hdown
  case retry => exact hawserLinkRetry_due
  case replay => exact fun hopen hup => flitReplay_replays hopen hup
  case data =>
    refine fun tag data hup hread => ⟨fun hlen hwarm => ?good, ?failed⟩
    case good =>
      rw [← rdData_good hread hlen hwarm]
      exact hostRdData_reaches hup _ _
    case failed =>
      rw [← rdData_failed hread]
      exact hostRdData_reaches hup _ _
  case stale => exact fun tag gen err type data hup hbad => hostRdData_stale hup hbad
  case timeout => exact fun tag hup hread hdue => hostRdTimeout_due hup hread hdue
  case gather =>
    exact fun sq slot j need asked base got hjob hkind hshort hdown hdue => holdMsExpiry_gather hjob hdown hdue hkind hshort
  case report => exact fun sq slot j addr bs r0 r1 hjob hkind hdown hdue => holdMsExpiry_report hjob hdown hdue hkind

end Sys2Proof.Machine

/-! ## Mailboxes (R250, R269 to R272) -/

namespace Sys2Proof.Machine

/-! ### Words written by the host (R269, R270) -/

section
variable {s : State} (n : Fin 16) (v : BitVec 32) (hup : s.linkUp = true)
include hup

/-- A header or payload word of a free H mailbox is written, and the header sets full. -/
theorem mboxWr_written {o : BitVec 8} (halign : o.toNat % 4 = 0) (hword : o.toNat ≠ 252) (hfree : (s.mbox .h n).full = false) :
    execMboxWr .h n o v s = .next (commit s (s.setMbox .h n { s.mbox .h n with
      words := sset 0 (s.mbox .h n).words (o.toNat / 4) v, full := decide (o = 0) })) := by
  refine act_of_effect ?_
  simp only [hup, hfree, halign, hword, ne_eq, not_true_eq_false, Bool.not_true, Bool.false_eq_true, if_false, Bool.false_or]

theorem mboxWr_full (o : BitVec 8) (hfull : (s.mbox .h n).full = true) :
    execMboxWr .h n o v s = .next (commit s (s.setMbox .h n { s.mbox .h n with drop := true }).mboxDropped) := by
  refine act_of_effect ?_
  simp only [hup, hfull, Bool.not_true, Bool.false_eq_true, if_false, if_true]

theorem mboxWr_firmware (o : BitVec 8) : execMboxWr .f n o v s = .next (commit s s.mboxDropped) := by
  refine act_of_effect ?_
  simp only [hup, Bool.not_true, Bool.false_eq_true, if_false]

end

/-! ### Words read by the host (R244, R269, R270) -/

/-- LOCAL_RD_DATA with a word x (R244). -/
def State.readAnswer (s : State) (tag : BitVec 10) (x : Nat) : State :=
  s.hostMsg { type := 0x04, tag := tag.toNat, data := leBytes 4 x, len := 4 }

/-- The status word holds full and drop (R269). -/
theorem word_status (m : Mbox) : (m.word 252).toNat = m.full.toNat + m.drop.toNat * 2 := by
  have hfull : m.full.toNat ≤ 1 := Bool.toNat_le m.full
  have hdrop : m.drop.toNat ≤ 1 := Bool.toNat_le m.drop
  rw [Mbox.word, if_pos rfl, BitVec.toNat_ofNat, Nat.mod_eq_of_lt (by omega)]

theorem word_stored (m : Mbox) {o : Nat} (hword : o ≠ 252) : m.word o = sget 0 m.words (o / 4) := if_neg hword

theorem mboxRd_aligned (s : State) (m : Mbox) {o : Nat} (tag : BitVec 10) (halign : o % 4 = 0) :
    s.mboxRd m o tag = s.readAnswer tag (m.word o).toNat := by
  simp only [State.mboxRd, halign, if_true]
  rfl

/-- A read of a header or payload word. -/
theorem mboxRd_word (s : State) (m : Mbox) {o : BitVec 8} (tag : BitVec 10) (halign : o.toNat % 4 = 0) (hword : o ≠ 252) :
    s.mboxRd m o.toNat tag = s.readAnswer tag (sget 0 m.words (o.toNat / 4)).toNat := by
  have hstored : o.toNat ≠ 252 := fun h => hword (BitVec.eq_of_toNat_eq h)
  rw [mboxRd_aligned s m tag halign, word_stored m hstored]

section
variable {s : State} (n : Fin 16) (tag : BitVec 10) (hup : s.linkUp = true)
include hup

/-- The host is the receiver of an F mailbox: its read of the status word frees the box for the next message of firmware. -/
theorem mboxStatusRead_status :
    execMboxStatusRead .f n ⟨true, 252, tag⟩ s = .next (commit s
      (((s.readAnswer tag ((s.mbox .f n).full.toNat + (s.mbox .f n).drop.toNat * 2)).setMbox .f n
        { s.mbox .f n with full := false, drop := false }).fwFlush n)) := by
  rw [← word_status, ← mboxRd_aligned s (s.mbox .f n) tag (by decide)]
  refine act_of_effect ?_
  simp only [hup, decide_true, Bool.not_true, Bool.false_eq_true, if_false, if_true]

theorem mboxStatusRead_receiver {o : BitVec 8} (halign : o.toNat % 4 = 0) (hword : o ≠ 252) :
    execMboxStatusRead .f n ⟨true, o, tag⟩ s
      = .next (commit s (s.readAnswer tag (sget 0 (s.mbox .f n).words (o.toNat / 4)).toNat)) := by
  rw [← mboxRd_word s (s.mbox .f n) tag halign hword]
  refine act_of_effect ?_
  simp only [hup, hword, decide_false, Bool.not_true, Bool.false_eq_true, if_false]

theorem mboxStatusRead_sender {o : BitVec 8} (halign : o.toNat % 4 = 0) (hword : o ≠ 252) :
    execMboxStatusRead .h n ⟨false, o, tag⟩ s
      = .next (commit s (s.readAnswer tag (sget 0 (s.mbox .h n).words (o.toNat / 4)).toNat)) := by
  rw [← mboxRd_word s (s.mbox .h n) tag halign hword]
  exact act_of_effect (if_pos hup)

end

/-! ### The requests of the H mailboxes (R250, R272) -/

section
variable {s u : State} {n : Fin 16}

theorem sqOpen_opens (hasks : s.asks n 0x01 u) (hstatus : u.sqOpenStatus (s.asked n) = stOk) :
    let p := s.asked n
    execSqOpen n s = .next (commit s ((u.updSq (pf p 7 0) fun _ =>
      { isOpen := true, ctx := BitVec.ofNat 6 (pf p 13 8), cq := pf p 23 16, weight := BitVec.ofNat 4 (pf p 27 24), base := pf p 95 32,
        log2n := pf p 100 96 }).fwReply n (s.askSeq n) stOk [])) := by
  refine act_of_effect ((request_of_asks hasks _).trans ?_)
  simp only [hstatus, if_true]

theorem cqOpen_opens (hasks : s.asks n 0x03 u) (hstatus : u.cqOpenStatus (s.asked n) = stOk) :
    let p := s.asked n
    execCqOpen n s = .next (commit s ((u.updCq (pf p 7 0) fun _ =>
      { isOpen := true, vector := BitVec.ofNat 8 (pf p 23 16), base := pf p 95 32, log2n := pf p 100 96, evCount := pf p 119 112,
        evUs := pf p 127 120 }).fwReply n (s.askSeq n) stOk [])) := by
  refine act_of_effect ((request_of_asks hasks _).trans ?_)
  simp only [hstatus, if_true]

/-- An open ring stops fetching, its unstarted descriptors are fenced, and the instances armed from it are released. -/
theorem sqClose_closes (hasks : s.asks n 0x02 u) (hopen : (u.sq (pf (s.asked n) 7 0)).isOpen = true)
    (hlive : (u.sq (pf (s.asked n) 7 0)).closing = false) :
    let r := pf (s.asked n) 7 0
    let w := (u.updSq r fun x => { x with closing := true, closeSeq := s.askSeq n, closeBox := n }).fenceReady r
    execSqClose n s = .next (commit s
      (forEach ((w.tt.instances.filter fun i => (i.arming || i.state = .armed) && i.isLead && i.sq = r).map (·.id))
        (fun w id => w.release id false { status := stOk }) w).settleCloses) := by
  refine act_of_effect ((request_of_asks hasks _).trans ?_)
  simp only [hopen, hlive, Bool.not_true, Bool.false_eq_true, if_false]

/-- A completion ring that no open submission ring names closes, and the step records queued for it are discarded. -/
theorem cqClose_closes (hasks : s.asks n 0x04 u) (hopen : (u.cq (pf (s.asked n) 7 0)).isOpen = true)
    (hunnamed : ∀ e ∈ u.hst.sqs, ¬(e.2.isOpen = true ∧ e.2.cq = pf (s.asked n) 7 0)) :
    let r := pf (s.asked n) 7 0
    execCqClose n s = .next (commit s
      ((State.updCq { u with tt := { u.tt with stepQueue := u.tt.stepQueue.filter fun e => e.1 ≠ r } } r fun _ => {}).fwReply
        n (s.askSeq n) stOk [])) := by
  have hnone : (u.hst.sqs.any fun e => e.2.isOpen && e.2.cq = pf (s.asked n) 7 0) = false := by
    simpa using hunnamed
  refine act_of_effect ((request_of_asks hasks _).trans ?_)
  simp only [hopen, hnone, Bool.not_true, Bool.false_eq_true, if_false]

theorem ping_answered (hasks : s.asks n 0x05 u) (hlen : fieldNat (sget 0 (s.mbox .h n).words 0) 13 8 < 62) :
    execPing n s = .next (commit s (u.fwReply n (s.askSeq n) stOk
      (sgetRun 0 (s.mbox .h n).words 1 (fieldNat (sget 0 (s.mbox .h n).words 0) 13 8)))) :=
  act_of_effect ((request_of_asks hasks _).trans (if_neg (Nat.not_le.mpr hlen)))

end

/-- Settles O13: a word that the host writes or reads reaches its mailbox, and a request that passes its checks has its effect and is
answered. -/
theorem mailboxesServe : Obligations.MailboxesServe := by
  unfold Obligations.MailboxesServe
  refine ⟨fun s n v o hup => ⟨?written, ?full, ?firmware, fun tag => ?read⟩,
    fun s u n => ⟨?sqOpen, ?sqClose, ?cqOpen, ?cqClose, ?ping⟩⟩
  case written => exact mboxWr_written n v hup
  case full => exact mboxWr_full n v hup o
  case firmware => exact mboxWr_firmware n v hup o
  case read =>
    exact ⟨mboxStatusRead_status n tag hup, fun halign hword =>
      ⟨mboxStatusRead_receiver n tag hup halign hword, mboxStatusRead_sender n tag hup halign hword⟩⟩
  case sqOpen => exact sqOpen_opens
  case sqClose => exact sqClose_closes
  case cqOpen => exact cqOpen_opens
  case cqClose => exact cqClose_closes
  case ping => exact ping_answered

end Sys2Proof.Machine

/-! ## Ethernet ports (R287 to R291, R303) -/

namespace Sys2Proof.Machine

/-! ### The receive ring (R289) -/

/-- The address of the next receive entry of queue n. -/
def State.rxEntryAt (s : State) (n : Nat) : Nat :=
  fieldNat (s.ethQ n) 175 128 + 16 * ((s.ethRing n).rxNext % qSize (s.ethQ n))

/-- The next receive entry of queue n as its context reads it. -/
def State.rxEntry (s : State) (n : Nat) : ReadRes := s.readBytes (qCtx (s.ethQ n)) 0 false (s.rxEntryAt n) 8

/-- The buffer and the length that an entry names. -/
def entryBuf (r : ReadRes) : Nat := leNat r.bytes % 2 ^ 48
def entryLen (r : ReadRes) : Nat := leNat r.bytes / 2 ^ 48 % 2 ^ 14

/-- The next receive entry of queue n is free, and its buffer takes f; u is the state with the frame in the buffer. -/
structure State.RxFits (s : State) (n : Nat) (f : List Byte) (u : State) : Prop where
  read : (s.rxEntry n).fail = none
  entry : (s.rxEntry n).st.bufOk (qCtx (s.ethQ n)) true (s.rxEntryAt n) 16 = true
  free : (leNat (s.rxEntry n).bytes).testBit 62 = false
  room : f.length ≤ entryLen (s.rxEntry n)
  buffer : (s.rxEntry n).st.bufOk (qCtx (s.ethQ n)) true (entryBuf (s.rxEntry n)) f.length = true
  written : (s.rxEntry n).st.writeBytes (qCtx (s.ethQ n)) 0 false false (entryBuf (s.rxEntry n)) f = (u, none)

/-- From u, which holds frame f in its buffer, the receive entry of queue n is done, and the queue's sync object is raised. -/
def State.rxTakes (s : State) (n : Nat) (f : List Byte) (u : State) : State :=
  ((u.putEntry (qCtx (s.ethQ n)) (s.rxEntryAt n) (entryWith (entryBuf (s.rxEntry n)) f.length false)).syncAddIf
    (fieldNat (s.ethQ n) 220 208) (qCtx (s.ethQ n)) 1).updEth n fun x => { x with rxNext := x.rxNext + 1 }

theorem queueRx_of_rxFits {s u : State} {n : Nat} {f : List Byte} (h : s.RxFits n f u) :
    s.queueRx n (s.ethQ n) f = s.rxTakes n f u := by
  obtain ⟨hread, hentry, hfree, hroom, hbuffer, hwritten⟩ := h
  simp only [State.rxTakes, State.rxEntry, State.rxEntryAt, entryBuf, entryLen] at *
  simp only [State.queueRx, hread, hentry, hfree, hbuffer, hwritten, Nat.not_lt.mpr hroom, Option.isSome_none, Bool.not_true,
    Bool.false_eq_true, or_self, if_false]

/-! ### Frames in (R287, R288) -/

section
variable {s : State} {p : Fin 2} {f : List Byte} (hcompute : s.compute = true) (hup : sget false s.ethUp p = true)
include hcompute hup

theorem ethFrameReceive_bad {fcs : Bool} (hbad : fcs = false ∨ 9212 < f.length ∨ checksumsOk (netOf f) f = false) :
    execEthFrameReceive p fcs f s = .next (commit s (s.rxDrop p)) := by
  have hruns : ¬((!sget false s.ethUp p) = true ∨ (!s.compute) = true) := by simp [hup, hcompute]
  have hdrop : (!fcs) = true ∨ 9212 < f.length ∨ (!checksumsOk (netOf f) f) = true := by simpa using hbad
  exact act_of_effect ((if_neg hruns).trans (if_pos hdrop))

/-! A good frame that no stream takes goes to the management complex, to a queue, or nowhere. -/

variable (hlen : f.length ≤ 9212) (hsums : checksumsOk (netOf f) f = true)
  (hunsteered : (s.streams.find? fun x => steers x p (netOf f) f) = none)
include hlen hsums hunsteered

theorem ethFrameReceive_management (hmgmt : s.mgmtFrame p (netOf f) f = true) :
    execEthFrameReceive p true f s = .next (commit s { s with mgmtRx := s.mgmtRx ++ [f] }) :=
  act_of_effect (by simp [hcompute, hup, Nat.not_lt.mpr hlen, hsums, hunsteered, hmgmt])

theorem ethFrameReceive_queued {q : Nat} {u : State} (hmgmt : s.mgmtFrame p (netOf f) f = false)
    (hqueue : s.rxQueue p (netOf f) = some q) (hfits : s.RxFits q f u) :
    execEthFrameReceive p true f s = .next (commit s (s.rxTakes q f u)) :=
  act_of_effect (by simp [hcompute, hup, Nat.not_lt.mpr hlen, hsums, hunsteered, hmgmt, hqueue, queueRx_of_rxFits hfits])

theorem ethFrameReceive_unclaimed (hmgmt : s.mgmtFrame p (netOf f) f = false) (hqueue : s.rxQueue p (netOf f) = none) :
    execEthFrameReceive p true f s = .next (commit s (s.rxDrop p)) :=
  act_of_effect (by simp [hcompute, hup, Nat.not_lt.mpr hlen, hsums, hunsteered, hmgmt, hqueue])

end

/-! ### The transmit ring (R289, R291) -/

/-- The address of the next transmit entry of queue n. -/
def State.txEntryAt (s : State) (n : Nat) : Nat :=
  fieldNat (s.ethQ n) 111 64 + 16 * ((s.ethRing n).txSent % qSize (s.ethQ n))

/-- The next transmit entry of queue n, and the frame that it names, as the queue's context reads them. -/
def State.txEntry (s : State) (n : Nat) : ReadRes := s.readBytes (qCtx (s.ethQ n)) 0 false (s.txEntryAt n) 8
def State.txFrame (s : State) (n : Nat) : ReadRes :=
  (s.txEntry n).st.readBytes (qCtx (s.ethQ n)) 0 false (entryBuf (s.txEntry n)) (entryLen (s.txEntry n))

/-- Queue n is on, its link is up, and its sync object counts more frames than are sent (R289). -/
structure State.TxWaiting (s : State) (n : Nat) : Prop where
  on_ : qOn (s.ethQ n) = true
  up : sget false s.ethUp (qPort (s.ethQ n)) = true
  obj : s.objOk (fieldNat (s.ethQ n) 204 192) (qCtx (s.ethQ n)) = true
  counted : ((s.ethRing n).txSent : Int) < (s.obj (fieldNat (s.ethQ n) 204 192)).count

/-- The next transmit entry of queue n and its buffer can be read, and its length is that of a frame. -/
structure State.TxReadable (s : State) (n : Nat) : Prop where
  entryOpen : s.memWaits (s.txEntryAt n) 16 = false
  read : (s.txEntry n).fail = none
  entry : (s.txEntry n).st.bufOk (qCtx (s.ethQ n)) false (s.txEntryAt n) 16 = true
  least : 60 ≤ entryLen (s.txEntry n)
  most : entryLen (s.txEntry n) ≤ 9212
  bufferOpen : (s.txEntry n).st.memWaits (entryBuf (s.txEntry n)) (entryLen (s.txEntry n)) = false
  buffer : (s.txEntry n).st.bufOk (qCtx (s.ethQ n)) false (entryBuf (s.txEntry n)) (entryLen (s.txEntry n)) = true
  frame : (s.txFrame n).fail = none

/-- The next frame of queue n has gone out with its checksums filled, and its entry is done. -/
def State.txSentOut (s : State) (n : Nat) : State :=
  let d := s.txFrame n
  let u : State := { d.st with ethOut := d.st.ethOut ++ [(qPort (s.ethQ n), fillChecksums d.bytes)] }
  (u.putEntry (qCtx (s.ethQ n)) (s.txEntryAt n) (entryWith (entryBuf (s.txEntry n)) (entryLen (s.txEntry n)) false)).updEth n
    fun x => { x with txSent := (s.ethRing n).txSent + 1 }

theorem ethTransmit_sends {s : State} {q : Fin 32} (hcompute : s.compute = true) (hwaiting : s.TxWaiting q) (hreadable : s.TxReadable q) :
    execEthTransmit q s = .next (commit s (s.txSentOut q)) := by
  obtain ⟨hon, hup, hobj, hcounted⟩ := hwaiting
  obtain ⟨hentryOpen, hread, hentry, hleast, hmost, hbufferOpen, hbuffer, hframe⟩ := hreadable
  simp only [State.txFrame, State.txEntry, State.txEntryAt, entryBuf, entryLen] at *
  refine act_of_effect ?_
  simp only [hcompute, hon, hup, hobj, not_le.mpr hcounted, hentryOpen, hread, hentry, Nat.not_lt.mpr hleast, Nat.not_lt.mpr hmost,
    hbufferOpen, hbuffer, hframe, Option.isSome_none, Bool.not_true, Bool.false_eq_true, or_self, if_false]
  rfl

/-! ### The link (R303) -/

/-- A link's state is taken, and the groups of its streams are joined (R288, log 184). -/
theorem ethernetLinkChange_taken {s : State} (p : Fin 2) (up : Bool) (hcompute : s.compute = true) :
    execEthernetLinkChange p up s = .next (commit s
      (forEach (s.groups p) (fun s g => s.tellGroup true p g) { s with ethUp := sset false s.ethUp p.val up })) :=
  act_of_effect (by simp [hcompute])

/-- Settles O30: a frame goes by the first path that takes it, an entry that is ready goes out, and a link's change is taken. -/
theorem ethernetMovesFrames : Obligations.EthernetMovesFrames := by
  unfold Obligations.EthernetMovesFrames
  intro s hcompute
  refine ⟨?frames, ?transmit, ?link⟩
  case frames =>
    intro p f n hup
    refine ⟨fun hlen hsums => ⟨?steered, ?management, ?queued, ?unclaimed⟩, fun fcs hbad => ethFrameReceive_bad hcompute hup hbad⟩
    case steered => exact fun x hsteered hruns => ethFrameReceive_steered hcompute hruns hup hlen hsums hsteered
    case management => exact fun hunsteered hmgmt => ethFrameReceive_management hcompute hup hlen hsums hunsteered hmgmt
    case queued =>
      intro q u hunsteered hmgmt hqueue w a r e buf hread hentry hfree hroom hbuffer hwritten
      exact ethFrameReceive_queued hcompute hup hlen hsums hunsteered hmgmt hqueue
        ⟨hread, hentry, hfree, hroom, hbuffer, hwritten⟩
    case unclaimed => exact fun hunsteered hmgmt hqueue => ethFrameReceive_unclaimed hcompute hup hlen hsums hunsteered hmgmt hqueue
  case transmit =>
    intro q w sent a r e buf len d u hon hlink hobj hcounted hentryOpen hread hentry hleast hmost hbufferOpen hbuffer hframe
    exact ethTransmit_sends hcompute ⟨hon, hlink, hobj, hcounted⟩
      ⟨hentryOpen, hread, hentry, hleast, hmost, hbufferOpen, hbuffer, hframe⟩
  case link => exact fun p up => ethernetLinkChange_taken p up hcompute

end Sys2Proof.Machine

/-! ## Torus and pair ports (R279, R281 to R286, R308, R531, R574) -/

namespace Sys2Proof.Machine

/-! ### Training (R281 to R285) -/

/-- The set of lanes a port takes of those that pass, none of which its fuses mark bad (R281). -/
def passedSet (port : Nat) (pass : BitVec 8) : Nat × BitVec 8 := laneSet port (pass &&& ~~~(fusedLanes port))

/-- The length of the cable of a port of which lanes pass (R283). -/
def State.trainedCm (s : State) (port : Nat) (pass : BitVec 8) (delayPs : Nat) : Nat :=
  if (passedSet port pass).1 = 0 then 0 else s.cableCm delayPs

/-- The lanes that carry after training: none over a cable too long (R283). -/
def State.trainedLanes (s : State) (port : Nat) (pass : BitVec 8) (delayPs : Nat) : Nat :=
  if 210 < s.trainedCm port pass delayPs then 0 else (passedSet port pass).1

/-- The port has taken its set; the pair link is up where the pair port has lanes (R281, R283, R285). -/
def State.lanesTaken (s : State) (port : Nat) (pass : BitVec 8) (delayPs : Nat) : State :=
  let cm := s.trainedCm port pass delayPs
  let lanes := s.trainedLanes port pass delayPs
  let u := s.updPort port fun p =>
    { p with lanes := lanes, mask := if 210 < cm then 0 else (passedSet port pass).2, cableCm := cm, overLength := decide (210 < cm),
             training := decide (lanes = 0 ∧ cm ≤ 210), present := false, foreign := false, segments := [], lcbWait := [],
             nextExchange := s.now + msTicks 1000 }
  if port = 6 then { u with fab := { u.fab with pairUp := decide (lanes ≠ 0) } } else u

section
variable {s : State} {port : Fin 7} (hup : s.agentUp = true)
include hup

theorem portTraining_trains (pass : BitVec 8) (delayPs : Nat) (htraining : (s.port port).training = true)
    (hfree : (s.port port).held = false) (hruns : s.portResetting port = false) (hcable : s.cabled port = true) :
    execPortTraining port pass delayPs s = .next (commit s
      (State.pathReport (if s.trainedLanes port pass delayPs = 0 then s.lanesTaken port pass delayPs
        else (s.lanesTaken port pass delayPs).sendRecord port) none port (s.trainedLanes port pass delayPs))) := by
  have hgoes : ¬((!s.agentUp) = true ∨ (!(s.port port).training) = true ∨ (s.port port).held = true
      ∨ s.portResetting port = true ∨ (!s.cabled port) = true) := by simp [hup, htraining, hfree, hruns, hcable]
  refine act_of_effect ((if_neg hgoes).trans ?_)
  have hagain : decide (s.trainedLanes port pass delayPs = 0 ∧ (!decide (210 < s.trainedCm port pass delayPs)) = true)
      = decide (s.trainedLanes port pass delayPs = 0 ∧ s.trainedCm port pass delayPs ≤ 210) := by simp
  simp only [State.lanesTaken, ← hagain]
  simp only [State.trainedLanes, State.trainedCm, passedSet, decide_eq_true_eq]
  rfl

/-! ### The partner exchange (R284, R308) -/

theorem partnerExchangeTimer_due (hlanes : (s.port port).lanes ≠ 0) (htrained : (s.port port).training = false)
    (hdue : (s.port port).nextExchange ≤ s.now) : execPartnerExchangeTimer port s = .next (commit s (s.sendRecord port)) :=
  act_of_effect (by simp [hup, hlanes, htrained, Nat.not_lt.mpr hdue])

/-- The segments of the partner's record at a port once block b has come. -/
def State.segmentsWith (s : State) (port : Nat) (b : BitVec 512) : List (Nat × BitVec 256) :=
  (s.port port).segments.filter (fun x => x.1 ≠ fieldNat b 13 12) ++ [(fieldNat b 13 12, slice b 128 256)]

variable {b : BitVec 512} (hon : s.portOn port = true) (hblock : lcbOk b 1 = true)
include hon hblock

theorem partnerRecordSegment_completes {r0 r1 r2 r3 : BitVec 256} (h0 : lfind (s.segmentsWith port b) 0 = some r0)
    (h1 : lfind (s.segmentsWith port b) 1 = some r1) (h2 : lfind (s.segmentsWith port b) 2 = some r2)
    (h3 : lfind (s.segmentsWith port b) 3 = some r3) :
    execPartnerRecordSegment port b s = .next (commit s (s.partnerRecord port (r3 ++ r2 ++ r1 ++ r0))) := by
  simp only [State.segmentsWith] at h0 h1 h2 h3
  refine act_of_effect ?_
  simp only [hup, hon, hblock, h0, h1, h2, h3, Bool.not_true, Bool.false_eq_true, or_self, if_false]

theorem partnerRecordSegment_waits (hmissing : ∃ k ∈ [0, 1, 2, 3], lfind (s.segmentsWith port b) k = none) :
    execPartnerRecordSegment port b s = .next (commit s (s.updPort port fun p => { p with segments := s.segmentsWith port b })) := by
  refine act_of_effect ?_
  simp only [hup, hon, hblock, Bool.not_true, Bool.false_eq_true, or_self, if_false]
  split
  next h0 h1 h2 h3 =>
    simp only [List.mem_cons, List.not_mem_nil, or_false, exists_eq_or_imp, exists_eq_left, State.segmentsWith, h0, h1, h2, h3,
      reduceCtorEq, or_self] at hmissing
  next => rfl

end

/-! ### Retraining (R279, R282, R308) -/

section
variable {s : State} {p : Fin 6} (hup : s.agentUp = true)
include hup

theorem laneLockLoss_retrains {l : Fin 8} (hlane : bitAt (s.port p).mask l = true) :
    execLaneLockLoss p l s = .next (commit s (s.retrain p true)) :=
  act_of_effect (if_pos ⟨hup, hlane⟩)

variable (hon : s.portOn p = true)
include hon

theorem retrainRequest_retrains {b : BitVec 512} (hours : (s.port p).foreign = false) (hblock : lcbOk b 2 = true) :
    execRetrainRequest p b s = .next (commit s (s.retrain p false)) :=
  act_of_effect (if_pos ⟨hup, hon, by simp [hours], hblock⟩)

/-- The codewords of a burst are counted, and more than 16 retrain the port (R279). -/
theorem fecBurst_counted (n : Nat) :
    let u : State := { s with cnt := { s.cnt with
      fecUncorr := sset 0 s.cnt.fecUncorr p (satAdd 16 (sget 0 s.cnt.fecUncorr p) n) } }
    execFecBurst p n s = .next (commit s (if 16 < n then u.retrain p true else u)) :=
  act_of_effect (if_neg (by simp [hup, hon]))

end

/-! ### The pair link (R285, R286, R531) -/

theorem pairLinkChange_taken {s : State} (hup : s.agentUp = true) {up : Bool} (hlanes : up = true → (s.port 6).lanes ≠ 0) :
    execPairLinkChange up s = .next (commit s { s with
      fab := { s.fab with pairUp := up }, fw := if up then s.fw else { s.fw with partnerState := 0, partnerAt := 0 } }) :=
  act_of_effect (if_neg (by simpa [hup] using hlanes))

/-! ### The cages (R574) -/

/-- The cages once a cable is put into cage c, and once it is taken out. -/
def State.cableIn (s : State) (c : Nat) : State := { s with sup := { s.sup with cages := s.sup.cages ++ [c] } }
def State.cableOut (s : State) (c : Nat) : State := { s with sup := { s.sup with cages := s.sup.cages.filter fun x => x ≠ c } }

section
variable {s : State} {c : Fin 10}

section
variable (hempty : s.cabled c = false)
include hempty

theorem cagePresenceChange_noPort (hbeyond : 7 ≤ c.val) : execCagePresenceChange c true s = .next (commit s (s.cableIn c)) :=
  act_of_effect (by simp [hempty, hbeyond, State.cableIn])

/-- A port whose cage takes a cable trains (R574). -/
theorem cagePresenceChange_trains (hup : s.agentUp = true) (hport : c.val < 7) (hstage : 6 ≤ s.boot.stage)
    (hfree : (s.port c).held = false) :
    execCagePresenceChange c true s = .next (commit s ((s.cableIn c).updPort c fun p => { p with training := true })) := by
  have hchange : ¬s.cabled c = true := by simp [hempty]
  exact act_of_effect ((if_neg hchange).trans ((if_neg (Nat.not_le.mpr hport)).trans ((if_pos rfl).trans
    (if_pos ⟨hup, .inl hstage, (Bool.not_eq_true' _).mpr hfree⟩))))

end

variable (hcable : s.cabled c = true)
include hcable

/-- A port whose cage loses its cable has no lanes, and says so where it had some (R574). -/
theorem cagePresenceChange_uncables (hup : s.agentUp = true) (hport : c.val < 7) :
    execCagePresenceChange c false s = .next (commit s
      (if (s.port c).lanes ≠ 0 then ((s.cableOut c).uncable c).pathReport none c 0 else (s.cableOut c).uncable c)) := by
  have hchange : ¬s.cabled c = false := by simp [hcable]
  refine act_of_effect ((if_neg hchange).trans ((if_neg (Nat.not_le.mpr hport)).trans ((if_neg Bool.false_ne_true).trans ?_)))
  by_cases hlanes : (s.port c).lanes = 0
  · exact (if_neg fun h => h.2 hlanes).trans (if_neg (not_not.mpr hlanes)).symm
  · exact (if_pos ⟨hup, hlanes⟩).trans (if_pos hlanes).symm

theorem cagePresenceChange_ethernet (hfirst : 7 ≤ c.val) (hlast : c.val < 9) :
    execCagePresenceChange c false s = .next (commit s { s.cableOut c with ethUp := sset false s.ethUp (c.val - 7) false }) := by
  have hhawser : c.val ≠ 9 := by omega
  exact act_of_effect (by simp [hcable, hfirst, hhawser, State.cableOut])

end

/-- Settles O34: each event of a port, the pair link, a cage or an Ethernet port has the effect its own lemma says. -/
theorem portsTrainAndExchange : Obligations.PortsTrainAndExchange := by
  unfold Obligations.PortsTrainAndExchange
  intro s port p hup
  refine ⟨?training, fun l hlane => laneLockLoss_retrains hup hlane, fun b hon hours hblock => retrainRequest_retrains hup hon hours hblock,
    fun n hon => fecBurst_counted hup hon n, fun hlanes htrained hdue => partnerExchangeTimer_due hup hlanes htrained hdue, ?segment,
    fun up hlanes => pairLinkChange_taken hup hlanes, fun c hempty hbeyond => cagePresenceChange_noPort hempty hbeyond,
    fun c hcable hport => cagePresenceChange_uncables hcable hup hport,
    fun c hempty hport hstage hfree => cagePresenceChange_trains hempty hup hport hstage hfree,
    fun c hcable hfirst hlast => cagePresenceChange_ethernet hcable hfirst hlast,
    fun p up hcompute => ethernetLinkChange_taken p up hcompute, ?transmit⟩
  case training =>
    exact fun pass d htraining hfree hruns hcable => portTraining_trains hup pass d htraining hfree hruns hcable
  case segment =>
    exact fun b hon hblock => ⟨fun r0 r1 r2 r3 h0 h1 h2 h3 => partnerRecordSegment_completes hup hon hblock h0 h1 h2 h3,
      fun hmissing => partnerRecordSegment_waits hup hon hblock hmissing⟩
  case transmit =>
    intro q w sent a r buf len d u hcompute hon hlink hobj hcounted hentryOpen hread hentry hleast hmost hbufferOpen hbuffer hframe
    exact ethTransmit_sends hcompute ⟨hon, hlink, hobj, hcounted⟩
      ⟨hentryOpen, hread, hentry, hleast, hmost, hbufferOpen, hbuffer, hframe⟩

end Sys2Proof.Machine

/-! ## The management chain and its reference (R292 to R299, R405, R462, R491, R562) -/

namespace Sys2Proof.Machine

/-! ### What becomes of a frame (R292, R293, R295) -/

/-- A good frame from another end that names this module alone comes through open relays to a running agent. -/
structure State.TowReaches (s : State) (f : BitVec 128) : Prop where
  relays : s.tow.culvertOpen = true
  up : s.agentUp = true
  good : towOk f = true
  other : s.towOwn f = false
  mine : s.towMine f = true

section
variable {s : State} {f : BitVec 128} {type : Nat} {all : Bool} {eff : State → State}

/-- Closed relays pass every frame on. -/
theorem towTake_of_closed (hclosed : s.tow.culvertOpen = false) : s.towTake f type all eff = s.towPass f := by
  simp [State.towTake, hclosed]

theorem towTake_of_reaches (hreaches : s.TowReaches f) (htype : fType f = type) : s.towTake f type all eff = eff s := by
  obtain ⟨hopen, hup, hgood, hother, hmine⟩ := hreaches
  simp [State.towTake, hopen, hup, hgood, hother, hmine, htype]

/-- A good frame between other ends goes on. -/
theorem towTake_of_foreign (hopen : s.tow.culvertOpen = true) (hup : s.agentUp = true) (hgood : towOk f = true) (hother : s.towOwn f = false)
    (hforeign : s.towMine f = false) (hnamed : fieldNat f 39 24 ≠ towAll) (htype : fType f = type) :
    s.towTake f type all eff = s.towPass f := by
  simp [State.towTake, hopen, hup, hgood, hother, hforeign, hnamed, htype]

end

/-! ### Closed relays (R295) -/

section
variable {s : State} {f : BitVec 128} (hclosed : s.tow.culvertOpen = false)
include hclosed

theorem towTakeRow_closed (type : Nat) (all : Bool) (eff : State → State) :
    act (fun s => s.towTake f type all eff) s = .next (commit s (s.towPass f)) := act_of_effect (towTake_of_closed hclosed)

theorem resetReqCold_closed : execResetReqCold f s = .next (commit s (s.towPass f)) :=
  act_of_effect ((if_neg (by simp [hclosed])).trans (towTake_of_closed hclosed))

theorem resetReqWarm_closed : execResetReqWarm f s = .next (commit s (s.towPass f)) :=
  act_of_effect ((if_neg (by simp [hclosed])).trans (towTake_of_closed hclosed))

theorem towpathForward_closed : execTowpathForward f s = .next (commit s (s.towPass f)) :=
  act_of_effect (by simp [hclosed, towTake_of_closed hclosed])

end

/-! ### Frames that name this module (R293, R294, R405, R462, R562) -/

section
variable {s : State} {f : BitVec 128} (hreaches : s.TowReaches f)
include hreaches

theorem rollCall_answered (htype : fType f = 0x01) : execRollCall f s = .next (commit s s.sendPresent) :=
  act_of_effect (towTake_of_reaches hreaches htype)

theorem wm_taken (htype : fType f = 0x07) : execWm f s = .next (commit s (s.wmSegment f)) :=
  act_of_effect (towTake_of_reaches hreaches htype)

theorem ack_taken (htype : fType f = 0x08) :
    execAck f s = .next (commit s { s with tow := { s.tow with tx := s.tow.tx.filter fun t =>
      !(decide (towEnd t.dst = fieldNat f 23 8) && decide (t.seq = fPay f % 256)
        && t.frames.all fun g => decide (fType g = fPay f / 256 % 256)) } }) :=
  act_of_effect (towTake_of_reaches hreaches htype)

theorem freeze_refused (htype : fType f = 0x05) (hdenied : s.towAuth f = false) : execFreeze f s = .next (commit s s.towRefuse) :=
  act_of_effect ((towTake_of_reaches hreaches htype).trans (if_neg (by simp [hdenied])))

variable (hauth : s.towAuth f = true)
include hauth

theorem freeze_obeyed (htype : fType f = 0x05) : execFreeze f s = .next (commit s ((s.towAck f).freezeNow 0x02)) :=
  act_of_effect ((towTake_of_reaches hreaches htype).trans (if_pos hauth))

theorem resetReqCold_obeyed (htype : fType f = 0x06) (hkind : fPay f / 2 ^ 32 % 4 = 0) :
    execResetReqCold f s = .next (commit s ((s.towAck f).startCold false false)) := by
  have hcold : ¬(fPay f / 2 ^ 32 % 4 = 1 ∧ s.tow.culvertOpen = true) := by omega
  exact act_of_effect (((if_neg hcold).trans (towTake_of_reaches hreaches htype)).trans (if_pos ⟨hauth, hkind⟩))

theorem resetReqWarm_obeyed (htype : fType f = 0x06) (hkind : fPay f / 2 ^ 32 % 4 = 1) :
    execResetReqWarm f s = .next (commit s ((s.towAck f).requestReset .compute 0x04 [] true false)) := by
  have hwarm : ¬(fPay f / 2 ^ 32 % 4 ≠ 1 ∧ s.tow.culvertOpen = true) := by omega
  exact act_of_effect (((if_neg hwarm).trans (towTake_of_reaches hreaches htype)).trans (if_pos hauth))

end

/-! ### What the module sends in its time, and passes on (R292, R293, R295, R405, R491) -/

/-- A message is sent again: its frames go out once more, and its time starts anew (R405). -/
def State.repeatSend (s : State) (t : TowTx) : State :=
  { s with tow := { s.tow with
    out := s.tow.out ++ t.frames, tx := s.tow.tx.map fun x => if x = t then { t with at_ := s.now, tries := t.tries + 1 } else x } }

section
variable {s : State} (hup : s.agentUp = true)
include hup

theorem presentTimer_due (hdue : s.tow.presentAt + msTicks 1000 ≤ s.now) : execPresentTimer s = .next (commit s s.sendPresent) :=
  act_of_effect (if_pos ⟨hup, hdue⟩)

theorem alertRepeat_due {c : BitVec 8} (hlasts : s.tow.alerts.contains c = true)
    (hdue : sget 0 s.tow.alertAt c.toNat + msTicks 10 ≤ s.now) :
    execAlertRepeat c s = .next (commit s (State.towSend
      { s with tow := { s.tow with alertAt := sset 0 s.tow.alertAt c.toNat s.now } } 0x03 towAll c.toNat)) :=
  act_of_effect (if_pos ⟨hup, hlasts, hdue⟩)

theorem stageRepeat_due (hstage : fieldNat s.boot.report 7 0 ≠ 9) (hdue : s.tow.stageAt + msTicks 100 ≤ s.now) :
    execStageRepeat s = .next (commit s
      (State.towSend { s with tow := { s.tow with stageAt := s.now } } 0x04 towAll s.boot.report.toNat)) :=
  act_of_effect (if_pos ⟨hup, hstage, hdue⟩)

variable (hopen : s.tow.culvertOpen = true)
include hopen

theorem towpathForward_passes {f : BitVec 128} (hgood : towOk f = true) (hother : s.towOwn f = false) (hforeign : s.towMine f = false)
    (hnamed : fieldNat f 39 24 ≠ towAll) (htype : fType f ≠ 0x02) : execTowpathForward f s = .next (commit s (s.towPass f)) :=
  act_of_effect (by simp [hforeign, hnamed, htype, towTake_of_foreign hopen hup hgood hother hforeign hnamed])

theorem wmMessageResend_due {n : BitVec 16} {t : TowTx}
    (hsent : (s.tow.tx.find? fun t => t.msgId = n.toNat && t.frames.all fun g => decide (fType g = 0x07)) = some t)
    (hdue : t.at_ + msTicks 10 ≤ s.now) (htries : t.tries < 6) : execWmMessageResend n s = .next (commit s (s.repeatSend t)) :=
  act_of_effect (by simp [hsent, hup, hopen, Nat.not_lt.mpr hdue, Nat.not_le.mpr htries, State.repeatSend])

theorem towpathCommandResend_sends {q : BitVec 8} {t : TowTx}
    (hsent : (s.tow.tx.find? fun t => t.seq = q.toNat && t.frames.all fun g => decide (fType g = 0x05 ∨ fType g = 0x06)) = some t) :
    execTowpathCommandResend q s = .next (commit s (s.repeatSend t)) :=
  act_of_effect (by simp only [hsent, hup, hopen, Bool.not_true, Bool.false_eq_true, or_self, if_false, State.repeatSend])

end

/-! ### Frame markers (R297 to R299) -/

/-- The tick count is that of the frame which word w names. -/
def State.tickFrom (s : State) (w : BitVec 64) : State :=
  { s with time := { s.time with tick := 16384 * w.toNat, tickSet := true, badFrames := 0 } }

section
variable {s : State} (hup : s.agentUp = true)
include hup

theorem refclkLoss_loses : execRefclkLoss s = .next (commit s s.refLoss) := act_of_effect (if_pos hup)

section
variable (hheld : s.time.refLost = false)
include hheld

theorem frameMarker_missing : execFrameMarker none s = .next (commit s s.badMarker) := act_of_effect (by simp [hup, hheld])

theorem frameMarker_first (w : BitVec 64) (hunset : s.time.tickSet = false) :
    execFrameMarker (some w) s = .next (commit s (s.tickFrom w)) :=
  act_of_effect (by simp [hup, hheld, hunset, State.tickFrom, frameTicks])

variable {w : BitVec 64} (hset : s.time.tickSet = true)
include hset

theorem frameMarker_onTime (htick : s.time.tick = 16384 * w.toNat) :
    execFrameMarker (some w) s = .next (commit s { s with time := { s.time with badFrames := 0 } }) :=
  act_of_effect (by simp [hup, hheld, hset, htick, frameTicks])

theorem frameMarker_offTick (htick : s.time.tick ≠ 16384 * w.toNat) : execFrameMarker (some w) s = .next (commit s s.badMarker) :=
  act_of_effect (by simp [hup, hheld, hset, htick, frameTicks])

end

/-! While the reference is lost, a good marker is timed, and any other ends the time of its validity (R299). -/

variable (hlost : s.time.refLost = true)
include hlost

theorem frameMarker_timed (w : BitVec 64) :
    execFrameMarker (some w) s = .next (commit s (State.timeValid (if s.time.tickSet then s else s.tickFrom w) w)) := by
  refine act_of_effect ?_
  cases s.time.tickSet <;> simp [hup, hlost, State.tickFrom, frameTicks]

theorem frameMarker_interrupted :
    execFrameMarker none s = .next (commit s { s with time := { s.time with validSince := none, word := none } }) :=
  act_of_effect (by simp [hup, hlost])

/-- A tick count behind the frame steps forward and the recovery ends; one ahead of it is held for the difference (R299). -/
theorem referenceRecovery_agrees {r : BitVec 64} {t : Nat} (hvalid : s.time.validSince = some t) (hhold : s.time.hold = 0)
    (hdue : t + s.recoverTicks ≤ s.now) :
    execReferenceRecovery r s = .next (commit s
      (if s.time.tickSet = false ∨ s.time.tick ≤ 16384 * r.toNat then
        State.refBack { s with time := { s.time with tick := 16384 * r.toNat, tickSet := true } }
      else { s with time := { s.time with hold := s.time.tick - 16384 * r.toNat } })) :=
  act_of_effect (by simp [hup, hlost, hvalid, hhold, Nat.not_lt.mpr hdue, frameTicks])

end

/-- Settles O41: a frame is passed on or has its effect by `State.towTake`; timers, resends and markers act by their own lemmas. -/
theorem managementChainActs : Obligations.ManagementChainActs := by
  unfold Obligations.ManagementChainActs
  refine ⟨?closed, ?frames, ?timers⟩
  case closed =>
    exact fun s f hclosed => ⟨towTakeRow_closed hclosed 0x01 true _, towTakeRow_closed hclosed 0x05 false _, resetReqCold_closed hclosed,
      resetReqWarm_closed hclosed, towTakeRow_closed hclosed 0x07 true _, towTakeRow_closed hclosed 0x08 false _,
      towpathForward_closed hclosed⟩
  case frames =>
    intro s f hopen hup hgood hother hmine
    have hreaches : s.TowReaches f := ⟨hopen, hup, hgood, hother, hmine⟩
    exact ⟨rollCall_answered hreaches, fun htype hauth => freeze_obeyed hreaches hauth htype, freeze_refused hreaches,
      fun htype hauth hkind => resetReqCold_obeyed hreaches hauth htype hkind,
      fun htype hauth hkind => resetReqWarm_obeyed hreaches hauth htype hkind, wm_taken hreaches, ack_taken hreaches⟩
  case timers =>
    intro s hup
    refine ⟨presentTimer_due hup, fun c hlasts hdue => alertRepeat_due hup hlasts hdue, stageRepeat_due hup,
      fun f hopen hgood hother hforeign hnamed htype => towpathForward_passes hup hopen hgood hother hforeign hnamed htype,
      fun n t hsent hopen hdue htries => wmMessageResend_due hup hopen hsent hdue htries,
      fun q t hsent hopen => towpathCommandResend_sends hup hopen hsent, fun w hheld => ?markers,
      fun w hlost => ⟨frameMarker_timed hup hlost w, frameMarker_interrupted hup hlost⟩, refclkLoss_loses hup,
      fun r t hvalid hlost hhold hdue => referenceRecovery_agrees hup hlost hvalid hhold hdue⟩
    case markers =>
      exact ⟨frameMarker_first hup hheld w, frameMarker_onTime hup hheld, frameMarker_offTick hup hheld, frameMarker_missing hup hheld⟩

end Sys2Proof.Machine

/-! ## A step with no command waiting (R297, R299, log 2) -/

namespace Sys2Proof.Machine

theorem step_of_empty {s : State} (hempty : s.pending = []) : step s = .next (commit s s.idle) := by
  rw [step, hempty]
  rfl

/-- What keeps the queue, set-up and the cold resets counted is committed as it is. -/
theorem commit_of_kept {s t : State} (hcolds : t.rst.colds = s.rst.colds) (hpending : t.pending = s.pending) (hsetup : t.setup = s.setup)
    (herr : t.setupErr = s.setupErr) : commit s t = t := by
  rw [commit, if_pos hcolds, ← hpending, ← hsetup, ← herr]

theorem idle_of_stopped {s : State} (hstopped : s.frz.frozen = true ∨ s.rst.cold = true) :
    s.idle = { s with time := { s.time with clock := s.time.clock + 1, live := s.time.live + 1 } } := if_pos hstopped

theorem idle_of_running {s : State} (hthawed : s.frz.frozen = false) (hwarmed : s.rst.cold = false) :
    s.idle = ((((((s.timePasses).computeGoesOn).pumpHeld).pumpInject).pumpReds).slotStarts).stateReport :=
  if_neg (by simp [hthawed, hwarmed])

theorem timePasses_tick_of_unset {s : State} (hunset : s.time.tickSet = false) : s.timePasses.time.tick = s.time.tick := by
  simp [State.timePasses, hunset]

theorem timePasses_tick_of_set {s : State} (hset : s.time.tickSet = true) (hhold : s.time.hold = 0) :
    s.timePasses.time.tick = (s.time.tick + 1) % 2 ^ 64 := by
  simp [State.timePasses, hset, hhold]

/-- Settles O49: an empty queue steps by `State.idle`, by whether the module is stopped. -/
theorem emptyQueueTicks : Obligations.EmptyQueueTicks := by
  unfold Obligations.EmptyQueueTicks
  refine fun s hempty => ⟨fun hstopped => ?stopped, fun hthawed hwarmed => ?running, timePasses_tick_of_unset, timePasses_tick_of_set⟩
  case stopped =>
    rw [step_of_empty hempty, idle_of_stopped hstopped]
    exact congrArg _ (commit_of_kept rfl rfl rfl rfl)
  case running => rw [step_of_empty hempty, idle_of_running hthawed hwarmed]

end Sys2Proof.Machine

/-! ## The machine right after reset (R298, R359, R412, R461, R477, R547, R548) -/

namespace Sys2Proof.Machine

theorem reset_word (off : Nat) : State.reset.word off = resetWord off := rfl

theorem reset_unlocked : State.reset.locked = false := by
  rw [State.locked, State.fld, reset_word]
  decide

theorem reset_ctx_live (c : Nat) : (State.reset.ctx c).live = decide (c = 0) := by
  cases c with
  | zero => rfl
  | succ c => rfl

/-- Settles O52: the tables of the reset state read as their defaults, and set-up as its reset words. -/
theorem resetState : Obligations.ResetState := by
  unfold Obligations.ResetState
  exact ⟨reset_word, reset_unlocked, rfl, rfl, fun _ => rfl, reset_ctx_live, fun _ => ⟨rfl, rfl⟩, rfl, rfl, rfl, rfl, rfl, rfl,
    rfl, rfl⟩

end Sys2Proof.Machine

/-! ## The queue and the canonical form of set-up under a step (R544, R547, R548, log 147) -/

namespace Sys2Proof.Machine

/-! ### The queue (log 147) -/

/-- Settles O48: a step takes the command in front of the queue. -/
theorem frontCommandRuns : Obligations.FrontCommandRuns := by
  unfold Obligations.FrontCommandRuns
  exact fun _ _ _ => rfl

/-- Every outcome of a command is committed, or is that of a register write, and both leave the queue alone. -/
theorem exec_pending {c : Instr} {s t : State} (h : exec c s = .next t) : t.pending = s.pending := by
  rcases exec_shape c s with ⟨u, hcommit⟩ | ⟨off, v, hwritten⟩ | hfault
  · cases h.symm.trans hcommit
    exact commit_pending s u
  · cases h.symm.trans hwritten
    rfl
  · cases h.symm.trans hfault

/-- Settles O51: by the three shapes of a command's outcome. -/
theorem commandsKeepTheQueue : Obligations.CommandsKeepTheQueue := by
  unfold Obligations.CommandsKeepTheQueue
  exact fun _ _ _ => exec_pending

/-! ### What a step does to set-up (R544, R547) -/

/-- Set-up from s to t: without a cold reset it stands, or takes one write while the lock is clear; a cold reset clears it. -/
inductive SetupStep (s t : State) : Prop
  | stands (hcolds : t.rst.colds = s.rst.colds) (hsetup : t.setup = s.setup)
  | wrote (hcolds : t.rst.colds = s.rst.colds) (hlock : s.locked = false) (off : Nat) (w : BitVec 32)
      (hsetup : t.setup = sset (resetWord off) s.setup off w)
  | cold (hcolds : t.rst.colds ≠ s.rst.colds) (hsetup : t.setup = [])

theorem exec_setupStep {c : Instr} {s t : State} (h : exec c s = .next t) : SetupStep s t := by
  rcases exec_setup c s t h with ⟨hcolds, hsetup | ⟨hlock, off, w, hsetup⟩⟩ | ⟨hcolds, hsetup⟩
  · exact .stands hcolds hsetup
  · exact .wrote hcolds hlock off w hsetup
  · exact .cold hcolds hsetup

theorem commit_setupStep (s u : State) : SetupStep s (commit s u) := by
  by_cases hcolds : u.rst.colds = s.rst.colds
  · exact .stands (by rw [commit_rst, hcolds]) (commit_setup_of_eq hcolds)
  · exact .cold (by rwa [commit_rst]) (by rw [commit, if_neg hcolds])

/-- A step is a tick, which is committed, or a command over the same set-up. -/
theorem step_setupStep {s t : State} (h : step s = .next t) : SetupStep s t := by
  unfold step at h
  split at h
  case h_1 =>
    cases h
    exact commit_setupStep s s.idle
  case h_2 c rest hpending =>
    cases exec_setupStep h with
    | stands hcolds hsetup => exact .stands hcolds hsetup
    | wrote hcolds hlock off w hsetup => exact .wrote hcolds hlock off w hsetup
    | cold hcolds hsetup => exact .cold hcolds hsetup

theorem word_of_setup_eq {s t : State} (hsetup : t.setup = s.setup) (off : Nat) : t.word off = s.word off := by
  rw [State.word, State.word, hsetup]

theorem locked_of_setup_eq {s t : State} (hsetup : t.setup = s.setup) : t.locked = s.locked := by
  rw [State.locked, State.locked, State.fld, State.fld, word_of_setup_eq hsetup]

theorem word_of_setup_nil {t : State} (hsetup : t.setup = []) (off : Nat) : t.word off = resetWord off := by
  rw [State.word, hsetup]
  rfl

theorem locked_of_setup_nil {t : State} (hsetup : t.setup = []) : t.locked = false := by
  rw [State.locked, State.fld, word_of_setup_nil hsetup]
  decide

/-- Settles O53: set-up stands, takes one word in its place, or is cleared. -/
theorem setupStaysCanonical : Obligations.SetupStaysCanonical := by
  unfold Obligations.SetupStaysCanonical
  intro s t hcan hstep
  cases step_setupStep hstep with
  | stands _ hsetup => rwa [hsetup]
  | wrote _ _ off w hsetup =>
    rw [hsetup]
    exact setupCanonical_sset off w s.setup 0 hcan (Nat.zero_le off)
  | cold _ hsetup =>
    rw [hsetup]
    rfl

end Sys2Proof.Machine

/-! ## Refused writes and the lock (R543 to R545, R547) -/

namespace Sys2Proof.Machine

/-! ### A refusal is recorded (R545) -/

/-- Where the register write is a refusal, the command records it and leaves the registers. -/
theorem written_refused {s : State} {off code : Nat} {v : BitVec 32} (hreach : s.hostReach = true) (hoff : off ≠ 0x900020)
    (href : s.regWr off v = s.setupRefuse off code) : ∃ t, written s (s.hostWrite off v) = .next t ∧ s.refusedWrite t off code := by
  have hkeep := hostWrite_keepsSetup v hreach hoff
  rw [href] at hkeep
  refine ⟨_, rfl, hkeep.setup, hkeep.ethq, rfl, ?_⟩
  show (s.hostWrite off v).setupErr.count = _ ∧ (s.hostWrite off v).setupErr.valid = _
    ∧ (_ → (s.hostWrite off v).setupErr.offset = _ ∧ (s.hostWrite off v).setupErr.code = _)
    ∧ (_ → (s.hostWrite off v).setupErr.offset = _ ∧ (s.hostWrite off v).setupErr.code = _)
  rw [hkeep.setupErr]
  cases hvalid : s.setupErr.valid <;> simp [State.setupRefuse, hvalid]

theorem writeChecked_locked {s : State} {off : Nat} {m v : BitVec 32} (hlock : s.locked = true) :
    s.writeChecked off m v = s.setupRefuse off 0x05 := if_pos hlock

theorem writeChecked_refused {s : State} {off code : Nat} {m v : BitVec 32} (hlock : s.locked = false) (href : s.refusal off v = some code) :
    s.writeChecked off m v = s.setupRefuse off code := by
  simp only [State.writeChecked, hlock, href, Bool.false_eq_true, if_false]

/-- After the lock every RWL register refuses (R544). -/
theorem rwlWrite_locked {s : State} {off : Nat} {v m : BitVec 32} (hreach : s.hostReach = true) (hlock : s.locked = true)
    (hmask : rwlMask off = some m) : ∃ t, written s (s.hostWrite off v) = .next t ∧ s.refusedWrite t off 0x05 :=
  written_refused hreach (rwlMask_reached hmask).2 (by rw [regWr_of_rwlMask v hmask, writeChecked_locked hlock])

theorem rwlWrite_refused {s : State} {off code : Nat} {v m : BitVec 32} (hreach : s.hostReach = true) (hlock : s.locked = false)
    (hmask : rwlMask off = some m) (hoff : off ≠ 0x8) (href : s.refusal off v = some code) :
    ∃ t, written s (s.hostWrite off v) = .next t ∧ s.refusedWrite t off code :=
  written_refused hreach (rwlMask_reached hmask).2 (by rw [regWr_of_rwlMask v hmask, if_neg hoff, writeChecked_refused hlock href])

/-! ### When a value is refused (R216, R330, R550) -/

theorem refused_genAux {s : State} {v : BitVec 32}
    (hval : fieldNat v 1 0 = 3 ∨ (s.fld 0x20 0 2 ≠ 0 ∧ fieldNat v 1 0 ≠ s.fld 0x20 0 2)) : s.refusal 0x20 v = some 0x01 :=
  if_pos hval

theorem refused_fryTktMin {s : State} {v : BitVec 32} (hsum : 256 < fieldNat v 7 0 + fieldNat v 15 8 + fieldNat v 23 16) :
    s.refusal 0x500010 v = some 0x02 :=
  if_pos hsum

theorem refused_fabFc {s : State} {v : BitVec 32}
    (hvals : max 51 (fieldNat v 15 8) ≥ min 128 (fieldNat v 7 0) ∨ max 51 (fieldNat v 15 8) ≤ max 51 (fieldNat v 23 16) + 8) :
    s.refusal 0x702000 v = some 0x04 :=
  if_neg (by omega)

theorem refused_fabFc2 {s : State} {v : BitVec 32} (hvals : max 51 (fieldNat v 15 8) ≥ min 96 (fieldNat v 7 0)) :
    s.refusal 0x702004 v = some 0x04 :=
  if_neg (Nat.not_lt.mpr hvals)

/-! ### The words of ETH_Q_n (R290, R304, R545) -/

theorem ethEnable_refused {s : State} {q : Nat} {v : BitVec 32} (hon : bitAt v 0 = true)
    (hctx : fieldNat v 7 2 = 0 ∨ (s.ctx (fieldNat v 7 2)).live = false ∨ s.ctxSlot (fieldNat v 7 2) ≠ 0) :
    s.ethEnable q v = s.setupRefuse (0xD00100 + 32 * q) 0x03 :=
  if_pos ⟨hon, by simpa using hctx⟩

/-- Clearing enable is always accepted, and leaves the ring's positions. -/
theorem ethEnable_cleared {s : State} {q : Nat} {v : BitVec 32} (hclear : bitAt v 0 = false) :
    s.ethEnable q v = { s with ethq := sset 0 s.ethq (8 * q) (v &&& 0x00FFFFFF) } := by
  simp [State.ethEnable, hclear, ethMask]

theorem ethWord_refused {s : State} {q w : Nat} (v : BitVec 32) (hon : s.ethEnabled q = true) :
    s.ethWord q w v = s.setupRefuse (0xD00100 + 32 * q + 4 * w) 0x06 := if_pos hon

theorem regWr_ethqEnable (s : State) (q : Fin 32) (v : BitVec 32) : s.regWr (0xD00100 + 32 * q.val) v = s.ethEnable q.val v :=
  regWr_ethq s v q.isLt (by decide : 0 < 8)

theorem ethQEnable_refused {s : State} (q : Fin 32) {v : BitVec 32} (hreach : s.hostReach = true) (hon : bitAt v 0 = true)
    (hctx : fieldNat v 7 2 = 0 ∨ (s.ctx (fieldNat v 7 2)).live = false ∨ s.ctxSlot (fieldNat v 7 2) ≠ 0) :
    ∃ t, exec (.ethQEnable q v) s = .next t ∧ s.refusedWrite t (0xD00100 + 32 * q.val) 0x03 :=
  written_refused hreach (by omega) ((regWr_ethqEnable s q v).trans (ethEnable_refused hon hctx))

theorem ethQEnable_cleared {s : State} (q : Fin 32) {v : BitVec 32} (hreach : s.hostReach = true) (hclear : bitAt v 0 = false) :
    ∃ t, exec (.ethQEnable q v) s = .next t ∧ t.setupErr = s.setupErr ∧ t.setup = s.setup ∧
      t.ethq = sset 0 s.ethq (8 * q.val) (v &&& 0x00FFFFFF) := by
  have hkeep := hostWrite_keepsSetup (s := s) (off := 0xD00100 + 32 * q.val) v hreach (by omega)
  rw [regWr_ethqEnable s q v, ethEnable_cleared hclear] at hkeep
  exact ⟨_, rfl, hkeep.setupErr, hkeep.setup, hkeep.ethq⟩

theorem ethQWordWrite_refused {s : State} (q : Fin 32) {w : Fin 8} (v : BitVec 32) (hreach : s.hostReach = true) (hw : w ≠ 0)
    (hon : s.ethEnabled q.val = true) :
    ∃ t, exec (.ethQWordWrite q w v) s = .next t ∧ s.refusedWrite t (0xD00100 + 32 * q.val + 4 * w.val) 0x06 := by
  have hw0 : w.val ≠ 0 := Fin.val_ne_zero_iff.mpr hw
  have hreg : s.regWr (0xD00100 + 32 * q.val + 4 * w.val) v = s.setupRefuse (0xD00100 + 32 * q.val + 4 * w.val) 0x06 := by
    rw [regWr_ethq s v q.isLt w.isLt, if_neg hw0, ethWord_refused v hon]
  obtain ⟨t, ht, hrefused⟩ := written_refused hreach (by omega) hreg
  exact ⟨t, (if_neg hw0).trans ht, hrefused⟩

/-! ### GEN_SETUP_ERR (R545) -/

theorem regWr_setupErr (s : State) (v : BitVec 32) : s.regWr 0x10 v = s.clearSetupErr v := rfl

theorem genSetupErrClear_cleared {s : State} (v : BitVec 32) (hreach : s.hostReach = true) :
    ∃ t, exec (.genSetupErrClear v) s = .next t ∧ t.setup = s.setup ∧ t.pending = s.pending ∧ t.setupErr =
      if bitAt v 31 then { count := s.setupErr.count } else s.setupErr := by
  have hkeep := hostWrite_keepsSetup (s := s) (off := 0x10) v hreach (by decide)
  rw [regWr_setupErr, State.clearSetupErr] at hkeep
  refine ⟨_, rfl, hkeep.setup.trans ?_, rfl, hkeep.setupErr.trans ?_⟩
  all_goals cases bitAt v 31 <;> rfl

/-- The offset, the code and the valid bit stand in their fields. -/
theorem readReg_setupErr (s : State) :
    (s.readReg 0x10).toNat = s.setupErr.offset.toNat + s.setupErr.code.toNat * 2 ^ 24 + s.setupErr.valid.toNat * 2 ^ 31 := by
  show (BitVec.ofNat 32 s.setupErr0).toNat = _
  have hoff := s.setupErr.offset.isLt
  have hcode := s.setupErr.code.isLt
  have hvalid : s.setupErr.valid.toNat ≤ 1 := Bool.toNat_le _
  rw [BitVec.toNat_ofNat, State.setupErr0]
  omega

theorem readReg_setupErrCount (s : State) : (s.readReg 0x14).toNat = min s.setupErr.count 0xFFFF := by
  show (BitVec.ofNat 32 (cap 16 s.setupErr.count)).toNat = _
  rw [BitVec.toNat_ofNat, cap]
  omega

/-- Settles O10: each refusal is recorded by `written_refused`; what clears an error or a queue is accepted. -/
theorem refusedWritesRecorded : Obligations.RefusedWritesRecorded := by
  unfold Obligations.RefusedWritesRecorded
  exact fun s v hreach => ⟨fun _ _ hmask hlock => rwlWrite_locked hreach hlock hmask,
    fun hlock hval => rwlWrite_refused hreach hlock rfl (by decide) (refused_genAux hval),
    fun hlock hsum => rwlWrite_refused hreach hlock rfl (by decide) (refused_fryTktMin hsum),
    fun q hon hctx => ethQEnable_refused q hreach hon hctx,
    fun hlock hvals => rwlWrite_refused hreach hlock rfl (by decide) (refused_fabFc hvals),
    fun hlock hvals => rwlWrite_refused hreach hlock rfl (by decide) (refused_fabFc2 hvals),
    fun q w hw hon => ethQWordWrite_refused q v hreach hw hon, genSetupErrClear_cleared v hreach,
    fun q hclear => ethQEnable_cleared q hreach hclear, readReg_setupErr s, readReg_setupErrCount s⟩

/-! ### The lock (R544, R547) -/

/-- A write of RST_CMD is a command, and is committed as one. -/
theorem regWr_rstCmd {s : State} (v : BitVec 32) (hreach : s.hostReach = true) :
    exec (.regWr 0x900020 (.write v)) s = .next (commit s (s.rstCmd v)) := by
  have hwrite : s.hostWrite 0x900020 v = commit s (s.rstCmd v) := by simp [State.hostWrite, hreach]
  have hqueue : { commit s (s.rstCmd v) with pending := s.pending } = commit s (s.rstCmd v) := by
    rw [← commit_pending s (s.rstCmd v)]
  calc exec (.regWr 0x900020 (.write v)) s
    _ = .next { s.hostWrite 0x900020 v with pending := s.pending } := rfl
    _ = .next (commit s (s.rstCmd v)) := by rw [hwrite, hqueue]

/-- Settles O54: under the lock a step lets set-up stand, or takes a cold reset, which clears it. -/
theorem lockEndsSetup : Obligations.LockEndsSetup := by
  unfold Obligations.LockEndsSetup
  refine ⟨fun s t hlock hstep hcolds => ?locked, fun s t hstep hcolds => ?cold, fun s off v m hlock hreach hmask => ?rwl,
    fun s q w v hreach hw hoff => ?word, fun s q v hreach hok => ?enable, fun s v hreach => regWr_rstCmd v hreach,
    fun s v hreach hbit => ?clear⟩
  case locked =>
    cases step_setupStep hstep with
    | stands _ hsetup => exact ⟨word_of_setup_eq hsetup, (locked_of_setup_eq hsetup).trans hlock⟩
    | wrote _ hclear => exact absurd hclear (by simp [hlock])
    | cold hdiffer => exact absurd hcolds hdiffer
  case cold =>
    cases step_setupStep hstep with
    | stands hequal => exact absurd hequal hcolds
    | wrote hequal => exact absurd hequal hcolds
    | cold _ hsetup => exact ⟨word_of_setup_nil hsetup, locked_of_setup_nil hsetup⟩
  case rwl => exact rwlWrite_locked hreach hlock hmask
  case word =>
    obtain ⟨t, ht, hethq, -⟩ := ethQWordWrite_takes q v hreach hw hoff
    exact ⟨t, ht, hethq⟩
  case enable =>
    rcases Bool.eq_false_or_eq_true (bitAt v 0) with hon | hclear
    · rcases hok with hclear | ⟨hctx, hlive, hslot⟩
      · exact absurd hon (by simp [hclear])
      · obtain ⟨t, ht, hethq, -⟩ := ethQEnable_takes q hreach hon hctx hlive hslot
        exact ⟨t, ht, hethq⟩
    · obtain ⟨t, ht, -, -, hethq⟩ := ethQEnable_cleared q hreach hclear
      exact ⟨t, ht, hethq⟩
  case clear =>
    obtain ⟨t, ht, -, -, herr⟩ := genSetupErrClear_cleared v hreach
    exact ⟨t, ht, herr.trans (if_pos hbit)⟩

end Sys2Proof.Machine

/-! ## Resets by RST_CMD (R444, R470) -/

namespace Sys2Proof.Machine

section
variable {s : State} {v : BitVec 32} (hreach : s.hostReach = true)
include hreach

/-- The row of the written domain field requests the reset of the domain that the value names. -/
theorem rstRow_requests {code : Nat} {d : Domain} (hcode : fieldNat v 3 0 = code) (hdom : rstDomain v = some d) :
    s.rstRow code v = s.requestReset d 0x02 [] true false := by
  rw [State.rstRow, if_pos ⟨hreach, hcode⟩, State.rstCmd, hdom]

/-- A domain below the compute domain that may be reset begins its handshake. -/
theorem rstRow_starts {code : Nat} {d : Domain} (hcode : fieldNat v 3 0 = code) (hdom : rstDomain v = some d) (hbelow : d ≠ .compute)
    (hmay : s.mayReset d) : act (fun s => s.rstRow code v) s = .next (commit s (s.startReset d 0x02 [])) :=
  act_of_effect ((rstRow_requests hreach hcode hdom).trans (requestReset_of_mayReset hmay 0x02 [] true hbelow))

theorem rstRow_startsWarm (hcode : fieldNat v 3 0 = 8) (hdom : rstDomain v = some .compute) (hmay : s.mayReset .compute) :
    act (fun s => s.rstRow 8 v) s = .next (commit s (s.startWarm 0x02 true)) :=
  act_of_effect ((rstRow_requests hreach hcode hdom).trans (requestReset_compute hmay 0x02 [] true))

end

/-! ### The domain that a value names -/

section
variable {v : BitVec 32}

theorem rstDomain_cell (hcode : fieldNat v 3 0 = 1) (h : fieldNat v 11 4 < 128) : rstDomain v = some (.cell ⟨fieldNat v 11 4, h⟩) := by
  simp [rstDomain, hcode, h, Fin.ofNat, Nat.mod_eq_of_lt]

theorem rstDomain_group (hcode : fieldNat v 3 0 = 2) (h : fieldNat v 11 4 < 16) : rstDomain v = some (.group ⟨fieldNat v 11 4, h⟩) := by
  simp [rstDomain, hcode, h, Fin.ofNat, Nat.mod_eq_of_lt]

theorem rstDomain_memGroup (hcode : fieldNat v 3 0 = 3) (h : fieldNat v 11 4 < 32) :
    rstDomain v = some (.memGroup ⟨fieldNat v 11 4, h⟩) := by
  simp [rstDomain, hcode, h, Fin.ofNat, Nat.mod_eq_of_lt]

theorem rstDomain_ferry (hcode : fieldNat v 3 0 = 4) (h : fieldNat v 11 4 = 0) : rstDomain v = some .ferry := by
  simp [rstDomain, hcode, h]

theorem rstDomain_intake (hcode : fieldNat v 3 0 = 5) (h : fieldNat v 11 4 = 0) : rstDomain v = some .intake := by
  simp [rstDomain, hcode, h]

theorem rstDomain_hawser (hcode : fieldNat v 3 0 = 6) (h : fieldNat v 11 4 = 0) : rstDomain v = some .hawser := by
  simp [rstDomain, hcode, h]

theorem rstDomain_compute (hcode : fieldNat v 3 0 = 8) (h : fieldNat v 11 4 = 0) : rstDomain v = some .compute := by
  simp [rstDomain, hcode, h]

end

/-- Settles O11: the value names its domain, which nothing holds back. -/
theorem resetCommandsStart : Obligations.ResetCommandsStart := by
  unfold Obligations.ResetCommandsStart
  exact fun s v hreach => ⟨fun h hcode => rstRow_starts hreach hcode (rstDomain_cell hcode h) (by simp),
    fun h hcode => rstRow_starts hreach hcode (rstDomain_group hcode h) (by simp),
    fun h hcode => rstRow_starts hreach hcode (rstDomain_memGroup hcode h) (by simp),
    fun h hcode => rstRow_starts hreach hcode (rstDomain_ferry hcode h) (by simp),
    fun h hcode => rstRow_starts hreach hcode (rstDomain_intake hcode h) (by simp),
    fun h hcode => rstRow_starts hreach hcode (rstDomain_hawser hcode h) (by simp),
    fun h hcode => rstRow_startsWarm hreach hcode (rstDomain_compute hcode h)⟩

end Sys2Proof.Machine

/-! ## Watchdogs and missed heartbeats (R445, R446, R450, R456) -/

namespace Sys2Proof.Machine

/-! ### Requests (R446) -/

/-- A compute warm reset that nothing holds back begins, escalated or not. -/
theorem requestReset_compute_begins {s : State} (hcold : s.rst.cold = false) (hthawed : s.frz.frozen = false)
    (hidle : (s.rst.active.any fun r => r.dom = .compute) = false) (hwarm : s.rst.warm = false) {escalated : Bool}
    (hturn : s.tooSoon .compute = false ∨ escalated = true) (cause : BitVec 8) (blamed : List Nat) (event : Bool) :
    s.requestReset .compute cause blamed event escalated = s.startWarm cause event := by
  have hfree : (s.rst.active.any fun r => r.dom = .compute || domInside .compute r.dom) = false := by simpa [domInside] using hidle
  have hnow : ¬(s.tooSoon .compute = true ∧ (!escalated) = true) := by rcases hturn with h | h <;> simp [h]
  simp only [State.requestReset, hcold, hthawed, hwarm, hfree, if_neg hnow, Bool.false_eq_true, or_self, false_and, if_false]

/-- No reset of the compute domain is under way where one may begin. -/
theorem mayReset_compute_idle {s : State} (h : s.mayReset .compute) : (s.rst.active.any fun r => r.dom = .compute) = false := by
  obtain ⟨-, -, -, hidle, -⟩ := h
  simpa [domInside] using hidle

/-! ### Each watchdog (R450) -/

section
variable {s : State} (hcompute : s.compute = true)
include hcompute

/-- A matrix instruction, a DMA command or a thread of the cell makes no progress. -/
def State.cellStalls (s : State) (c : Nat) : Prop :=
  (((s.cell c).mxq ≠ [] ∨ ∃ e l, (s.cell c).mvq = e :: l ∧ e.kind = .dma) ∧ (s.cell c).progress + s.cellLimit ≤ s.now)
    ∨ s.thStuck c .fg = true ∨ s.thStuck c .tr = true

theorem cellWatchdog_resets {c : Fin 128} (hruns : (s.cell c).inReset = false) (hstalls : s.cellStalls c) (hmay : s.mayReset (.cell c)) :
    execCellWatchdog c s = .next (commit s (s.startReset (.cell c) 0x01 (s.cellBlame c))) := by
  refine act_of_effect ((if_neg ?_).trans (requestReset_of_mayReset hmay 0x01 (s.cellBlame c) true (by simp)))
  rcases hstalls with ⟨hwork | ⟨e, l, hqueue, hdma⟩, hdue⟩ | hstuck | hstuck
  · simp [hcompute, hruns, hwork, hdue]
  · simp [hcompute, hruns, hqueue, hdma, hdue]
  · simp [hcompute, hruns, hstuck]
  · simp [hcompute, hruns, hstuck]

theorem memControllerWatchdog_resets {k : Fin 32} (hmay : s.mayReset (.memGroup k)) :
    execMemControllerWatchdog k s
      = .next (commit s (s.startReset (.memGroup k) 0x01 ((s.mover k).cur.toList.map fun c => c.ctx.toNat))) :=
  act_of_effect ((if_pos hcompute).trans (requestReset_of_mayReset hmay 0x01 _ true (by simp)))

theorem engineWatchdog_mover {k : Fin 32} (hworks : (s.mover k).cur.isSome = true ∨ (s.mover k).xfer.isSome = true)
    (hruns : (s.mover k).inReset = false) (hdue : (s.mover k).progress + s.engLimit ≤ s.now) (hmay : s.mayReset (.memGroup k)) :
    execEngineWatchdog (.mover k) s
      = .next (commit s (s.startReset (.memGroup k) 0x01 ((s.mover k).cur.toList.map fun c => c.ctx.toNat))) :=
  act_of_effect ((if_neg (by simp [hcompute])).trans ((if_pos ⟨hworks, by simp [hruns], hdue⟩).trans
    (requestReset_of_mayReset hmay 0x01 _ true (by simp))))

theorem engineWatchdog_ferry (hwaits : s.ferryWaits = true) (hruns : s.fry.inReset = false) (hdue : s.fry.progress + s.engLimit ≤ s.now)
    (hmay : s.mayReset .ferry) : execEngineWatchdog .ferry s = .next (commit s (s.startReset .ferry 0x01 [])) :=
  act_of_effect ((if_neg (by simp [hcompute])).trans ((if_pos ⟨hwaits, by simp [hruns], hdue⟩).trans
    (requestReset_of_mayReset hmay 0x01 [] true (by simp))))

theorem decodeWatchdog_resets {k : Fin 16} {x : Stream} (hstream : x ∈ s.streams) (hengine : x.engine = k.val)
    (hunit : x.decoding ≠ []) (hdue : x.progress + s.itkLimit ≤ s.now) (hruns : s.itkReset = false) (hmay : s.mayReset .intake) :
    execDecodeWatchdog k s = .next (commit s (s.startReset .intake 0x01 [])) := by
  have hstalls : (s.streams.any fun x => x.engine = k.val && !x.decoding.isEmpty && decide (x.progress + s.itkLimit ≤ s.now)) = true :=
    List.any_eq_true.mpr ⟨x, hstream, by simp [hengine, hunit, hdue]⟩
  exact act_of_effect ((if_pos (by simp only [hcompute, hruns, hstalls, Bool.not_false, Bool.and_self])).trans
    (requestReset_of_mayReset hmay 0x01 [] true (by simp)))

theorem hawserWatchdog_resets (hruns : s.hst.inReset = false) (hmay : s.mayReset .hawser) :
    execHawserWatchdog s = .next (commit s (s.startReset .hawser 0x01 [])) :=
  act_of_effect ((if_pos (by simp [hcompute, hruns])).trans (requestReset_of_mayReset hmay 0x01 [] true (by simp)))

end

/-- Firmware's heartbeat is missed for the compute part (R445). -/
theorem heartbeatMiss_resets {s : State} (hmay : s.mayReset .compute) :
    execHeartbeatMiss s = .next (commit s (s.startWarm 0x01 true)) :=
  act_of_effect (requestReset_compute hmay 0x01 [] true)

/-- Settles O44: what stands still asks for the reset of its domain, which nothing holds back. -/
theorem watchdogsReset : Obligations.WatchdogsReset := by
  unfold Obligations.WatchdogsReset
  exact fun s hcompute => ⟨fun c hruns hstalls hmay => cellWatchdog_resets hcompute hruns hstalls hmay,
    fun k hmay => memControllerWatchdog_resets hcompute hmay,
    fun k hworks hruns hdue hmay => engineWatchdog_mover hcompute hworks hruns hdue hmay, engineWatchdog_ferry hcompute,
    fun k x hstream hengine hunit hdue hruns hmay => decodeWatchdog_resets hcompute hstream hengine hunit hdue hruns hmay,
    hawserWatchdog_resets hcompute, heartbeatMiss_resets⟩

end Sys2Proof.Machine

/-! ## Resets under way, warm and cold resets, and fabric aborts (R446, R451, R456, R459 to R465, R567) -/

namespace Sys2Proof.Machine

/-! ### The end of a handshake (R451, R456) -/

/-- The reset of a domain is no longer under way, and its end is noted (R446). -/
def State.endReset (s : State) (d : Domain) (r : Resetting) : State :=
  { s with rst := { s.rst with
    active := s.rst.active.erase r, lastEnd := (s.rst.lastEnd.filter fun e => e.1 ≠ d) ++ [(d, s.now)] } }

/-- The contexts that pay for a reset that does not replay (R456, R457). -/
def State.blamed (s : State) (r : Resetting) : List Nat := if s.replays r then [] else r.ctxs

/-- The domain is reset with what its checks found, blame falls, and the event is recorded (R451). -/
def State.resetRecorded (s : State) (d : Domain) (r : Resetting) (ok : Bool) (bad : BitVec 8) : State :=
  (((s.endReset d r).doReset r ok bad).blame (s.blamed r)).recordReset r (if (s.blamed r).isEmpty then 1 else 0)
    (BitVec.ofNat 6 (minOf 0 (s.blamed r)))

/-- A reset whose handshake failed is taken off, counted and recorded as escalated (R451). -/
def State.escalated (s : State) (r : Resetting) : State :=
  (State.oosEvent { s with rst := { s.rst with
    active := s.rst.active.erase r, escalations := satAdd 8 s.rst.escalations 1 } }).recordReset r 2 0

/-- The reset that follows one of domain d whose handshake failed: of the next larger domain (R451, R462). -/
def State.widerReset (s : State) : Domain → State
  | .cell c => (s.failCell c).requestReset (.group (Fin.ofNat 16 (c.val / 8))) 0x03 [] true true
  | .port _ => s.startCold false false
  | .compute => s.startCold false false
  | _ => s.requestReset .compute 0x03 [] true true

section
variable {s : State} {d : Domain} {r : Resetting} (hcold : s.rst.cold = false) (hthawed : s.frz.frozen = false)
  (hactive : (s.rst.active.find? fun r => r.dom = d) = some r)
include hcold hthawed hactive

theorem resetHandshakeDone_ends (ok : Bool) (bad : BitVec 8) :
    execResetHandshakeDone d ⟨ok, bad⟩ s = .next (commit s
      (((((if d = .compute then s.resetRecorded d r ok bad
        else (s.resetRecorded d r ok bad).abortFaulted s (abortCause d) r.at_).pumpReplay).moversGoOn).announce s))) := by
  refine act_of_effect ?_
  rw [hactive]
  exact (if_neg (by simp [hcold, hthawed])).trans rfl

variable (hdue : r.due ≤ s.now)
include hdue

/-- A handshake that is over its time escalates. -/
theorem handshakeTimeout_escalates : execHandshakeTimeout d s = .next (commit s ((s.escalated r).widerReset d)) := by
  refine act_of_effect ?_
  rw [hactive]
  exact (if_neg (by simp [Nat.not_lt.mpr hdue, hcold, hthawed])).trans rfl

end

/-! ### Warm, cold and deferred resets (R446, R459, R461, R567) -/

theorem computeWarmReset_starts {s : State} (c : WarmCause) (hmay : s.mayReset .compute) :
    execComputeWarmReset c s = .next (commit s (s.startWarm (warmCode c) (decide (c ≠ .thermal)))) := by
  have hidle := mayReset_compute_idle hmay
  obtain ⟨hcold, hwarm, hthawed, -, hturn⟩ := hmay
  exact act_of_effect (requestReset_compute_begins hcold hthawed hidle hwarm (.inl hturn) _ _ _)

/-- An escalation does not wait for 1 ms to pass. -/
theorem computeWarmReset_escalation {s : State} (hcold : s.rst.cold = false) (hthawed : s.frz.frozen = false)
    (hidle : (s.rst.active.any fun r => r.dom = .compute) = false) (hwarm : s.rst.warm = false) :
    execComputeWarmReset .escalation s = .next (commit s (s.startWarm 0x03 true)) :=
  act_of_effect (requestReset_compute_begins hcold hthawed hidle hwarm (.inr rfl) _ _ _)

theorem coldReset_starts {s : State} {c : ColdCause} (hcold : s.rst.cold = false)
    (hends : s.frz.frozen = false ∨ c = .powerOn ∨ c = .resetN ∨ c = .console) :
    execColdReset c s = .next (commit s (s.startCold (decide (c = .thermal)) (decide (c = .resetN ∧ !s.sup.resetN)))) := by
  refine act_of_effect (if_neg ?_)
  rcases hends with hthawed | rfl | rfl | rfl
  · simp [hcold, hthawed]
  all_goals simp [hcold]

theorem deferredResetStart_requests {s : State} {d : Domain} {c : BitVec 8}
    (hdeferred : (s.rst.deferred.find? fun e => e.1 = d) = some (d, c)) (hturn : s.tooSoon d = false) :
    execDeferredResetStart d s = .next (commit s
      (State.requestReset { s with rst := { s.rst with deferred := s.rst.deferred.erase (d, c) } } d c [] (decide (c ≠ 0x05)) false)) := by
  refine act_of_effect ?_
  simp only [hdeferred, hturn, Bool.false_eq_true, if_false]

/-! ### Fabric aborts (R464, R465) -/

section
variable {s : State} (hup : s.agentUp = true)
include hup

section
variable {m : Fin 512} {x : BitVec 128} (habort : fieldNat x 7 0 = 1)
include habort

theorem abortReceive_aborts (hslice : fieldNat x 15 8 ≠ 0) (hown : fieldNat x 15 8 = s.ownSlice)
    (hmember : (sliceBox s.agent.sliceRec).contains m.val = true) :
    execAbortReceive m x s = .next (commit s
      (State.abortSlice { s with cnt := { s.cnt with aborts := satAdd 8 s.cnt.aborts 1 } } (fieldNat x 15 8))) := by
  have hours : ¬(fieldNat x 15 8 = 0 ∨ fieldNat x 15 8 ≠ s.ownSlice ∨ (!(sliceBox s.agent.sliceRec).contains m.val) = true) := by
    simp only [hmember]
    simp [hown]
    omega
  exact act_of_effect ((if_neg (by simp [hup, habort])).trans (if_neg hours))

theorem abortReceive_counted
    (hother : fieldNat x 15 8 = 0 ∨ fieldNat x 15 8 ≠ s.ownSlice ∨ (sliceBox s.agent.sliceRec).contains m.val = false) :
    execAbortReceive m x s = .next (commit s s.cntBadDest) :=
  act_of_effect ((if_neg (by simp [hup, habort])).trans
    (if_pos (hother.imp_right (Or.imp_right (Bool.not_eq_true' _).mpr))))

end

/-- The aborts that wait for their acknowledgement go again, after twice the interval, up to 8 times the first (R323). -/
def State.abortsAgain (s : State) : State :=
  forEach s.fab.abortMap (fun s a => s.sendAgain a.2) { s with fab := { s.fab with
    abortInterval := min 8 (2 * s.fab.abortInterval), abortTries := s.fab.abortTries + 1
    abortAt := s.now + min 8 (2 * s.fab.abortInterval) * s.resendTicks } }

theorem abortResendTimer_due (hwaits : s.fab.abortMap ≠ []) (hdue : s.fab.abortAt ≤ s.now) (htries : s.fab.abortTries + 1 < s.tries) :
    execAbortResendTimer s = .next (commit s s.abortsAgain) :=
  act_of_effect ((if_neg (by simp [hup, hwaits, hdue])).trans (if_neg (Nat.not_le.mpr htries)))

end

/-- Settles O45: a reset ends or escalates by the lemmas on its handshake; each other request, cold reset and abort by its own. -/
theorem resetsProceed : Obligations.ResetsProceed := by
  unfold Obligations.ResetsProceed
  refine fun s => ⟨fun d ok bad r hcold hthawed hactive => resetHandshakeDone_ends hcold hthawed hactive ok bad,
    fun d r hcold hthawed hactive hdue => ⟨?cell, ?top, ?below⟩, fun c hmay => computeWarmReset_starts c hmay,
    fun hcold hthawed hidle hwarm => computeWarmReset_escalation hcold hthawed hidle hwarm,
    fun c hcold hends => coldReset_starts hcold hends, fun d c hdeferred hturn => deferredResetStart_requests hdeferred hturn,
    fun m x hup habort hslice hown hmember => abortReceive_aborts hup habort hslice hown hmember,
    fun m x hup habort hother => abortReceive_counted hup habort hother,
    fun hup hwaits hdue htries => abortResendTimer_due hup hwaits hdue htries⟩
  case cell =>
    rintro c rfl
    exact handshakeTimeout_escalates hcold hthawed hactive hdue
  case top =>
    rintro (rfl | ⟨p, rfl⟩)
    all_goals exact handshakeTimeout_escalates hcold hthawed hactive hdue
  case below =>
    rintro (⟨g, rfl⟩ | ⟨m, rfl⟩ | rfl | rfl | rfl)
    all_goals exact handshakeTimeout_escalates hcold hthawed hactive hdue

end Sys2Proof.Machine

/-! ## KEY_INSTALL, TENANT_REMOVE and ATTEST (R246, R503, R512, R517) -/

namespace Sys2Proof.Machine

section
variable {s : State} {sq : Fin 256} {slot : Nat} {d : Line} {rest : List Fetched} (hhead : s.headStarts sq slot d rest)
include hhead

/-- A KEY_INSTALL with good fields asks for its blob of 1,344 bytes. -/
theorem keyInstall_gathers (hop : fieldNat d 7 0 = 0x10) (hgood : keyBad d = none) :
    execKeyInstall sq s = .next (commit s (((s.taken sq rest).startGather sq slot d (fieldNat d 191 128) 1344).followed sq)) := by
  rw [execKeyInstall, act_eq, startRow_of_headStarts hhead hop rfl]
  simp only [hgood]

/-- A TENANT_REMOVE of a key slot other than 0 waits for its removal. -/
theorem tenantRemove_asks (hop : fieldNat d 7 0 = 0x11) (hkey : fieldNat d 131 128 ≠ 0) (hend : fieldNat d 511 132 = 0) :
    execTenantRemove sq s = .next (commit s
      ((((s.taken sq rest).startJob sq slot d .removal).askRemoval (fieldNat d 131 128) (some (sq.val, slot))).followed sq)) := by
  rw [execTenantRemove, act_eq, startRow_of_headStarts hhead hop rfl]
  simp only [hkey, hend, ne_eq, not_true_eq_false, decide_false, lowestBad_cons_false, lowestBad_nil]

theorem attest_starts (hop : fieldNat d 7 0 = 0x12) :
    execAttest sq s = .next (commit s (((s.taken sq rest).attestStart sq slot d).followed sq)) := by
  rw [execAttest, act_eq, startRow_of_headStarts hhead hop rfl]

end

/-- The fields of an ATTEST are good, and its ring may ask for the report on context t, which lives and fits its space (R514). -/
structure State.AttestAllowed (s : State) (c t : Nat) (d : Line) : Prop where
  aligned : fieldNat d 191 128 % 64 = 0
  kind : fieldNat d 217 216 ≠ 3
  middle : fieldNat d 223 218 = 0
  high : fieldNat d 255 230 = 0
  own : c = 0 ∨ t = c
  live : (s.ctx t).live = true
  stays : (s.ctx t).removing = false
  fits : (s.attestBytes d).length ≤ fieldNat d 215 192

theorem attestStart_reports {u : State} {sq slot : Nat} {d : Line}
    (hallowed : u.AttestAllowed (u.sq sq).ctx.toNat (fieldNat d 229 224) d) :
    u.attestStart sq slot d
      = u.reportOut sq slot d (fieldNat d 191 128) (u.attestBytes d) (u.attestBytes d).length u.time.tick := by
  obtain ⟨haligned, hkind, hmiddle, hhigh, hown, hlive, hstays, hfits⟩ := hallowed
  have hmay : ¬((u.sq sq).ctx.toNat ≠ 0 ∧ fieldNat d 229 224 ≠ (u.sq sq).ctx.toNat) := by omega
  simp only [State.attestStart, haligned, hkind, hmiddle, hhigh, hlive, hstays, if_neg hmay, Nat.not_lt.mpr hfits, ne_eq, not_true_eq_false,
    decide_false, lowestBad_cons_false, lowestBad_nil, Bool.not_true, Bool.false_eq_true, if_false]

/-- Settles O6: each descriptor passes the checks of its fields, and an ATTEST those of its context, and has its effect. -/
theorem securityDescriptorsRun : Obligations.SecurityDescriptorsRun := by
  unfold Obligations.SecurityDescriptorsRun
  intro s sq slot d rest hhead u c
  refine ⟨keyInstall_gathers hhead, tenantRemove_asks hhead, ?attest⟩
  case attest =>
    intro t hop haligned hkind hmiddle hhigh hown hlive hstays hfits
    calc execAttest sq s
      _ = .next (commit s ((u.attestStart sq slot d).followed sq)) := attest_starts hhead hop
      _ = _ := by rw [attestStart_reports ⟨haligned, hkind, hmiddle, hhigh, hown, hlive, hstays, hfits⟩]; rfl

end Sys2Proof.Machine

/-! ## FW_BLOCK, FW_ACTIVATE and FW_STATUS (R25, R246, R524 to R532, R538) -/

namespace Sys2Proof.Machine

/-! ### The descriptors start (R252) -/

section
variable {s : State} {sq : Fin 256} {slot : Nat} {d : Line} {rest : List Fetched} (hhead : s.headStarts sq slot d rest)
include hhead

theorem fwBlockHeader_starts (hop : fieldNat d 7 0 = 0x13) (hkind : fwKind d = 0) :
    execFwBlockHeader sq s = .next (commit s (((s.taken sq rest).fwBlockStart sq slot d).followed sq)) := by
  rw [execFwBlockHeader, act_eq, startRow_of_headStarts hhead hop (by simp [hkind])]

theorem fwBlockStream_starts (hop : fieldNat d 7 0 = 0x13) (hkind : fwKind d = 1) :
    execFwBlockStream sq s = .next (commit s (((s.taken sq rest).fwBlockStart sq slot d).followed sq)) := by
  rw [execFwBlockStream, act_eq, startRow_of_headStarts hhead hop (by simp [hkind])]

theorem fwBlockAbort_starts (hop : fieldNat d 7 0 = 0x13) (hkind : fwKind d = 2) :
    execFwBlockAbort sq s = .next (commit s (((s.taken sq rest).fwBlockStart sq slot d).followed sq)) := by
  rw [execFwBlockAbort, act_eq, startRow_of_headStarts hhead hop (by simp [hkind])]

theorem fwActivate_starts (hop : fieldNat d 7 0 = 0x14) :
    execFwActivate sq s = .next (commit s (((s.taken sq rest).fwActivate sq slot d).followed sq)) := by
  rw [execFwActivate, act_eq, startRow_of_headStarts hhead hop rfl]

/-- A FW_STATUS with good fields and room for its 128 bytes reports (R538). -/
theorem fwStatus_reports (hop : fieldNat d 7 0 = 0x15) (haligned : fieldNat d 191 128 % 64 = 0) (hroom : 128 ≤ fieldNat d 207 192)
    (hend : fieldNat d 511 208 = 0) :
    let u := s.taken sq rest
    execFwStatus sq s = .next (commit s ((u.reportOut sq slot d (fieldNat d 191 128) u.fwStatusBytes 128 0).followed sq)) := by
  rw [execFwStatus, act_eq, startRow_of_headStarts hhead hop rfl]
  simp only [haligned, Nat.not_lt.mpr hroom, hend, ne_eq, not_true_eq_false, decide_false, lowestBad_cons_false, lowestBad_nil]

end

/-! ### FW_BLOCK (R528) -/

section
variable {u : State} {sq slot : Nat} {d : Line} (hgood : fwBlockBad d = none) (hturned : u.fwTurned d = none)
include hgood hturned

theorem fwBlockStart_gathers (hkind : fwKind d ≠ 2) :
    u.fwBlockStart sq slot d = u.startGather sq slot d (fieldNat d 191 128) (fieldNat d 287 256) := by
  simp only [State.fwBlockStart, hgood, hturned, if_neg hkind]

theorem fwBlockStart_aborts (hkind : fwKind d = 2) :
    u.fwBlockStart sq slot d = (u.setFw Update.discard).complete sq slot d { status := stOk } := by
  simp only [State.fwBlockStart, hgood, hturned, if_pos hkind]

end

/-! ### FW_ACTIVATE (R25, R530, R532) -/

/-- A staged image that fails a check again leaves its slot empty and the update idle (R530). -/
def State.dropStaged (s : State) (c : Nat) : State :=
  s.setFw fun u => { u.emptyOther with state := .idle, lastResult := 3, lastCode := BitVec.ofNat 8 c }

/-- An activation under way, with what its confirmation will compare (R532, R534). -/
def State.activating (s : State) (sq slot : Nat) (d : Line) : State :=
  (s.startJob sq slot d .activate).setFw fun f => { f with
    state := .activating, stateBefore := BitVec.ofNat 8 s.stateCode, hawserWasUp := s.hst.up
    hadRole := decide (s.wm.role ≠ .none), ucodeBad := false, falling := false }

/-- Nothing turns the FW_ACTIVATE of a staged image away (R530): its kind is that of the image, and a partner does not activate. -/
structure State.ActivateAllowed (s : State) (d : Line) : Prop where
  kind : fieldNat d 129 128 = 1 ∧ s.fw.withUcode = false ∨ fieldNat d 129 128 = 2 ∧ s.fw.withUcode = true ∧ s.quiesced = true
  high : fieldNat d 511 130 = 0
  staged : s.fw.state = .staged
  noReplay : s.rst.replay = none
  partnerActivates : s.partnerFw ≠ 4
  partnerAwaits : s.partnerFw ≠ 5

section
variable {u : State} {sq slot : Nat} {d : Line} (hallowed : u.ActivateAllowed d)
include hallowed

theorem fwActivate_fails {c : Nat} (hfails : u.stagedFails = some c) :
    u.fwActivate sq slot d = (u.dropStaged c).complete sq slot d { status := stSecDenied, detail := c } := by
  obtain ⟨hkind, hhigh, hstaged, hreplay, hactivates, hawaits⟩ := hallowed
  rcases hkind with ⟨hkind, hucode⟩ | ⟨hkind, hucode, hquiet⟩
  · simp [State.fwActivate, hkind, hucode, hhigh, hstaged, hreplay, hactivates, hawaits, hfails, State.dropStaged]
  · simp [State.fwActivate, hkind, hucode, hquiet, hhigh, hstaged, hreplay, hactivates, hawaits, hfails, State.dropStaged]

/-- The active Watermaster's pause waits for the standby's epoch; any other module's begins (R25). -/
theorem fwActivate_pauses (hpasses : u.stagedFails = none) :
    u.fwActivate sq slot d
      = if u.wm.role = .active then { u.activating sq slot d with fw := { (u.activating sq slot d).fw with pauseWait := true } }
        else (u.activating sq slot d).beginPause := by
  obtain ⟨hkind, hhigh, hstaged, hreplay, hactivates, hawaits⟩ := hallowed
  rcases hkind with ⟨hkind, hucode⟩ | ⟨hkind, hucode, hquiet⟩
  · simp [State.fwActivate, hkind, hucode, hhigh, hstaged, hreplay, hactivates, hawaits, hpasses, State.activating]
  · simp [State.fwActivate, hkind, hucode, hquiet, hhigh, hstaged, hreplay, hactivates, hawaits, hpasses, State.activating]

end

/-- Settles O7: each descriptor passes the checks of its fields and of the update's state, and has its effect. -/
theorem firmwareDescriptorsRun : Obligations.FirmwareDescriptorsRun := by
  unfold Obligations.FirmwareDescriptorsRun
  intro s sq slot d rest hhead u
  refine ⟨?header, ?stream, ?abort, ?activate, fwStatus_reports hhead⟩
  case header =>
    intro hop hkind hgood hturned
    calc execFwBlockHeader sq s
      _ = .next (commit s ((u.fwBlockStart sq slot d).followed sq)) := fwBlockHeader_starts hhead hop hkind
      _ = _ := by rw [fwBlockStart_gathers hgood hturned (by simp [hkind])]
  case stream =>
    intro hop hkind hgood hturned
    calc execFwBlockStream sq s
      _ = .next (commit s ((u.fwBlockStart sq slot d).followed sq)) := fwBlockStream_starts hhead hop hkind
      _ = _ := by rw [fwBlockStart_gathers hgood hturned (by simp [hkind])]
  case abort =>
    intro hop hkind hgood hturned
    calc execFwBlockAbort sq s
      _ = .next (commit s ((u.fwBlockStart sq slot d).followed sq)) := fwBlockAbort_starts hhead hop hkind
      _ = _ := by rw [fwBlockStart_aborts hgood hturned hkind]
  case activate =>
    intro kind hop hkind hhigh hstaged hreplay hactivates hawaits v
    have hallowed : u.ActivateAllowed d := ⟨hkind, hhigh, hstaged, hreplay, hactivates, hawaits⟩
    have hstart : execFwActivate sq s = .next (commit s ((u.fwActivate sq slot d).followed sq)) := fwActivate_starts hhead hop
    refine hstart.trans ?_
    split
    next c hfails => rw [fwActivate_fails hallowed hfails]; rfl
    next hpasses => rw [fwActivate_pauses hallowed hpasses]; rfl

end Sys2Proof.Machine

/-! ## Steps of an update, and the end of a tenant's removal (R512, R529 to R536) -/

namespace Sys2Proof.Machine

/-! ### Messages between partners (R531) -/

theorem updateState_taken {s : State} {m : BitVec 128} (hup : s.agentUp = true) (hpair : s.fab.pairUp = true) (htype : fieldNat m 7 0 = 0x10)
    (hend : fieldNat m 127 11 = 0) (hcode : fieldNat m 10 8 ≤ 5) :
    execUpdateState m s = .next (commit s { s with fw := { s.fw with
      partnerState := BitVec.ofNat 3 (fieldNat m 10 8), partnerAt := s.now } }) :=
  act_of_effect (if_pos ⟨hup, hpair, htype, hend, hcode⟩)

theorem updateStateTimer_due {s : State} (hup : s.agentUp = true) (hbusy : s.fw.state ≠ .idle) (hdue : s.fw.nextUpdate ≤ s.now) :
    execUpdateStateTimer s = .next (commit s s.sendUpdate) :=
  act_of_effect (if_pos ⟨hup, hbusy, hdue⟩)

/-! ### The rebuild (R529) -/

section
variable {s : State} {ok : Bool} (hstate : s.fw.state = .rebuilding)
include hstate

/-- A rebuilt image is staged in the slot that does not run. -/
theorem rebuildComplete_stages {img : FwImage} (hrebuilt : s.rebuilt ok = .ok img) :
    execRebuildComplete ok s = .next (commit s
      ((s.setFw fun u =>
        let v : Update := if u.running then { u with slot0 := img } else { u with slot1 := img }
        { v with state := .staged, header := [], blocks := [], withUcode := bitAt img.sections 1 }).endKind .rebuild { status := stOk })) := by
  rw [execRebuildComplete, act_eq, if_neg (not_not.mpr hstate), hrebuilt]

theorem rebuildComplete_fails {c : Nat} (hrebuilt : s.rebuilt ok = .error c) :
    execRebuildComplete ok s = .next (commit s
      ((s.setFw fun u => { u.emptyOther with
        state := .idle, header := [], blocks := [], lastResult := 3, lastCode := BitVec.ofNat 8 c }).endKind .rebuild
          { status := stSecDenied, detail := c })) := by
  rw [execRebuildComplete, act_eq, if_neg (not_not.mpr hstate), hrebuilt]

end

/-! ### The end of the pause (R532, R536) -/

/-- The pause is over: fetch goes on and Headgate's part of it ends (R532). -/
def State.unpaused (s : State) : State := { s with hst := { s.hst with paused := false }, tt := { s.tt with hgPause := false } }

/-- What waited for the end of the pause goes on: gathered descriptors, removals, ended periods, replay and fetch (R532). -/
def State.resumed (s before : State) : State :=
  let v := forEach (s.jobs.map fun j => (j.sq, j.slot)) (fun s j => s.gathered j.1 j.2) s
  ((((v.nextRemoval (v.removeQueue.length + 1)).settleAll).pumpReplay).fetch).announce before

/-- The trial image runs and waits for its confirmation; cells whose microcode did not match have failed (R532, R534). -/
def State.trialRuns (s : State) (cells : List (Fin 128)) : State :=
  let bad := if s.fw.withUcode then cells else []
  (forEach bad (fun s c => s.failCell c.val) s.unpaused).setFw fun u =>
    let v : Update := { u with state := .awaiting, running := u.trial.getD u.running, ucodeBad := !bad.isEmpty
                               confirmUntil := s.now + msTicks (1000 * clamp 30 300 (s.fld 0xB00010 0 9)) }
    { v with oldFormat := decide (v.slot0.fmt ≠ v.slot1.fmt) }

/-- The activate completes with the length of its pause and the version that runs (R532). -/
def State.activateEnds (s : State) (cells : List (Fin 128)) : State :=
  (s.trialRuns cells).endKind .activate
    { status := stOk, r0 := (s.now - s.fw.pauseAt) / usTicks 1, r1 := (s.trialRuns cells).runImage.version.toNat }

section
variable {s : State} (hpaused : s.hst.paused = true)
include hpaused

theorem activatePauseEnd_fallsBack (cells : List (Fin 128)) (hfalling : s.fw.falling = true) :
    execActivatePauseEnd cells s = .next (commit s ((s.unpaused.setFw fun u => u.fellBack u.lastCode).resumed s)) := by
  refine act_of_effect ((if_neg (by simp [hpaused])).trans ?_)
  simp only [hfalling, if_true]
  rfl

theorem activatePauseEnd_activates (cells : List (Fin 128)) (hgoing : s.fw.falling = false) :
    execActivatePauseEnd cells s = .next (commit s ((s.activateEnds cells).resumed s)) := by
  refine act_of_effect ((if_neg (by simp [hpaused])).trans ?_)
  simp only [hgoing, Bool.false_eq_true, if_false]
  rfl

end

/-! ### Confirmation and fallback (R534 to R536) -/

section
variable {s : State} (hstate : s.fw.state = .awaiting) (hthawed : s.frz.frozen = false) (hcold : s.rst.cold = false)
  (hwarm : s.rst.warm = false)
include hstate hthawed hcold hwarm

theorem confirmation_confirms (hwindow : s.now ≤ s.fw.confirmUntil) (hhealthy : s.stateHealthy = true) (hhawser : s.hawserHealthy = true)
    (hucode : s.fw.ucodeBad = false) (hrole : s.roleHealthy = true) :
    execConfirmation s = .next (commit s (s.setFw fun u => { u.emptyOther with
      state := .idle, activeSlot := u.running, trial := none, minSvn := max u.minSvn (if u.running then u.slot1.svn else u.slot0.svn),
      lastResult := 1, lastCode := 0, oldFormat := false })) :=
  act_of_effect ((if_neg (by simp [hstate, Nat.not_lt.mpr hwindow, hthawed, hcold, hwarm])).trans
    (if_neg (by simp [hhealthy, hhawser, hucode, hrole])))

/-- A trial that is neither frozen nor in reset is judged: the state first, then the microcode, and the rest at the end of the window. -/
theorem confirmWindowExpiry_judges :
    execConfirmWindowExpiry s = .next (commit s
      (if !s.stateHealthy then s.fallBack 0x11
      else if s.fw.ucodeBad then s.fallBack 0x13
      else if !decide (s.fw.confirmUntil ≤ s.now) then s
      else if !s.hawserHealthy then s.fallBack 0x12
      else s.fallBack 0x10)) :=
  act_of_effect (if_neg (by simp [hstate, hthawed, hcold, hwarm]))

end

/-! ### The end of a removal (R512) -/

theorem tenantRemoveWaitEnd_ends {s : State} {r : Removal} (hremoval : s.removal = some r) (hcompute : s.compute = true)
    (hruns : s.hst.paused = false) (hover : s.tenantWork r.ctxs = 0 ∨ r.waitUntil ≤ s.now) :
    execTenantRemoveWaitEnd s = .next (commit s (s.endRemoval r)) := by
  rw [execTenantRemoveWaitEnd, act_eq, hremoval]
  exact congrArg (fun t => Host.Outcome.next (commit s t)) (if_pos ⟨hcompute, by simp [hruns], hover⟩)

/-- Settles O40: each step of an update by its own lemma; a fallback by the check that fails. -/
theorem updateEventsAct : Obligations.UpdateEventsAct := by
  unfold Obligations.UpdateEventsAct
  refine fun s => ⟨fun m hup hpair htype hend hcode => updateState_taken hup hpair htype hend hcode,
    fun hup hbusy hdue => updateStateTimer_due hup hbusy hdue, fun ok img hstate hrebuilt => rebuildComplete_stages hstate hrebuilt,
    fun ok c hstate hrebuilt => rebuildComplete_fails hstate hrebuilt,
    fun cells hpaused hfalling => activatePauseEnd_fallsBack hpaused cells hfalling,
    fun cells hpaused hgoing => activatePauseEnd_activates hpaused cells hgoing,
    fun hstate hwindow hthawed hcold hwarm hhealthy hhawser hucode hrole =>
      confirmation_confirms hstate hthawed hcold hwarm hwindow hhealthy hhawser hucode hrole,
    fun hstate hthawed hcold hwarm => ?window,
    fun r hremoval hcompute hruns hover => tenantRemoveWaitEnd_ends hremoval hcompute hruns hover⟩
  have hjudged := confirmWindowExpiry_judges hstate hthawed hcold hwarm
  refine ⟨fun hsick => hjudged.trans ?state, fun hhealthy hucode hover hhawser => hjudged.trans ?unconfirmed,
    fun hhealthy hucode hover hhawser => hjudged.trans ?link, fun hhealthy hucode => hjudged.trans ?microcode⟩
  case state => simp [hsick]
  case unconfirmed => simp [hhealthy, hucode, hover, hhawser]
  case link => simp [hhealthy, hucode, hover, hhawser]
  case microcode => simp [hhealthy, hucode]

end Sys2Proof.Machine

/-! ## The service console and JTAG (R510, R511, R559 to R567) -/

namespace Sys2Proof.Machine

section
variable {s : State} (haux : s.rail .aux = .good)
include haux

/-- The console is served while aux is present (R559). -/
theorem consoleUp_of_aux : s.consoleUp = true := decide_eq_true haux

/-! ### What it shows (R554 to R558, R560) -/

theorem showLines_shows (f : State → List String) : showLines f s = .next (commit s (s.replyWith (f s) "OK")) :=
  act_of_effect (if_pos (consoleUp_of_aux haux))

/-! ### Self-tests (R561) -/

section
variable {ok : State → Bool} {run fail : State → State}

theorem selfTest_confidential (hconf : s.confMode = true) (pass : Bool) :
    selfTest ok run fail pass s = .next (commit s (s.replyErr 3)) :=
  act_of_effect ((if_neg (by simp [consoleUp_of_aux haux])).trans (if_pos hconf))

variable (hopen : s.confMode = false)
include hopen

theorem selfTest_refused (hstate : s.frz.frozen = true ∨ s.rst.cold = true ∨ s.rst.warm = true ∨ ok s = false) (pass : Bool) :
    selfTest ok run fail pass s = .next (commit s (s.replyErr 4)) :=
  act_of_effect ((if_neg (by simp [consoleUp_of_aux haux])).trans ((if_neg (by simp [hopen])).trans
    (if_pos (hstate.imp_right (Or.imp_right (Or.imp_right (Bool.not_eq_true' _).mpr))))))

/-- An allowed test runs on its unit, and shows its result; one that fails is noted (log 76). -/
theorem selfTest_runs (hthawed : s.frz.frozen = false) (hcold : s.rst.cold = false) (hwarm : s.rst.warm = false) (hok : ok s = true)
    (pass : Bool) :
    selfTest ok run fail pass s = .next (commit s
      (if pass then (run s).replyWith ["pass"] "OK"
      else State.replyWith { fail (run s) with selftestFailed := true } ["fail"] "OK")) :=
  act_of_effect ((if_neg (by simp [consoleUp_of_aux haux])).trans ((if_neg (by simp [hopen])).trans
    (if_neg (by simp [hthawed, hcold, hwarm, hok]))))

end

end

/-- The unit under test may take the test, what the test leaves of it, and how a failure is noted (R561, log 66). -/
structure SelfTest where
  ok : State → Bool
  run : State → State
  fail : State → State

def cellTest (p : Fin 136) : SelfTest where
  ok s := s.cellTestable p
  run s := match s.logicalOf p with
    | some c => s.scramble ((List.range 0x200000).map fun a => cellAddr c a)
    | none => s
  fail s := { s with flash := { s.flash with faultCells := addNew s.flash.faultCells p } }

def decodeTest (e : Fin 16) : SelfTest where
  ok s := s.streams.all fun x => x.engine ≠ e.val
  run s := s
  fail s := { s with flash := { s.flash with faultDecode := addNew s.flash.faultDecode e } }

def memTest (c : Fin 256) : SelfTest where
  ok s := s.noContexts || !s.maps.live.contains c.val
  run s := if s.maps.live.contains c.val
    then s.scramble ((List.range s.capacity).filter fun a => decide (channelOf s.maps.live a = c.val)) else s
  fail s := { s with flash := { s.flash with faultChannels := addNew s.flash.faultChannels c } }

section
variable {s : State} (haux : s.rail .aux = .good)
include haux

/-- All that a self-test answers: refused in confidential mode, refused in another state, passed or failed. -/
theorem selfTest_answers (x : SelfTest) :
    (s.confMode = true → ∀ p, selfTest x.ok x.run x.fail p s = .next (commit s (s.replyErr 3)))
    ∧ (s.confMode = false → (s.frz.frozen = true ∨ s.rst.cold = true ∨ s.rst.warm = true ∨ x.ok s = false) →
        ∀ p, selfTest x.ok x.run x.fail p s = .next (commit s (s.replyErr 4)))
    ∧ (s.confMode = false → s.frz.frozen = false → s.rst.cold = false → s.rst.warm = false → x.ok s = true →
        selfTest x.ok x.run x.fail true s = .next (commit s ((x.run s).replyWith ["pass"] "OK"))
        ∧ selfTest x.ok x.run x.fail false s
          = .next (commit s (State.replyWith { x.fail (x.run s) with selftestFailed := true } ["fail"] "OK"))) :=
  ⟨selfTest_confidential haux, fun hopen hstate => selfTest_refused haux hopen hstate,
    fun hopen hthawed hcold hwarm hok => ⟨selfTest_runs haux hopen hthawed hcold hwarm hok true,
      selfTest_runs haux hopen hthawed hcold hwarm hok false⟩⟩

/-! ### dump (R510, R560) -/

section
variable {a : BitVec 48} {n : Nat}

theorem consoleDump_confidential (hconf : s.confMode = true) (hregion : regionOf a.toNat ≠ .regs) :
    execConsoleDump a n s = .next (commit s (s.replyErr 3)) :=
  act_of_effect ((if_neg (by simp [consoleUp_of_aux haux])).trans (if_pos ⟨hconf, hregion⟩))

theorem consoleDump_frozen (hopen : s.confMode = false) (hfrozen : s.frz.frozen = true) :
    execConsoleDump a n s = .next (commit s (s.replyErr 4)) :=
  act_of_effect ((if_neg (by simp [consoleUp_of_aux haux])).trans ((if_neg (by simp [hopen])).trans (if_pos (.inl hfrozen))))

/-- A dump that nothing refuses shows its bytes, or has a bad argument. -/
theorem consoleDump_reads (hallowed : s.confMode = false ∨ regionOf a.toNat = .regs) (hthawed : s.frz.frozen = false)
    (hcold : s.rst.cold = false) :
    execConsoleDump a n s = .next (commit s (match s.dumpBytes a.toNat n with
      | none => s.replyErr 2
      | some (t, bs) => t.replyWith ((chunks 32 bs).map hexMarked) "OK")) := by
  have hmay : ¬(s.confMode = true ∧ regionOf a.toNat ≠ .regs) := by rcases hallowed with hopen | hregs <;> simp [*]
  exact act_of_effect ((if_neg (by simp [consoleUp_of_aux haux])).trans ((if_neg hmay).trans (if_neg (by simp [hthawed, hcold]))))

end

/-! ### Commands that act (R445, R461 to R463, R560, R562, R567) -/

section
variable {f : State → State}

theorem confirmed_missing : confirmed false f s = .next (commit s (s.replyErr 5)) :=
  act_of_effect ((if_neg (by simp [consoleUp_of_aux haux])).trans (if_pos rfl))

theorem confirmed_acts {t : State} (heffect : f s = t) : confirmed true f s = .next (commit s t) :=
  act_of_effect ((if_neg (by simp [consoleUp_of_aux haux])).trans ((if_neg Bool.false_ne_true).trans heffect))

end

/-- Each of the four without its last word is refused. -/
theorem unconfirmed_refused :
    execConsoleOosClear false s = .next (commit s (s.replyErr 5)) ∧ execConsoleResetWarm false s = .next (commit s (s.replyErr 5))
      ∧ execConsoleResetCold false s = .next (commit s (s.replyErr 5)) ∧ execConsoleFreeze false s = .next (commit s (s.replyErr 5)) :=
  ⟨confirmed_missing haux, confirmed_missing haux, confirmed_missing haux, confirmed_missing haux⟩

theorem consoleOosClear_frozen (hfrozen : s.frz.frozen = true) : execConsoleOosClear true s = .next (commit s (s.replyErr 4)) :=
  confirmed_acts haux (if_pos hfrozen)

theorem consoleOosClear_clears (hthawed : s.frz.frozen = false) :
    execConsoleOosClear true s = .next (commit s (s.clearLatch.replyWith [] "OK")) :=
  confirmed_acts haux (if_neg (by simp [hthawed]))

theorem consoleResetWarm_frozen (hfrozen : s.frz.frozen = true) : execConsoleResetWarm true s = .next (commit s (s.replyErr 4)) :=
  confirmed_acts haux (if_pos (.inl hfrozen))

theorem consoleResetWarm_requests (hthawed : s.frz.frozen = false) (hcold : s.rst.cold = false) :
    execConsoleResetWarm true s = .next (commit s ((s.requestReset .compute 0x06 [] true false).replyWith [] "OK")) :=
  confirmed_acts haux (if_neg (by simp [hthawed, hcold]))

/-- The cold reset of the console ends a freeze too (R567). -/
theorem consoleResetCold_starts (hcold : s.rst.cold = false) :
    execConsoleResetCold true s = .next (commit s ((s.startCold false false).replyWith [] "OK")) :=
  confirmed_acts haux (if_neg (by simp [hcold]))

theorem consoleFreeze_freezes : execConsoleFreeze true s = .next (commit s ((s.freezeNow 0x03).replyWith [] "OK")) :=
  confirmed_acts haux rfl

theorem consoleLedTest_lights :
    execConsoleLedTest s = .next (commit s (State.replyWith { s with ledTestEnd := s.now + 4 * msTicks 1000 } [] "OK")) :=
  act_of_effect (if_pos (consoleUp_of_aux haux))

/-! ### Read-out (R511, R565) and run control (R510, R566) -/

theorem consoleReadout_thawed (hthawed : s.frz.frozen = false) : execConsoleReadout s = .next (commit s (s.replyErr 4)) :=
  act_of_effect ((if_neg (by simp [consoleUp_of_aux haux])).trans (if_pos (by simp [hthawed])))

theorem jtagDebug_opens (hopen : s.confMode = false) (hunlocked : s.debugLocked = false) (hthawed : s.frz.frozen = false) :
    execJtagDebug s = .next (commit s { s with debugOpen := true }) :=
  act_of_effect (if_neg (by simp [consoleUp_of_aux haux, hopen, hunlocked, hthawed]))

variable (hfrozen : s.frz.frozen = true)
include hfrozen

theorem consoleReadout_frozen :
    execConsoleReadout s = .next (commit s (s.replyWith
      ((chunks 32 s.readout.flatten).map readoutLine ++ s.lostLines ++ ["END " ++ toString s.readout.flatten.length]) "OK")) :=
  act_of_effect ((if_neg (by simp [consoleUp_of_aux haux])).trans (if_neg (by simp [hfrozen])))

theorem jtagReadout_reads :
    execJtagReadout s = .next (commit s
      { s with jtag := s.readout.flatten ++ if s.frz.conf || s.frz.computeLost then [] else s.section7 }) :=
  act_of_effect (if_neg (by simp [consoleUp_of_aux haux, hfrozen]))

/-- The last section is left out of a confidential read-out, and where the compute state is lost. -/
theorem jtagReadout_summary (hleft : (s.frz.conf || s.frz.computeLost) = true) :
    execJtagReadout s = .next (commit s { s with jtag := s.readout.flatten }) := by
  rw [jtagReadout_reads haux hfrozen, if_pos hleft, List.append_nil]

theorem jtagReadout_full (hopen : s.frz.conf = false) (hkept : s.frz.computeLost = false) :
    execJtagReadout s = .next (commit s { s with jtag := s.readout.flatten ++ s.section7 }) := by
  rw [jtagReadout_reads haux hfrozen, if_neg (by simp [hopen, hkept])]

end

/-- In confidential mode the instruction acts as BYPASS. -/
theorem jtagDebug_bypasses {s : State} (hconf : s.confMode = true) : execJtagDebug s = .next s := by
  rw [← congrArg Host.Outcome.next (commit_of_kept rfl rfl rfl rfl : commit s s = s)]
  exact act_of_effect (if_pos (.inr (.inl hconf)))

/-- Settles O47: every row is `showLines`, `selfTest`, `confirmed`, or has its own lemma. -/
theorem consoleCommandsAnswer : Obligations.ConsoleCommandsAnswer := by
  unfold Obligations.ConsoleCommandsAnswer
  intro s haux shows refuses test
  refine ⟨?shown, fun p => ?cell, fun e => selfTest_answers haux (decodeTest e), fun c => selfTest_answers haux (memTest c),
    fun a n => ⟨consoleDump_confidential haux, consoleDump_frozen haux, fun t bs hallowed hthawed hcold hbytes => ?dumped,
      fun hallowed hthawed hcold hbytes => ?undumped⟩,
    unconfirmed_refused haux,
    fun hfrozen => ⟨consoleOosClear_frozen haux hfrozen, consoleResetWarm_frozen haux hfrozen⟩, consoleOosClear_clears haux,
    consoleResetWarm_requests haux, consoleResetCold_starts haux, consoleFreeze_freezes haux, consoleLedTest_lights haux,
    consoleReadout_thawed haux, consoleReadout_frozen haux, fun hfrozen hconf => jtagReadout_summary haux hfrozen (by simp [hconf]),
    jtagReadout_full haux, jtagDebug_opens haux, fun hfrozen hlost => jtagReadout_summary haux hfrozen (by simp [hlost]),
    jtagDebug_bypasses⟩
  case shown =>
    have hshow := showLines_shows haux
    exact ⟨hshow fun _ => helpLines, hshow State.verLines, hshow fun s => [stageLine s.boot.report.toNat], hshow State.stageLogLines,
      hshow State.stateLines, hshow State.tempLines, hshow State.voltLines, hshow State.procLines, hshow State.powerLines,
      hshow State.railLines, hshow State.portLines, hshow fun s => fabOffsets.map s.regLine, hshow fun s => memOffsets.map s.regLine,
      hshow fun s => engOffsets.map s.regLine, hshow State.cellLines⟩
  case cell => exact selfTest_answers haux (cellTest p)
  case dumped =>
    have hread := consoleDump_reads haux (n := n) hallowed hthawed hcold
    rw [hbytes] at hread
    exact hread
  case undumped =>
    have hread := consoleDump_reads haux (n := n) hallowed hthawed hcold
    rw [hbytes] at hread
    exact hread

end Sys2Proof.Machine

/-! ## The power controller (R412 to R418, R424 to R427, R430 to R432, R434) -/

namespace Sys2Proof.Machine

/-! ### Samples (R412, R413, R424) -/

section
variable {s : State} (x : PowerSample) (hthawed : s.frz.frozen = false) (hcold : s.rst.cold = false)
  (hfresh : s.pw.sampled ≠ s.time.tick / 256)
include hthawed hcold hfresh

theorem powerSample_reads (hidle : s.controller = false) : execPowerSample x s = .next (commit s (s.takeReadings x)) :=
  act_of_effect ((if_neg (by simp [hthawed, hcold, hfresh])).trans (if_pos (by simp [hidle])))

/-- The controller decides on the estimate and the demand, unless the alert governs. -/
theorem powerSample_decides (hruns : s.controller = true) :
    execPowerSample x s
      = .next (commit s (if (s.takeSample x).pw.alert then s.takeSample x else (s.takeSample x).decide_ x)) :=
  act_of_effect ((if_neg (by simp [hthawed, hcold, hfresh])).trans (if_neg (by simp [hruns])))

end

/-! ### Trims (R414, R434) -/

section
variable {m e : Nat} (free : BitVec 8)

theorem trimOf_low (hlow : 10 * m < 9 * e) : trimOf m e free = (900, true) := if_pos hlow

theorem trimOf_high (hhigh : 11 * e < 10 * m) : trimOf m e free = (1100, true) := by
  rw [trimOf, if_neg (by omega), if_pos hhigh]

/-- Inside the limits the filter's value is free (log 3). -/
theorem trimOf_inside (hlow : 9 * e ≤ 10 * m) (hhigh : 10 * m ≤ 11 * e) : trimOf m e free = (900 + free.toNat % 201, false) := by
  rw [trimOf, if_neg (by omega), if_neg (by omega)]

end

/-- The trim of the module's input power: a factor and whether the estimator fails (R414). -/
def State.withTrim (s : State) (t : Nat × Bool) : State :=
  { s with freeCtr := s.freeCtr + 1, pw := { s.pw with trimNum := t.1, estFault := t.2 } }

/-- The trim of one rail's current, where the rail has an average (R434). -/
def State.trimRail (rs : List Nat) (acc : State) (n : Nat) : State :=
  if acc.pw.railAvg.getD n 0 = 0 then acc
  else
    let f := acc.free 8
    let t := trimOf (rs.getD n 0) (acc.pw.railAvg.getD n 0) f.2
    { f.1 with pw := { f.1.pw with railTrim := f.1.pw.railTrim.set n t.1, estFault := f.1.pw.estFault || t.2 } }

section
variable {s : State} {mv ma : Nat} {rs : List Nat} (hruns : s.controller = true) (hest : 0 < s.pw.est1ms)
include hruns hest

theorem trimUpdate_module (hmodule : s.perRail = false) :
    execTrimUpdate ⟨mv, ma, rs⟩ s = .next (commit s (s.withTrim (trimOf (mv * ma / 1000) s.pw.est1ms (s.free 8).2))) :=
  act_of_effect ((if_neg (by simp [hruns]; omega)).trans (if_pos (by simp [hmodule])))

theorem trimUpdate_rails (hrails : s.perRail = true) :
    execTrimUpdate ⟨mv, ma, rs⟩ s = .next (commit s (forEach (List.range 6) (State.trimRail rs)
      (s.withTrim (trimOf (mv * ma / 1000) s.pw.est1ms (s.free 8).2)))) :=
  act_of_effect ((if_neg (by simp [hruns]; omega)).trans (if_neg (by simp [hrails])))

end

/-! ### Voltage steps (R417, R431) -/

theorem voltageReached_steps {s : State} {o : Nat} (htarget : s.pw.target = some o) (hcompute : s.compute = true) :
    execVoltageReached s = .next (commit s (if s.deferring then { s with pw := { s.pw with deferred := some o } }
      else State.noteFull { s.setOp o with pw := { (s.setOp o).pw with target := none } } s)) := by
  rw [execVoltageReached, act_eq, htarget]
  exact congrArg (fun t => Host.Outcome.next (commit s t)) (if_neg (by simp [hcompute]))

/-! ### Droops (R430 to R432) -/

/-- The droops of the last 1 ms, this one among them (R432). -/
def State.stormOf (s : State) : List Nat := (s.pw.storm.filter fun t => decide (s.now < t + msTicks 1)) ++ [s.now]

/-- A droop of physical cell p is noted, and a falling voltage halts (R430, R431). -/
def State.droopNoted (s : State) (p : Fin 136) : State :=
  { s with pw := { s.pw with
    droops := s.pw.droops ++ [p.val], voltageHalted := true, storm := s.stormOf
    droopLog := (s.pw.droopLog.filter fun d => decide (s.now < d.1 + msTicks 1000)) ++ [(s.now, s.groupOf p)] } }

/-- A storm takes one down action and bars up actions for 10 ms (R432). -/
def State.stormDown (u : State) (now : Nat) : State :=
  { u.oneDown with pw := { u.oneDown.pw with storm := [], storms := u.oneDown.pw.storms + 1, noUpUntil := now + msTicks 10 } }

section
variable {s : State} {p : Fin 136} (hcompute : s.compute = true)
include hcompute

section
variable (hclock : s.islandRuns p = true) (hcalm : s.pw.droops.contains p.val = false)
include hclock hcalm

theorem droopStart_noted (hfew : s.stormOf.length ≤ s.stormLimit) : execDroopStart p s = .next (commit s (s.droopNoted p)) :=
  act_of_effect ((if_neg (by simp only [hcompute, hclock, hcalm]; simp)).trans (if_neg fun h => Nat.not_lt.mpr hfew h.1))

theorem droopStart_storm (hmany : s.stormLimit < s.stormOf.length) (hruns : s.controller = true) :
    execDroopStart p s = .next (commit s ((s.droopNoted p).stormDown s.now)) :=
  act_of_effect ((if_neg (by simp only [hcompute, hclock, hcalm]; simp)).trans (if_pos ⟨hmany, hruns⟩))

end

theorem droopEnd_noted (hdroops : s.pw.droops.contains p.val = true) :
    execDroopEnd p s = .next (commit s { s with pw := { s.pw with
      droops := s.pw.droops.erase p.val, lastDroop := if (s.pw.droops.erase p.val).isEmpty then max 1 s.now else s.pw.lastDroop } }) :=
  act_of_effect (if_neg (by simp only [hcompute, hdroops]; simp))

/-- The time after the last droop is over (R431). -/
def State.droopsOver (s : State) : State := { s with pw := { s.pw with lastDroop := 0, voltageHalted := false, deferred := none } }

section
variable (hcalm : s.pw.droops = []) (hlast : s.pw.lastDroop ≠ 0) (hdue : s.pw.lastDroop + usTicks 5 ≤ s.now)
include hcalm hlast hdue

theorem droopDeferExpiry_none (hnone : s.pw.deferred = none) : execDroopDeferExpiry s = .next (commit s s.droopsOver) := by
  refine act_of_effect ((if_neg (by simp [hcompute, hcalm, hlast, Nat.not_lt.mpr hdue])).trans ?_)
  rw [hnone]
  rfl

/-- The deferred step is carried out: down at once, up as its voltage is reached. -/
theorem droopDeferExpiry_step {o : Nat} (hsome : s.pw.deferred = some o) :
    execDroopDeferExpiry s = .next (commit s
      (if o ≤ s.pw.op ∨ s.pw.target = some o then
        State.noteFull { s.droopsOver.setOp o with pw := { (s.droopsOver.setOp o).pw with target := none } } s
      else { s.droopsOver with pw := { s.droopsOver.pw with target := some o } })) := by
  refine act_of_effect ((if_neg (by simp [hcompute, hcalm, hlast, Nat.not_lt.mpr hdue])).trans ?_)
  rw [hsome]
  rfl

end

end

/-! ### Heat (R426, R427) -/

theorem thermalThrottle_holds {s : State} (hruns : s.controller = true) (hhot : s.hotterThan s.throttleC = true) :
    execThermalThrottle s = .next (commit s
      (let u := State.heatAlert { s with pw := { s.pw with thermalHold := true } }
        if s.now < s.pw.lastStep + s.upTicks then u else u.oneDown)) :=
  act_of_effect (if_neg (by simp [hruns, hhot]))

section
variable {s : State} {n : Fin 64} {x : BitVec 12} (htemp : 8 * 105 ≤ tempOf x) (hdie : n.val < 48) (hcold : s.rst.cold = false)
include htemp hdie hcold

/-- What a die sensor at its limit does, by its region. -/
theorem thermalTrip_trips :
    execThermalTrip n x s = .next (commit s
      (if agentSensor n then
        if s.frz.frozen then { s with pw := { s.pw with agentTrip := true }, frz := { s.frz with agentLost := true } }
        else { s.oosEvent.startCold true false with pw := { (s.oosEvent.startCold true false).pw with agentTrip := true } }
      else if s.frz.frozen then
        State.setRail { s with pw := { s.pw with thermalTrip := true }, frz := { s.frz with computeLost := true } } .vcore .off
      else if s.pw.thermalTrip then s
      else ((State.oosEvent { s with pw := { s.pw with thermalTrip := true } }).startWarm 0x05 false).setRail .vcore .off)) :=
  act_of_effect (if_neg (by simpa [Nat.not_le.mpr hdie, hcold] using htemp))

end

/-- Settles O42: the samples, trims, droops and trips each by their own lemma; a trim by where the measured power lies. -/
theorem powerControllerActs : Obligations.PowerControllerActs := by
  unfold Obligations.PowerControllerActs
  refine fun s => ⟨fun x hthawed hcold hfresh => ⟨powerSample_reads x hthawed hcold hfresh, fun hruns => ⟨rfl,
      powerSample_decides x hthawed hcold hfresh hruns⟩⟩, fun mv ma rs hruns hest hmodule => ?module,
    fun mv ma rs hruns hest hrails => trimUpdate_rails hruns hest hrails,
    fun o htarget hcompute => voltageReached_steps htarget hcompute,
    fun p hcompute hclock hcalm => ⟨droopStart_noted hcompute hclock hcalm, droopStart_storm hcompute hclock hcalm⟩,
    fun p hcompute hdroops => droopEnd_noted hcompute hdroops,
    fun hcompute hcalm hlast hdue => ⟨droopDeferExpiry_none hcompute hcalm hlast hdue,
      fun o hsome => droopDeferExpiry_step hcompute hcalm hlast hdue hsome⟩,
    fun hruns hhot => thermalThrottle_holds hruns hhot, fun n x htemp hdie hcold => ?trip⟩
  case module =>
    have htrim := trimUpdate_module (mv := mv) (ma := ma) (rs := rs) hruns hest hmodule
    refine ⟨fun hlow => ⟨_, htrim, ?_⟩, fun hhigh => ⟨_, htrim, ?_⟩,
      fun hlow hhigh => ⟨_, 900 + (s.free 8).2.toNat % 201, htrim, ?_, by omega, by omega⟩⟩
    · rw [trimOf_low _ hlow]; rfl
    · rw [trimOf_high _ hhigh]; rfl
    · rw [trimOf_inside _ hlow hhigh]; rfl
  case trip =>
    have htrip := thermalTrip_trips htemp hdie hcold
    refine ⟨fun hagent hthawed => htrip.trans ?agent, fun hagent hfrozen => htrip.trans ?agentFrozen,
      fun hdie hthawed hfirst => htrip.trans ?die, fun hdie hfrozen => htrip.trans ?dieFrozen⟩
    case agent => rw [if_pos hagent, if_neg (by simp [hthawed])]
    case agentFrozen => rw [if_pos hagent, if_pos hfrozen]
    case die => rw [if_neg (by simp [hdie]), if_neg (by simp [hthawed]), if_neg (by simp [hfirst])]
    case dieFrozen => rw [if_neg (by simp [hdie]), if_pos hfrozen]

end Sys2Proof.Machine

/-! ## The alert wire, the hot-swap stage, the rail sequence and the pins (R427 to R429, R550, R567, R571 to R573, R577 to R580) -/

namespace Sys2Proof.Machine

/-! ### The alert wire (R428, R429, R550, R573) -/

/-- The wire has fallen: every cell at OP0, trickle work shed, Headgate closed (R429). -/
def State.alertFallen (s : State) : State :=
  let u := s.setOp 0
  State.railAlert { u with
    pw := { u.pw with alert := true, alertHold := none, alertCount := s.pw.alertCount + 1, target := none, deferred := none, shed := true
                      lastStep := s.now }
    tt := { u.tt with hgPower := true } }

section
variable {s before : State} (hthawed : s.frz.frozen = false)
include hthawed

theorem wire_falls (hlow : s.alertLow = true) (hwas : before.alertLow = false) : s.wire before = s.alertFallen :=
  (if_neg (by simp [hlow, hwas])).trans ((if_neg (by simp [hthawed])).trans (if_pos hlow))

/-- The wire has risen: the hold begins (R429). -/
theorem wire_rises (hhigh : s.alertLow = false) (hwas : before.alertLow = true) :
    s.wire before = State.railAlert { s with pw := { s.pw with alertHold := some (s.now + s.alertHoldTicks) } } :=
  (if_neg (by simp [hhigh, hwas])).trans ((if_neg (by simp [hthawed])).trans (if_neg (by simp [hhigh])))

end

/-- ALERT_N low holds the wire low. -/
theorem alertLow_of_alertN {s : State} (hpin : s.sup.alertN = false) : s.alertLow = true := by
  rw [State.alertLow, hpin]
  rfl

section
variable {s : State} (hcold : s.rst.cold = false)
include hcold

section
variable (hthawed : s.frz.frozen = false)
include hthawed

theorem alertNFall_falls (hhigh : s.alertLow = false) :
    execAlertNFall s = .next (commit s (State.alertFallen { s with sup := { s.sup with alertN := false } })) :=
  act_of_effect ((if_neg (by simp [hcold])).trans (wire_falls hthawed (alertLow_of_alertN rfl) hhigh))

theorem alertNRise_rises (hlow : s.alertLow = true) (hhigh : State.alertLow { s with sup := { s.sup with alertN := true } } = false) :
    execAlertNRise s = .next (commit s (State.railAlert { s with
      sup := { s.sup with alertN := true }, pw := { s.pw with alertHold := some (s.now + s.alertHoldTicks) } })) :=
  act_of_effect ((if_neg (by simp [hcold])).trans (wire_rises hthawed hhigh hlow))

omit hcold in
theorem alertHoldExpiry_ends {t : Nat} (hhold : s.pw.alertHold = some t) (hdue : t ≤ s.now) :
    execAlertHoldExpiry s = .next (commit s { s with pw := { s.pw with alert := false, alertHold := none } }) := by
  refine act_of_effect ?_
  rw [hhold]
  exact if_neg (by simp [hthawed, Nat.not_lt.mpr hdue])

/-- A reading that leaves its range, or comes back, is noted, and ALERT 0x02 formed anew (R580). -/
theorem railOutOfRange_noted {p : RailPoint} (hgood : s.sup.rangeBad.contains p = false) :
    execRailOutOfRange p s = .next (commit s (State.railAlert { s with sup := { s.sup with rangeBad := s.sup.rangeBad ++ [p] } })) :=
  act_of_effect (if_neg (by simp only [hcold, hthawed, hgood]; simp))

theorem railBackInRange_noted {p : RailPoint} (hbad : s.sup.rangeBad.contains p = true) :
    execRailBackInRange p s = .next (commit s (State.railAlert { s with sup := { s.sup with rangeBad := s.sup.rangeBad.erase p } })) :=
  act_of_effect (if_neg (by simp only [hcold, hthawed, hbad]; simp))

end

theorem auxPinChange_taken (l : Bool) :
    execAuxPinChange l s = .next (commit s (State.wire { s with sup := { s.sup with aux := l } } s)) :=
  act_of_effect (if_neg (by simp [hcold]))

theorem resetN_starts (hswap : s.sup.hotSwap = true) :
    execResetN s = .next (commit s (State.startCold { s with sup := { s.sup with resetN := false } } false true)) :=
  act_of_effect ((if_neg (by simp [hswap])).trans (if_neg (by simp [hcold])))

end

/-! ### The hot-swap stage and the rail sequence (R571, R577 to R580) -/

/-- The 54 V input is lost: every rail is off, and the module is held in cold reset (R577, R579). -/
def State.inputLost (s : State) : State :=
  let u := if s.rst.cold then s else s.startCold false false
  { u with
    frz := {}, rst := { u.rst with cold := true, byFreeze := false, byThermal := false }
    sup := { u.sup with hotSwap := false, rangeBad := [], rails := u.sup.rails.map fun e => (e.1, .off) } }

theorem hotSwapClose_closes {s : State} {mv : Nat} (hopen : s.sup.hotSwap = false) (hinput : 50000 ≤ mv) :
    execHotSwapClose mv s = .next (commit s (State.setRail { s with sup := { s.sup with hotSwap := true } } .aux .ramping)) :=
  act_of_effect (if_neg (by simp [hopen, Nat.not_lt.mpr hinput]))

theorem hotSwapOpen_opens {s : State} (hclosed : s.sup.hotSwap = true) : execHotSwapOpen s = .next (commit s s.inputLost) :=
  act_of_effect (if_neg (by simp [hclosed]))

/-- A rail other than aux and VSER that does not come up ends stage 0; the agent says which (R479, R580). -/
def State.railFails (s : State) (r : Rail) : State :=
  let u := s.setRail r .failed
  let v := State.endCold { u with boot := { u.boot with stage := 0, phase := .ended, halted := true, failedStage := true } }
  (State.sendPresent { v with tow := { v.tow with agentOn := true, culvertOpen := true } }).stageReport 0 6 (railIndex r)

section
variable {s : State} {r : Rail} (hramps : s.rail r = .ramping)
include hramps

theorem railPowerGood_next {n : Rail} (hrail : r ≠ .aux) (hnext : nextRail r = some n) :
    execRailPowerGood r s = .next (commit s ((s.setRail r .good).setRail n .ramping)) := by
  refine act_of_effect ((if_neg (not_not.mpr hramps)).trans ?_)
  rw [hnext]
  cases r with
  | aux => exact absurd rfl hrail
  | _ => rfl

theorem railPowerGoodTimeout_fails (hrail : r ≠ .aux) (hserial : r ≠ .vser) :
    execRailPowerGoodTimeout r s = .next (commit s (s.railFails r)) :=
  act_of_effect ((if_neg (not_not.mpr hramps)).trans ((if_neg hrail).trans (if_neg hserial)))

end

/-- The last rail ends the cold reset. -/
theorem railPowerGood_last {s : State} (hramps : s.rail .vddq = .ramping) :
    execRailPowerGood .vddq s = .next (commit s (s.setRail .vddq .good).endCold) :=
  act_of_effect (if_neg (not_not.mpr hramps))

/-- After aux the sequence goes on only where nothing holds the cold reset. -/
theorem railPowerGood_aux {s : State} (hramps : s.rail .aux = .ramping) :
    execRailPowerGood .aux s = .next (commit s
      (let u := s.setRail .aux .good; State.releaseCold { u with rst := { u.rst with byResetN := !s.sup.resetN } })) :=
  act_of_effect (if_neg (not_not.mpr hramps))

/-! ### The end of a thermal hold (R427) -/

section
variable {s : State} (hthawed : s.frz.frozen = false) (hcool : (s.readings 0 48).any (fun t => decide (8 * 85 < t)) = false)
include hthawed hcool

theorem thermalHoldEnd_cold (hcold : s.rst.cold = true) :
    execThermalHoldEnd s = .next (commit s
      (State.releaseCold { s with rst := { s.rst with byThermal := false }, pw := { s.pw with agentTrip := false } })) :=
  act_of_effect ((if_neg (by simp only [hthawed, hcool]; simp)).trans (if_pos hcold))

theorem thermalHoldEnd_warm (hcold : s.rst.cold = false) (htripped : s.pw.thermalTrip = true) :
    execThermalHoldEnd s = .next (commit s (State.setRail { s with pw := { s.pw with thermalTrip := false } } .vcore .good)) :=
  act_of_effect ((if_neg (by simp only [hthawed, hcool]; simp)).trans ((if_neg (by simp [hcold])).trans (if_pos htripped)))

end

/-- Settles O43: the wire by `wire_falls` and `wire_rises`; each stage, rail and pin by its own lemma. -/
theorem alertAndSupplyEventsAct : Obligations.AlertAndSupplyEventsAct := by
  unfold Obligations.AlertAndSupplyEventsAct
  exact ⟨fun s hcold hthawed => ⟨alertNFall_falls hcold hthawed, alertNRise_rises hcold hthawed,
      fun t hhold hdue => alertHoldExpiry_ends hthawed hhold hdue, auxPinChange_taken hcold⟩,
    fun s => ⟨fun mv hopen hinput => hotSwapClose_closes hopen hinput, hotSwapOpen_opens,
      fun r n hramps hrail hnext => railPowerGood_next hramps hrail hnext, railPowerGood_last, railPowerGood_aux,
      fun r hramps hrail hserial => railPowerGoodTimeout_fails hramps hrail hserial,
      fun p hcold hthawed => ⟨railOutOfRange_noted hcold hthawed, railBackInRange_noted hcold hthawed⟩,
      fun hswap hcold => resetN_starts hcold hswap, act_eq _ _, act_eq _ _, act_eq _ _,
      fun hthawed hcool => ⟨thermalHoldEnd_cold hthawed hcool, thermalHoldEnd_warm hthawed hcool⟩⟩⟩

end Sys2Proof.Machine

/-! ## Sequenced commands of the agent (R343 to R348, R354, R366, R380, R399, R400, R419) -/

namespace Sys2Proof.Machine

/-- A sequenced command in its turn that does its work is obeyed, with OK. -/
theorem runCmd_obeyed {s u : State} {env : BitVec 256} {e : End} {i : Instr} {body : List Byte} (hturn : s.inTurn env)
    (hi : cmdEnv i = some (env, e)) (hdo : s.agentDo i = (u, arOk, body)) :
    act (fun s => s.runCmd env i) s = .next (commit s (State.obeyed env e (u, arOk, body))) :=
  act_of_effect ((runCmd_of_inTurn hturn hi).trans (congrArg _ hdo))

/-! ### Route tables (R343 to R346) -/

theorem rtWrite_written {s : State} {t : RtTable} {first : Nat} {es : List (BitVec 32)} (hcensus : s.fab.censusDone = true)
    (hfits : first + es.length ≤ rtSize t) (hplain : ∀ x ∈ es, rtReserved t x = false) (hfree : t = .flow → s.flowLocked first es = false) :
    s.rtWrite t first es = did (s.setBank (!s.epoch) ((s.bank (!s.epoch)).write t first es)) := by
  have hany : es.any (rtReserved t) = false := List.any_eq_false.mpr fun x hx => by simp [hplain x hx]
  have hopen : ¬(t = .flow ∧ s.flowLocked first es = true) := fun h => by simp [hfree h.1] at h
  rw [State.rtWrite, if_neg (by simp [hcensus]), if_neg (by simp [hany, hfits]), if_neg hopen]

theorem rtSwitch_switched {s : State} {v : BitVec 16} {t : Nat} (hcensus : s.fab.censusDone = true) (hv : v = s.fab.version + 1)
    (hframe : t % frameTicks = 0) :
    s.rtSwitch v t = did (if t ≤ s.time.tick then s.switchNow else { s with fab := { s.fab with switchAt := some t } }) := by
  rw [State.rtSwitch, if_neg (by simp [hcensus]), if_neg (by simp [hv, hframe])]
  exact (apply_ite did _ _ _).symm

theorem censusEnd_ended {s : State} {v : BitVec 16} (hv : v = s.fab.version) :
    s.censusEnd v = did { s with fab := { s.fab with censusDone := true } } :=
  if_neg (not_not.mpr hv)

/-! ### Fences and slices (R354, R380) -/

/-- A fence entry is written, and stands over one that a removal wrote (R354, R512). -/
def State.fenceWritten (s : State) (m : Nat) (w : BitVec 16) : State :=
  { s with
    fab := { s.fab with fences := sset 0 s.fab.fences m w }
    removal := if m = s.selfIdx then s.removal.map fun r => { r with fenced := false } else s.removal }

theorem fence_written {s : State} (m : Nat) {w : BitVec 16} (hplain : fieldNat w 15 9 = 0) : s.fence m w = did (s.fenceWritten m w) :=
  if_neg (not_not.mpr hplain)

/-! ### Plan pieces (R366, R399) -/

/-- The pieces held of a plan of a total, with this one in the place of one at its offset (R399). -/
def State.piecesWith (s : State) (off total : Nat) (piece : List Byte) : List (Nat × List Byte) :=
  (if s.agent.planTotal = total then s.agent.planParts.filter (fun x => x.1 ≠ off) else []) ++ [(off, piece)]

/-- The bytes of a plan without a gap from its start (R399). -/
def wholeOf (parts : List (Nat × List Byte)) : List Byte :=
  (sortBy (·.1) parts).foldl (fun (acc : List Byte) x => if acc.length = x.1 then acc ++ x.2 else acc) []

section
variable {s : State} {off total : Nat} {piece : List Byte} (hfits : off + piece.length ≤ total)
include hfits

theorem planPiece_kept (hpart : (wholeOf (s.piecesWith off total piece)).length < total) :
    s.planPiece off total piece
      = did { s with agent := { s.agent with planParts := s.piecesWith off total piece, planTotal := total } } :=
  (if_neg (Nat.not_lt.mpr hfits)).trans (if_pos hpart)

theorem planPiece_taken (hall : total ≤ (wholeOf (s.piecesWith off total piece)).length)
    (hnew : s.flash.plan ≠ some (wholeOf (s.piecesWith off total piece)))
    (hok : planOk (wholeOf (s.piecesWith off total piece)) = true) (hnewer : s.newer (wholeOf (s.piecesWith off total piece)) = true) :
    s.planPiece off total piece
      = did (State.putPlan { s with agent := { s.agent with planParts := [], planTotal := 0 } } (wholeOf (s.piecesWith off total piece))) :=
  (if_neg (Nat.not_lt.mpr hfits)).trans <| (if_neg (Nat.not_lt.mpr hall)).trans <| (if_neg hnew).trans <| if_pos ⟨hok, hnewer⟩

end

/-- Settles O35: each command in its turn does its work and is obeyed. -/
theorem agentCommandsRun : Obligations.AgentCommandsRun := by
  unfold Obligations.AgentCommandsRun
  intro s env e hturn
  refine ⟨?_, ?_, ?_, ?_, ?_, ?_, ?_, ?_, ?_, ?_⟩
  · intro t first es hcensus hfits hplain hfree
    exact runCmd_obeyed hturn rfl (rtWrite_written hcensus hfits hplain hfree)
  · intro v at_ hcensus hv hframe
    exact runCmd_obeyed hturn rfl (rtSwitch_switched hcensus hv hframe)
  · intro v hv
    exact runCmd_obeyed hturn rfl (censusEnd_ended hv)
  · intro m w hplain
    exact ⟨runCmd_obeyed hturn rfl (fence_written m.val hplain), runCmd_obeyed hturn rfl (fence_written m.val hplain)⟩
  · intro r
    exact runCmd_obeyed hturn rfl rfl
  · intro u hu
    exact runCmd_obeyed hturn rfl (if_neg hu)
  · intro q
    exact runCmd_obeyed hturn rfl rfl
  · intro x
    exact runCmd_obeyed hturn rfl rfl
  · intro off total piece _ _ _ hfits
    exact ⟨fun hpart => runCmd_obeyed hturn rfl (planPiece_kept hfits hpart),
      fun hall hnew hok hnewer => runCmd_obeyed hturn rfl (planPiece_taken hfits hall hnew hok hnewer)⟩
  · exact runCmd_obeyed hturn rfl rfl

end Sys2Proof.Machine

/-! ## The switch, the census and held commands (R346, R347, R349, R400) -/

namespace Sys2Proof.Machine

theorem switchTick_switches {s : State} {t : Nat} (hup : s.agentUp = true) (hat : s.fab.switchAt = some t) (hdue : t ≤ s.time.tick) :
    execSwitchTick s = .next (commit s s.switchNow) := by
  rw [execSwitchTick, act_eq, hat]
  exact congrArg (fun t => Host.Outcome.next (commit s t)) (if_pos ⟨hup, hdue⟩)

/-- Settles O36: each event of the census and of the held commands in the state in which it is due. -/
theorem censusEventsAct : Obligations.CensusEventsAct := by
  unfold Obligations.CensusEventsAct
  intro s hup
  refine ⟨fun t hat hdue => switchTick_switches hup hat hdue, ?_, ?_, ?_⟩
  · intro hcount hdrained hopen hdue
    exact act_of_effect (if_pos ⟨hup, hcount, hdrained, by simp [hopen], hdue⟩)
  · intro hcount hold hdue
    exact act_of_effect (if_pos ⟨hup, hcount, hold, hdue⟩)
  · intro h hfind
    have hdue := List.find?_some hfind
    have hheld : s.agent.held.any (fun x => decide (x.2.2 + msTicks 10 ≤ s.now)) = true :=
      List.any_eq_true.mpr ⟨h, List.mem_of_find?_eq_some hfind, hdue⟩
    exact act_of_effect (if_pos ⟨hup, hheld⟩)

end Sys2Proof.Machine

/-! ## The lease (R391, R395 to R398) -/

namespace Sys2Proof.Machine

/-- A candidate has taken the lease under its epoch, and is answered (R397, R398). -/
def State.leaseGiven (s : State) (env : BitVec 256) (e : End) (cycle : BitVec 64) : State :=
  let u := State.answerCmd { s with agent := { s.agent with
    epoch := eEpoch env, holder := e, hasLease := true, expiry := leaseEnd cycle.toNat, nextSeq := 1, kept := [], lastLive := s.now } }
    env e arOk []
  { u with wm := { u.wm with known := max u.wm.known (eEpoch env).toNat } }

section
variable {s : State} {env : BitVec 256} {e : End} (cycle : BitVec 64) (hup : s.agentUp = true) (hask : eAnswer env = false)
include hup hask

theorem leaseRenew_renewed (hepoch : eEpoch env = s.agent.epoch) (hholder : e = s.agent.holder) (hlive : s.leaseLive = true) :
    execLeaseRenew env e cycle s = .next (commit s
      (State.answerCmd { s with agent := { s.agent with expiry := leaseEnd cycle.toNat, lastLive := s.now } } env e arOk [])) :=
  act_of_effect ((if_neg (by simp [hup, hask])).trans (if_pos ⟨hepoch, hholder, hlive⟩))

section
variable (hcand : s.candidates.contains e = true) (hfree : s.leaseLive = false) (hgreater : s.agent.epoch < eEpoch env)
include hcand hfree hgreater

/-- A candidate takes the lease where none is live; who it is decides what becomes of the member here. -/
theorem leaseTake_taken {v : State} (hv : (if e = s.ownEnd then
      (if s.wm.seeking then (s.leaseGiven env e cycle).becomeActive else s.leaseGiven env e cycle)
      else if s.wm.role = .active ∨ s.wm.seeking then (s.leaseGiven env e cycle).demote else s.leaseGiven env e cycle) = v)
    (hpause : v.fw.pauseWait = false) :
    execLeaseTake env e cycle s = .next (commit s (v.runHeld 65)) := by
  subst hv
  refine act_of_effect ((if_neg (by simp [hup, hask])).trans ?_)
  refine (if_neg (by simp only [hcand]; simp)).trans ((if_neg (by simp [hfree])).trans ((if_neg (by simp [hgreater])).trans ?_))
  exact if_neg (Bool.eq_false_iff.mp hpause)

end
end

section
variable {s : State} (hup : s.agentUp = true) (hhas : s.agent.hasLease = true) (hover : s.agent.expiry ≤ s.time.tick)
include hup hhas hover

theorem leaseExpiry_other (hother : s.agent.holder ≠ s.ownEnd) :
    execLeaseExpiry s = .next (commit s { s with agent := { s.agent with hasLease := false, lastLive := s.now } }) :=
  act_of_effect ((if_pos ⟨hup, hhas, hover⟩).trans (if_neg hother))

/-- The holder's own lease ends: it gives up its role and does not seek the lease for 20 cycles (R397). -/
def State.leaseLost (s : State) : State :=
  let u := State.demote { s with agent := { s.agent with hasLease := false, lastLive := s.now } }
  { u with wm := { u.wm with seekAfter := s.cycleNow + 20 } }

theorem leaseExpiry_own (hown : s.agent.holder = s.ownEnd) :
    execLeaseExpiry s = .next (commit s
      (if s.leaseLost.fw.pauseWait = true ∧ s.wm.standby = false then s.leaseLost.beginPause else s.leaseLost)) := by
  refine act_of_effect ((if_pos ⟨hup, hhas, hover⟩).trans ((if_pos hown).trans ?_))
  simp only [Bool.not_eq_true']
  rfl

end

section
variable {s : State} (heligible : s.eligible = true) (hafter : s.wm.seekAfter ≤ s.cycleNow)
include heligible hafter

theorem leaseSeek_joins (hrole : s.wm.role = .none) (hlive : s.leaseLive = true) (hother : s.agent.holder ≠ s.ownEnd) :
    execLeaseSeek s = .next (commit s (State.pairMsg { s with wm := { s.wm with
      role := .joining, fullParts := [], epoch := s.agent.epoch.toNat, seeking := false } } 0x03 [])) :=
  act_of_effect ((if_neg (by simp [heligible, hrole, hafter])).trans ((if_pos hlive).trans (if_pos ⟨hrole, hother⟩)))

theorem leaseSeek_seeks (hrole : s.wm.role ≠ .active) (hfree : s.leaseLive = false) (hwaited : s.agent.lastLive + s.seekWait ≤ s.now) :
    execLeaseSeek s = .next (commit s
      (forEach s.agents (fun t a => t.sendEnv a.2
          (envelope 0x02 0 false 1 (max s.wm.known s.agent.epoch.toNat + 1) 0 (leBytes 8 s.cycleNow)) (leBytes 8 s.cycleNow))
        { s with wm := { s.wm with
          epoch := max s.wm.known s.agent.epoch.toNat + 1, known := max s.wm.known s.agent.epoch.toNat + 1, seeking := true } })) :=
  act_of_effect ((if_neg (by simp [heligible, hrole, hafter])).trans ((if_neg (by simp [hfree])).trans (if_neg (Nat.not_lt.mpr hwaited))))

end

/-- Settles O37: the lease is renewed, taken by another or by this member, ended, and sought. -/
theorem leaseMoves : Obligations.LeaseMoves := by
  unfold Obligations.LeaseMoves
  intro s env e cycle hup
  refine ⟨?_, ?_, ?_, ?_, ?_, ?_, ?_⟩
  · intro hask hepoch hholder hlive
    exact leaseRenew_renewed cycle hup hask hepoch hholder hlive
  · intro hask hcand hfree hgreater hother hrole hseek _ _ _ hpause
    exact leaseTake_taken cycle hup hask hcand hfree hgreater ((if_neg hother).trans (if_neg (by simp [hrole, hseek]))) hpause
  · intro hask hcand hfree hgreater hseek _ _ hpause
    exact leaseTake_taken cycle hup hask hcand hfree hgreater ((if_pos rfl).trans (if_pos hseek)) hpause
  · exact fun hhas hover hother => leaseExpiry_other hup hhas hover hother
  · exact fun hhas hover hown => leaseExpiry_own hup hhas hover hown
  · exact fun heligible hrole hafter hlive hother => leaseSeek_joins heligible hafter hrole hlive hother
  · exact fun heligible hrole hafter hfree hwaited => leaseSeek_seeks heligible hafter hrole hfree hwaited

end Sys2Proof.Machine

/-! ## Watermaster members (R347, R348, R368, R370, R392 to R404) -/

namespace Sys2Proof.Machine

/-! ### Reports (R368, R398) -/

/-- A member knows of the epoch that a report bears (R398). -/
def State.sawEpoch (s : State) (ep : BitVec 32) : State := { s with wm := { s.wm with known := max s.wm.known ep.toNat } }

theorem agentUp_of_memberUp {s : State} (hup : s.memberUp = true) : s.agentUp = true := by
  simp only [State.memberUp, Bool.and_eq_true] at hup
  exact hup.1.1

section
variable {s : State} {ep : BitVec 32} (f : State → State) (hup : s.memberUp = true)
include hup

theorem wmReport_taken (hlow : s.wm.role = .none ∨ ep.toNat ≤ s.wm.epoch) : s.wmReport ep f = f (s.sawEpoch ep) := by
  refine (if_neg (by simp [hup])).trans (if_neg fun h => ?_)
  obtain hnone | hle := hlow
  · exact h.1 hnone
  · exact Nat.not_lt.mpr hle h.2

theorem wmReport_demotes (hrole : s.wm.role ≠ .none) (hhigh : s.wm.epoch < ep.toNat) : s.wmReport ep f = (s.sawEpoch ep).demote :=
  (if_neg (by simp [hup])).trans (if_pos ⟨hrole, hhigh⟩)

/-- A report is an input of the cycle, or ends the member's role by its epoch. -/
theorem report_acts {f} {c : Instr} {i : WmInput} (hexec : exec c = act fun t => t.wmReport ep f)
    (htake : f (s.sawEpoch ep) = (s.sawEpoch ep).wmTake i) :
    ((s.wm.role = .none ∨ ep.toNat ≤ s.wm.epoch) → exec c s = .next (commit s ((s.sawEpoch ep).wmTake i)))
      ∧ (s.wm.role ≠ .none → s.wm.epoch < ep.toNat → exec c s = .next (commit s (s.sawEpoch ep).demote)) := by
  rw [hexec]
  exact ⟨fun hlow => act_of_effect ((wmReport_taken f hup hlow).trans htake),
    fun hrole hhigh => act_of_effect (wmReport_demotes f hup hrole hhigh)⟩

end

/-- What a MISMATCH does by the member's role (R401). -/
def State.mismatchSeen (s : State) (a : Fin 512) (q : BitVec 32) (sb : Bool) : State :=
  match s.wm.role with
  | .synced => s.detach 0x02
  | .coasting => s.detach 0x02
  | _ => s.wmTake (.mismatch a q sb)

theorem mismatchSeen_takes {s : State} (a : Fin 512) (q : BitVec 32) (sb : Bool) (hsynced : s.wm.role ≠ .synced)
    (hcoasting : s.wm.role ≠ .coasting) : s.mismatchSeen a q sb = s.wmTake (.mismatch a q sb) := by
  unfold State.mismatchSeen
  split
  · contradiction
  · contradiction
  · rfl

theorem mismatchSeen_detaches {s : State} (a : Fin 512) (q : BitVec 32) (sb : Bool) (hrole : s.wm.role = .synced ∨ s.wm.role = .coasting) :
    s.mismatchSeen a q sb = s.detach 0x02 := by
  obtain h | h := hrole <;> simp [State.mismatchSeen, h]

theorem mismatch_eq (a : Sender (Fin 512)) (q : BitVec 32) (sb : Bool) (c0 c1 : BitVec 32) :
    execMismatch a q sb c0 c1 = act fun s => s.wmReport a.epoch fun s => s.mismatchSeen a.agent q sb := rfl

theorem mismatch_detaches {s : State} {ep : BitVec 32} (a : Fin 512) (q : BitVec 32) (sb : Bool) (c0 c1 : BitVec 32)
    (hup : s.memberUp = true) (hrole : s.wm.role = .synced ∨ s.wm.role = .coasting) (hlow : ep.toNat ≤ s.wm.epoch) :
    execMismatch ⟨ep, a⟩ q sb c0 c1 s = .next (commit s ((s.sawEpoch ep).detach 0x02)) := by
  have hsaw : (s.sawEpoch ep).wm.role = .synced ∨ (s.sawEpoch ep).wm.role = .coasting := hrole
  rw [mismatch_eq]
  exact act_of_effect ((wmReport_taken _ hup (.inr hlow)).trans (mismatchSeen_detaches a q sb hsaw))

/-! ### Cycles (R392, R394) -/

section
variable {s : State} (hup : s.memberUp = true)
include hup

theorem managementCycle_active (hrole : s.wm.role = .active) (hnew : s.wm.sh.cycle < s.cycleNow) :
    execManagementCycle s = .next (commit s (s.activeCycle s.cycleNow)) := by
  refine act_of_effect ((if_neg (by simp [hup])).trans ?_)
  rw [hrole]
  exact if_pos hnew

theorem commandResend_resends {m : Fin 512} {q : BitVec 32} {c : WmCommand}
    (hrole : s.wm.role = .active ∨ s.wm.role = .synced ∨ s.wm.role = .coasting)
    (hfind : (s.wm.sh.outstanding.find? fun c => decide (c.agent = m.val ∧ c.seq = q.toNat ∧ c.seq ≠ 0)) = some c)
    (hdue : c.cycle + 10 ≤ s.wm.sh.cycle) :
    execCommandResendTimeout m q s = .next (commit s
      ((s.updSh fun w => { w with outstanding := w.outstanding.erase c }).wmCommand c.agent c.type.toNat c.body)) := by
  refine act_of_effect ((if_neg (by simp [hup]; tauto)).trans ?_)
  rw [hfind]
  exact if_neg (Nat.not_lt.mpr hdue)

theorem copyMidpoint_coasts (hrole : s.wm.role = .synced ∨ s.wm.role = .coasting)
    (hdue : 100000 * (s.wm.sh.cycle + 1) + 50000 ≤ s.time.tick) :
    execCopyMidpoint s = .next (commit s
      (let u := (forEach s.wm.inputs (fun (s : State) i => s.wmApply i)
          { s with wm := { s.wm with role := .coasting, coasts := s.wm.coasts + 1 } }).runCycle (s.wm.sh.cycle + 1)
        if 31 ≤ s.wm.coasts then u.detach 0x03 else u)) :=
  act_of_effect (if_neg (by simp [hup, Nat.not_lt.mpr hdue]; tauto))

theorem stateQuery_ends {t : Nat} (hwait : s.wm.queryWait = some t) (hdue : t ≤ s.now) :
    execStateQueryTimeout s = .next (commit s (State.queryDone { s with wm := { s.wm with queryLeft := [] } })) := by
  rw [execStateQueryTimeout, act_eq, hwait]
  exact congrArg (fun t => Host.Outcome.next (commit s t)) (if_pos ⟨hup, hdue⟩)

theorem agentAnswer_taken (m : Fin 512) {env : BitVec 256} (body : List (BitVec 8)) (hanswer : eAnswer env = true)
    (hrole : s.wm.role = .active) (hlow : (eEpoch env).toNat ≤ s.wm.epoch) (hstale : eResult env ≠ arStale)
    (hlease : eResult env ≠ arNoLease) (htype : eType env ≠ 0x0D) :
    execAgentAnswer m env body s = .next (commit s ((s.sawEpoch (eEpoch env)).wmTake
      (.answer m (BitVec.ofNat 8 (eResult env)) (BitVec.ofNat 32 (eSeq env))))) := by
  refine act_of_effect ((if_neg (by simp [hup, hanswer])).trans ?_)
  rw [hrole]
  exact (if_neg (by simp [hstale, hlease, hlow])).trans (if_neg fun h => htype h.1)

end

/-! ### Messages of the pair (R286, R401 to R404) -/

section
variable {s : State} (f : State → State) (hup : s.memberUp = true)
include hup

theorem pairTake_live (hlive : s.pairLive = true) : s.pairTake f = f s := by
  simp only [State.pairLive, Bool.and_eq_true, decide_eq_true_eq] at hlive
  obtain ⟨huser, hpair⟩ := hlive
  exact (if_neg (by simp [agentUp_of_memberUp hup, hpair])).trans ((if_neg (not_not.mpr huser)).trans (if_pos hup))

/-- With another user of the pair port a message is dropped and counted (R286). -/
theorem pairTake_dropped (hpair : s.fab.pairUp = true) (huser : s.fab.pairUser ≠ 1) :
    s.pairTake f = { s with cnt := { s.cnt with pairDrop := satAdd 8 s.cnt.pairDrop 1 } } :=
  (if_neg (by simp [agentUp_of_memberUp hup, hpair])).trans (if_pos huser)

/-- Such a message has no other effect. -/
theorem pairMessage_dropped {f} {c : Instr} (hpair : s.fab.pairUp = true) (huser : s.fab.pairUser ≠ 1)
    (hexec : exec c = act fun t => t.pairTake f) :
    exec c s = .next (commit s { s with cnt := { s.cnt with pairDrop := satAdd 8 s.cnt.pairDrop 1 } }) := by
  rw [hexec]
  exact act_of_effect (pairTake_dropped f hup hpair huser)

section
variable (hlive : s.pairLive = true)
include hlive

/-- The inputs of a COPY whose last part comes in (R402). -/
def State.copyInputs (s : State) (n : Nat) (is : List WmInput) : List WmInput :=
  (if s.wm.copyCycle = some n then s.wm.copied else []) ++ is

/-- A COPY has come in whole: no input of it is kept (R402). -/
def State.copyWhole (s : State) (ep : BitVec 32) : State :=
  { s with wm := { s.wm with copied := [], copyCycle := none, epoch := max s.wm.epoch ep.toNat } }

theorem pairCopy_synced {n : BitVec 64} (ep : BitVec 32) {d : BitVec 64} (d' : BitVec 64) (is : List WmInput)
    (hrole : s.wm.role = .synced) (hcycle : n.toNat = s.wm.sh.cycle) (hdigest : d = s.wm.digest) :
    execPairCopy n ep d d' is true s = .next (commit s
      ((forEach (s.copyInputs n.toNat is) (fun (s : State) i => s.wmApply i)
        (State.pairMsg { s.copyWhole ep with wm := { (s.copyWhole ep).wm with role := .synced, coasts := 0 } } 0x02
          (leBytes 8 n.toNat ++ leBytes 8 s.wm.digest.toNat))).runCycle (n.toNat + 1))) := by
  refine act_of_effect ((pairTake_live _ hup hlive).trans ((if_neg (by simp [hrole])).trans ?_))
  exact (if_neg Bool.noConfusion).trans <| (if_neg (by omega)).trans <| (if_neg (not_not.mpr hcycle)).trans <| if_neg (not_not.mpr hdigest)

theorem copyAck_active {n : BitVec 64} (d : BitVec 64) (hrole : s.wm.role = .active) (hstandby : s.wm.standby = true)
    (hcycle : n.toNat + 1 = s.wm.sh.cycle) :
    execCopyAck n d s = .next (commit s
      (if d = s.wm.prevDigest then s.releaseReplies n.toNat else { s with wm := { s.wm with standby := false } })) :=
  act_of_effect ((pairTake_live _ hup hlive).trans (if_neg (by simp [hrole, hstandby, hcycle])))

theorem joinReq_active (hrole : s.wm.role = .active) (hstay : s.wm.sh.stayDetached = false) :
    execJoinReq s = .next (commit s { s with wm := { s.wm with joinAsked := true } }) :=
  act_of_effect ((pairTake_live _ hup hlive).trans (if_pos ⟨hrole, by simp [hstay]⟩))

theorem detach_active (cause : BitVec 8) (hrole : s.wm.role = .active) :
    execDetach cause s = .next (commit s
      (let ds := (s.wm.sh.detaches.filter fun d => decide (s.wm.sh.cycle < d + 600000)) ++ [s.wm.sh.cycle]
        let u := s.updSh fun w => { w with detaches := ds, stayDetached := decide (3 ≤ ds.length) }
        { u with wm := { u.wm with standby := false } })) :=
  act_of_effect ((pairTake_live _ hup hlive).trans (if_neg (not_not.mpr hrole)))

/-- The pieces of a full copy of a cycle, with this one in the place of one of its index (R403). -/
def State.fullWith (s : State) (n i : Nat) (piece : List Byte) : List (Nat × List Byte) :=
  (if s.wm.copyCycle = some n then s.wm.fullParts.filter (fun e => e.1 ≠ i) else []) ++ [(i, piece)]

/-- A whole full copy is applied (R403). -/
def State.fullApplied (s : State) (n : Nat) (parts : List (Nat × List Byte)) : State :=
  let u : State := { s with wm := { s.wm with fullParts := parts, copyCycle := some n } }
  match Config.wmDecode ((sortBy (·.1) parts).flatMap (·.2)) with
  | none => { s with wm := { s.wm with fullParts := [], copyCycle := none } }
  | some (plan, w) =>
    let v := match plan with
      | some p => if s.flash.plan = some p then u else u.putPlan p
      | none => u
    { v with wm := { v.wm with
      role := .synced, sh := w, digest := Config.wmDigest w, prevDigest := 0, epoch := s.agent.epoch.toNat, fullParts := [],
      copyCycle := none, inputs := [], coasts := 0 } }

section
variable {n : BitVec 64} {i count : Nat} {piece : List (BitVec 8)} (hrole : s.wm.role = .joining)
include hrole

theorem fullCopy_kept (hpart : (s.fullWith n.toNat i piece).length < count) :
    execFullCopy n i count piece s = .next (commit s
      { s with wm := { s.wm with fullParts := s.fullWith n.toNat i piece, copyCycle := some n.toNat } }) :=
  act_of_effect ((pairTake_live _ hup hlive).trans ((if_neg (not_not.mpr hrole)).trans (if_pos hpart)))

theorem fullCopy_applied (hall : count ≤ (s.fullWith n.toNat i piece).length) :
    execFullCopy n i count piece s = .next (commit s (s.fullApplied n.toNat (s.fullWith n.toNat i piece))) :=
  act_of_effect ((pairTake_live _ hup hlive).trans ((if_neg (not_not.mpr hrole)).trans (if_neg (Nat.not_lt.mpr hall))))

end
end
end

/-! ### Operator commands (R386) -/

/-- An operator command that the active executes, if it is signed. -/
theorem opRow_executed {s : State} {code : Nat} {h : BitVec 256} {b p : List Byte} {sig : BitVec 512} {c : Instr}
    (hexec : exec c = act fun t => t.opRow code h b sig) (hgood : s.operates code h b p) :
    exec c s = s.opOutcome (s.opExec h b) h b p sig := by
  rw [hexec]
  exact act_of_effect (opRow_of_operates hgood sig)

/-- Settles O38: reports, cycles, the messages of the pair, answers, and operator commands. -/
theorem watermasterMembersAct : Obligations.WatermasterMembersAct := by
  unfold Obligations.WatermasterMembersAct
  intro s hup
  refine ⟨?_, ?_, ?_, ?_, ?_, ?_, ?_, ?_, ?_, ?_, ?_, ?_, ?_, ?_, ?_, ?_, ?_, ?_⟩
  · exact fun ep a r q l => report_acts hup rfl rfl
  · exact fun ep a v => report_acts hup rfl rfl
  · exact fun ep a c st d pr => report_acts hup rfl rfl
  · exact fun ep a u q l => report_acts hup rfl rfl
  · intro ep a q sb c0 c1 hsynced hcoasting
    exact report_acts hup (mismatch_eq ⟨ep, a⟩ q sb c0 c1) (mismatchSeen_takes (s := s.sawEpoch ep) a q sb hsynced hcoasting)
  · exact fun ep a q sb c0 c1 hrole hlow => mismatch_detaches a q sb c0 c1 hup hrole hlow
  · exact fun hrole hnew => managementCycle_active hup hrole hnew
  · exact fun m q c hrole hfind hdue => commandResend_resends hup hrole hfind hdue
  · exact fun n ep d d' is hlive hrole hcycle hdigest => pairCopy_synced hup hlive ep d' is hrole hcycle hdigest
  · exact fun hrole hdue => copyMidpoint_coasts hup hrole hdue
  · exact fun n d hlive hrole hstandby hcycle => copyAck_active hup hlive d hrole hstandby hcycle
  · exact fun hlive hrole hstay => joinReq_active hup hlive hrole hstay
  · exact fun n i count piece hlive hrole =>
      ⟨fun hpart => fullCopy_kept hup hlive hrole hpart, fun hall => fullCopy_applied hup hlive hrole hall⟩
  · exact fun cause hlive hrole => detach_active hup hlive cause hrole
  · exact fun t hwait hdue => stateQuery_ends hup hwait hdue
  · exact fun m env body hanswer hrole hlow hstale hlease htype =>
      agentAnswer_taken hup m body hanswer hrole hlow hstale hlease htype
  · exact fun hpair huser => ⟨fun _ _ _ _ _ _ => pairMessage_dropped hup hpair huser rfl,
      fun _ _ => pairMessage_dropped hup hpair huser rfl, pairMessage_dropped hup hpair huser rfl,
      fun _ _ _ _ => pairMessage_dropped hup hpair huser rfl, fun _ => pairMessage_dropped hup hpair huser rfl⟩
  · exact fun h b p sig => ⟨opRow_executed rfl, opRow_executed rfl, opRow_executed rfl, opRow_executed rfl, opRow_executed rfl,
      opRow_executed rfl, opRow_executed rfl, opRow_executed rfl, opRow_executed rfl, opRow_executed rfl, opRow_executed rfl,
      opRow_executed rfl, opRow_executed rfl, opRow_executed rfl, opRow_executed rfl⟩

end Sys2Proof.Machine

/-! ## Operator commands (R366, R367, R371, R374 to R388, R411, R437) -/

namespace Sys2Proof.Machine

/-! ### The arms of an operator command -/

section
variable {s : State} {h : BitVec 256} {b p : List Byte}

theorem opExec_planLoad (hgood : s.operates 0x01 h b p) :
    s.opExec h b = if s.wm.sh.changing then s.busy h
      else (s.planReason b).elim ((s.takePlan b).done h []) fun k => s.answer h opRefused k 0 [] := by
  obtain ⟨-, -, -, -, hcode, -, -, -, -, -, hok⟩ := hgood
  rw [State.opExec, if_neg (by simp [hok]), hcode]
  cases s.planReason b <;> rfl

theorem opExec_planGet (hgood : s.operates 0x02 h b p) : s.opExec h b = s.answer h opOk 0 0 p := by
  obtain ⟨-, -, -, -, hcode, -, -, hplan, -, -, hok⟩ := hgood
  rw [State.opExec, if_neg (by simp [hok]), hcode, hplan]
  rfl

theorem opExec_planAccept (hgood : s.operates 0x03 h b p) :
    s.opExec h b = if word32 b 0 ≠ planRev p then s.answer h opRefused rjRevision 0 [] else if s.wm.sh.changing then s.busy h
      else (s.takePlan (acceptedPlan p s.wm.sh)).done h (acceptedPlan p s.wm.sh) := by
  obtain ⟨-, -, -, -, hcode, -, -, hplan, -, -, hok⟩ := hgood
  rw [State.opExec, if_neg (by simp [hok]), hcode, hplan]
  rfl

theorem opExec_topoGet (hgood : s.operates 0x04 h b p) : s.opExec h b = s.answer h opOk 0 0 s.topoBytes := by
  obtain ⟨-, -, -, -, hcode, -, -, -, -, -, hok⟩ := hgood
  rw [State.opExec, if_neg (by simp [hok]), hcode]
  rfl

theorem opExec_findingsGet (hgood : s.operates 0x05 h b p) :
    s.opExec h b = s.answer h opOk 0 0 ((s.wm.sh.findings.flatMap fun f => findingBytes f true)
      ++ (s.wm.sh.log.drop (word32 b 0)).flatMap fun f => findingBytes f false) := by
  obtain ⟨-, -, -, -, hcode, -, -, -, -, -, hok⟩ := hgood
  rw [State.opExec, if_neg (by simp [hok]), hcode]
  rfl

theorem opExec_sliceList (hgood : s.operates 0x09 h b p) :
    s.opExec h b = s.answer h opOk 0 0 (s.wm.sh.slices.flatMap fun r => leBytes 32 r.toNat) := by
  obtain ⟨-, -, -, -, hcode, -, -, -, -, -, hok⟩ := hgood
  rw [State.opExec, if_neg (by simp [hok]), hcode]
  rfl

theorem opExec_wmStatus (hgood : s.operates 0x0E h b p) : s.opExec h b = s.answer h opOk 0 0 s.wmStatus := by
  obtain ⟨-, -, -, -, hcode, -, -, -, -, -, hok⟩ := hgood
  rw [State.opExec, if_neg (by simp [hok]), hcode]
  rfl

/-- The rack budgets that a BUDGET_SET names are held (R437). -/
def State.budgetsHeld (s : State) (b : List Byte) : State :=
  s.updSh fun w => { w with budgets := (List.range 8).foldl (fun (t : Sparse Nat) r =>
    if word32 b r = 0 then t else sset 0 t r (word32 b r)) w.budgets }

theorem opExec_budgetSet (hgood : s.operates 0x0F h b p) :
    s.opExec h b = (s.budgetsHeld b).done h (s.budgetsHeld b).budgetBytes := by
  obtain ⟨-, -, -, -, hcode, -, -, -, -, -, hok⟩ := hgood
  rw [State.opExec, if_neg (by simp [hok]), hcode]
  rfl

/-! ### Slices (R376 to R384) -/

theorem opChange_plan (f : List Byte → State) (hplan : s.flash.plan = some p) :
    s.opChange h f = if 16 ≤ s.wm.sh.changes.length then s.busy h else f p := by
  rw [State.opChange, hplan]

theorem opExec_sliceCarve (hgood : s.operates 0x06 h b p) :
    s.opExec h b = if 16 ≤ s.wm.sh.changes.length then s.busy h else s.opCarve p h b := by
  obtain ⟨-, -, -, -, hcode, -, -, hplan, -, -, hok⟩ := hgood
  rw [State.opExec, if_neg (by simp [hok]), hcode]
  exact opChange_plan _ hplan

theorem opExec_sliceFlows (hgood : s.operates 0x07 h b p) :
    s.opExec h b = if 16 ≤ s.wm.sh.changes.length then s.busy h else s.opFlows p h b := by
  obtain ⟨-, -, -, -, hcode, -, -, hplan, -, -, hok⟩ := hgood
  rw [State.opExec, if_neg (by simp [hok]), hcode]
  exact opChange_plan _ hplan

theorem opExec_sliceFree (hgood : s.operates 0x08 h b p) :
    s.opExec h b = if 16 ≤ s.wm.sh.changes.length then s.busy h else s.opFree p h b := by
  obtain ⟨-, -, -, -, hcode, -, -, hplan, -, -, hok⟩ := hgood
  rw [State.opExec, if_neg (by simp [hok]), hcode]
  exact opChange_plan _ hplan

/-- The record that a SLICE_CARVE carries (R376). -/
def carveRecord (b : List Byte) : BitVec 256 := BitVec.ofNat 256 (leNat b)

theorem opCarve_refused {k i : Nat}
    (hreason : carveReason p s.wm.sh s.holderIdx (s.viewAhead p).slices (carveRecord b) = some (k, i)) :
    s.opCarve p h b = s.answer h opRefused k i [] := by
  unfold carveRecord at hreason
  rw [State.opCarve, hreason]

section
variable (hreason : carveReason p s.wm.sh s.holderIdx (s.viewAhead p).slices (carveRecord b) = none)
include hreason

theorem opCarve_single {y : Nat} {ys : List Nat} (hids : freeIds (s.viewAhead p).slices = y :: ys)
    (hone : bitAt (carveRecord b) 18 = false) :
    s.opCarve p h b = s.queueChange h (.carve (putField (carveRecord b) 64 8 y) none h) := by
  unfold carveRecord at *
  rw [State.opCarve, hreason, hids, hone]

theorem opCarve_twin {y z : Nat} {ys : List Nat} (hids : freeIds (s.viewAhead p).slices = y :: z :: ys)
    (htwo : bitAt (carveRecord b) 18 = true) :
    s.opCarve p h b = s.queueChange h (.carve (putField (putField (carveRecord b) 64 8 y) 72 8 z)
      (some (twinRec (putField (putField (carveRecord b) 64 8 y) 72 8 z))) h) := by
  unfold carveRecord at *
  rw [State.opCarve, hreason, hids, htwo]

theorem opCarve_noId (hfew : (freeIds (s.viewAhead p).slices).length < if bitAt (carveRecord b) 18 then 2 else 1) :
    s.opCarve p h b = s.answer h opRefused rjNoId 0 [] := by
  unfold carveRecord at *
  rw [State.opCarve, hreason]
  cases hone : bitAt (BitVec.ofNat 256 (leNat b)) 18 with
  | false =>
    have hnil : freeIds (s.viewAhead p).slices = [] := List.length_eq_zero_iff.mp (by simpa [hone] using hfew)
    rw [hnil]
  | true =>
    rw [hone] at hfew
    match hids : freeIds (s.viewAhead p).slices with
    | [] => rfl
    | [_] => rfl
    | _ :: _ :: _ => simp [hids] at hfew

end

/-- The answer to a SLICE_FREE where fewer than 16 changes wait (R384). -/
theorem opFree_eq : s.opFree p h b =
    (let y := word32 b 0 % 2 ^ 8
      let force := bitAt (BitVec.ofNat 32 (word32 b 0)) 8
      let goes (r : BitVec 256) : Bool := decide (fieldNat r 71 64 = y) || (decide (fieldNat r 79 72 = y) && decide (y ≠ 0))
      let u := (s.queueChange h (.free y h)).updSh fun w =>
        { w with slices := w.slices.map fun r => if goes r then putField r 80 2 2 else r }
      if ((s.viewAhead p).slices.any fun r => decide (fieldNat r 71 64 = y)) = false then s.answer h opBad 0 0 []
      else if force = false ∧ s.holdsSlice y = true then s.busy h
      else if force then forEach (u.wm.sh.slices.filter goes) (fun s r => s.tellSlice r 0) u else u) := by
  simp only [State.opFree, Bool.not_eq_true']

/-! ### Commands at one module (R282, R294, R388, R463) -/

/-- What is done at the module that the payload names, or BAD where it names none. -/
def State.atEnd (s : State) (h : BitVec 256) (b : List Byte) (f : Nat → State) : State :=
  ((s.endIdx (word32 b 0)).map f).getD (s.answer h opBad 0 0 [])

theorem opExec_moduleClear (hgood : s.operates 0x0A h b p) :
    s.opExec h b = s.atEnd h b fun k =>
      let u := s.updSh fun w => { w with stayDetached := false, detaches := [] }
      (if s.endOf k = s.ownEnd then u.clearLatch else u.towMessage (s.endOf k) (leBytes 32 h.toNat ++ b)).done h [] := by
  obtain ⟨-, -, -, -, hcode, -, hrole, -, -, -, hok⟩ := hgood
  rw [State.opExec, if_neg (by simp [hok]), hcode, State.atEnd]
  cases s.endIdx (word32 b 0) with
  | none => rfl
  | some k => simp [hrole]

theorem opExec_portRelease (hgood : s.operates 0x0B h b p) :
    s.opExec h b = s.atEnd h b fun k =>
      if word32 b 0 / 2 ^ 9 % 8 = 7 then s.answer h opBad 0 0 []
      else (s.wmCommand k 0x0A (leBytes 1 (word32 b 0 / 2 ^ 9 % 8))).done h [] := by
  obtain ⟨-, -, -, -, hcode, -, -, -, -, -, hok⟩ := hgood
  rw [State.opExec, if_neg (by simp [hok]), hcode, State.atEnd]
  cases s.endIdx (word32 b 0) <;> rfl

theorem opExec_moduleReset (hgood : s.operates 0x0C h b p) :
    s.opExec h b = s.atEnd h b fun k =>
      (s.towCommand 0x06 (s.endOf k) (s.wm.epoch % 2 ^ 32 + word32 b 0 / 2 ^ 16 * 2 ^ 32)).done h [] := by
  obtain ⟨-, -, -, -, hcode, -, hrole, -, -, -, hok⟩ := hgood
  rw [State.opExec, if_neg (by simp [hok]), hcode, State.atEnd]
  cases s.endIdx (word32 b 0) with
  | none => rfl
  | some k => simp [hrole]

theorem opExec_moduleFreeze (hgood : s.operates 0x0D h b p) :
    s.opExec h b = s.atEnd h b fun k => (s.towCommand 0x05 (s.endOf k) (s.wm.epoch % 2 ^ 32)).done h [] := by
  obtain ⟨-, -, -, -, hcode, -, hrole, -, -, -, hok⟩ := hgood
  rw [State.opExec, if_neg (by simp [hok]), hcode, State.atEnd]
  cases s.endIdx (word32 b 0) with
  | none => rfl
  | some k => simp [hrole]

end

/-! ### The rows -/

/-- The row of an operator command, from what it does when executed. -/
theorem opRow_does {s u : State} {code : Nat} {h : BitVec 256} {b p : List Byte} {sig : BitVec 512} {c : Instr}
    (hexec : exec c = act fun t => t.opRow code h b sig) (hdo : s.operates code h b p → s.opExec h b = u) (hgood : s.operates code h b p) :
    exec c s = s.opOutcome u h b p sig :=
  (opRow_executed hexec hgood).trans (congrArg (fun t => s.opOutcome t h b p sig) (hdo hgood))

/-- Settles O39: each operator command does what its arm says. -/
theorem operatorCommandsRun : Obligations.OperatorCommandsRun := by
  unfold Obligations.OperatorCommandsRun
  intro s h b p sig row x bad refused at_ v
  refine ⟨?_, ?_, ?_, ?_, ?_, ?_, ?_, ?_, ?_, ?_, ?_, ?_, ?_, ?_, ?_⟩
  · refine opRow_does rfl fun hgood => (opExec_planLoad hgood).trans ?_
    cases s.planReason b <;> rfl
  · exact opRow_does rfl opExec_planGet
  · exact opRow_does rfl opExec_planAccept
  · exact opRow_does rfl opExec_topoGet
  · exact opRow_does rfl opExec_findingsGet
  · refine ⟨fun hfull => ?_, fun hroom => ?_⟩
    · exact opRow_does rfl fun hgood => (opExec_sliceCarve hgood).trans (if_pos hfull)
    · have hcarve {u : State} (hu : s.opCarve p h b = u) : row 0x06 (.sliceCarve h b sig) u :=
        opRow_does rfl fun hgood => (opExec_sliceCarve hgood).trans ((if_neg (Nat.not_le.mpr hroom)).trans hu)
      exact ⟨fun k i hreason => hcarve (opCarve_refused hreason), fun hreason =>
        ⟨fun y ys hids hone => hcarve (opCarve_single hreason hids hone),
          fun y z ys hids htwo => hcarve (opCarve_twin hreason hids htwo), fun hfew => hcarve (opCarve_noId hreason hfew)⟩⟩
  · exact opRow_does rfl opExec_sliceFlows
  · refine opRow_does rfl fun hgood => (opExec_sliceFree hgood).trans ?_
    rw [opFree_eq]
  · exact opRow_does rfl opExec_sliceList
  · exact opRow_does rfl opExec_moduleClear
  · exact opRow_does rfl opExec_portRelease
  · exact opRow_does rfl opExec_moduleReset
  · exact opRow_does rfl opExec_moduleFreeze
  · exact opRow_does rfl opExec_wmStatus
  · exact opRow_does rfl opExec_budgetSet

end Sys2Proof.Machine

/-! ## The fabric (R279, R313, R317, R328) -/

namespace Sys2Proof.Machine

/-! ### Packets (R313, R316) -/

theorem comeIn_eq (s : State) (port vc : Nat) (arriving : Option Packet) (marker : Option (BitVec 64)) :
    s.comeIn port vc ⟨arriving, marker⟩ = if port < 6 then
      (let v := (marker.map fun m => s.takeMarker port m).getD s;
        (arriving.map fun q => v.arrivePacket port vc q).getD v) else s := by
  unfold State.comeIn
  split
  case isTrue hlocal => rw [if_neg (Nat.not_lt.mpr hlocal)]
  case isFalse hport =>
    rw [if_pos (Nat.not_le.mp hport)]
    cases marker <;> cases arriving <;> rfl

theorem packetRoute_routes {s : State} (port : Fin 7) (vc : Fin 6) {arriving : Option Packet} (marker : Option (BitVec 64))
    (hup : s.agentUp = true) (hgood : ∀ q : Packet, arriving = some q → Sys2Proof.payloadOk 4096 4 q.payload = true) :
    execPacketRoute port vc ⟨arriving, marker⟩ s
      = .next (commit s (((s.comeIn port vc ⟨arriving, marker⟩).routeOne port vc).afterRoute port vc)) := by
  refine actIf_of_effect ?_ (if_neg (by simp [hup]))
  cases arriving with
  | none => rfl
  | some q => exact hgood q rfl

/-! ### Reductions (R328) -/

section
variable {s : State} (hup : s.agentUp = true)
include hup

theorem reductionContribution_merged {port : Fin 7} {vc : Fin 6} {b : Buffered} {rest : List Buffered} {u : State}
    (hhead : s.redHead port vc = some (b, rest)) (hmerge : s.redMerge port b = (u, true)) :
    execReductionContribution port vc s = .next (commit s (((u.setVc port vc rest).ticketLeft b.tkt).afterRoute port vc)) := by
  refine act_of_effect ?_
  rw [if_pos hup, hhead]
  dsimp only
  rw [hmerge]

theorem reductionTimeout_sends {e : Fin 64} (hused : (sget ({} : RedEntry) s.fab.red e).used = true)
    (hwaits : (sget ({} : RedEntry) s.fab.red e).sentAt = none) (hdue : (sget ({} : RedEntry) s.fab.red e).at_ + s.redTicks ≤ s.now) :
    execReductionTimeout e s = .next (commit s (s.redSend e).settleDrained) :=
  act_of_effect (if_pos ⟨hup, hused, Option.isNone_iff_eq_none.mpr hwaits, hdue⟩)

theorem reductionNoEntry_passes {port : Fin 7} {vc : Fin 6} {b : Buffered} {rest : List Buffered} {u : State}
    (hhead : s.redHead port vc = some (b, rest)) (hfind : s.redFind b.pkt.hdr = none) (hfree : s.redFree = none)
    (hdue : b.at_ + usTicks 1 ≤ s.now) (hout : s.redOut port { b.pkt with hdr := putField b.pkt.hdr 40 8 (hTtl b.pkt.hdr - 1) } = some u) :
    execReductionNoEntryTimeout port vc s = .next (commit s (((u.setVc port vc rest).ticketLeft b.tkt).afterRoute port vc)) := by
  have hwaited : ¬((s.redFind b.pkt.hdr).isSome ∨ s.redFree.isSome ∨ s.now < b.at_ + usTicks 1) := by
    simp [hfind, hfree, Nat.not_lt.mpr hdue]
  rw [reductionNoEntry_waited ((if_pos hup).trans hhead) hwaited, hout]

/-! ### Flow states of a neighbour (R317, R318) -/

theorem flowStateLcb_learned {p : Fin 6} {b : BitVec 512} (hon : s.portOn p = true) (hours : (s.port p).foreign = false)
    (hok : lcbOk b 0 = true) :
    execFlowStateLcb p b s = .next (commit s { s with fab := { s.fab with learned := [2, 3, 4, 5].foldl (fun m n =>
      sset (FlowSt.off, 0) m (6 * p.val + n) (flowOf (decide (4 ≤ n)) (fieldNat b (2 * n + 1) (2 * n)), s.now)) s.fab.learned } }) :=
  act_of_effect (if_neg (by simp [hup, hon, hours, hok]))

end

/-- Settles O32: packets, reductions and flow states. -/
theorem fabricRoutes : Obligations.FabricRoutes := by
  unfold Obligations.FabricRoutes
  intro s port vc hup
  refine ⟨?_, ?_, ?_, ?_, ?_⟩
  · intro arriving marker hgood
    have hroute := packetRoute_routes port vc marker hup hgood
    rw [comeIn_eq] at hroute
    exact hroute
  · exact fun b rest u hhead hmerge => reductionContribution_merged hup hhead hmerge
  · exact fun e hused hwaits hdue => reductionTimeout_sends hup hused hwaits hdue
  · exact fun b rest u hhead hfind hfree hdue hout => reductionNoEntry_passes hup hhead hfind hfree hdue hout
  · exact fun p b hon hours hok => flowStateLcb_learned hup hon hours hok

end Sys2Proof.Machine

/-! ## End to end (R322 to R324, R327, R329, R356, R358) -/

namespace Sys2Proof.Machine

section
variable {s : State} (hup : s.agentUp = true)
include hup

/-- An acknowledgement is taken in: with marks the sluice rises, and what may be sent is sent (R322, R329). -/
def State.ackTaken (u : State) (a : BitVec 128) : State := (if fieldNat a 31 16 ≠ 0 then u.sluiceRise else u).pumpInject

theorem ackReceived_unicast (m : Fin 512) {a : BitVec 128} (hkind : fieldNat a 1 0 = 0) :
    execAckReceived m a s = .next (commit s ((s.ackUnicast m a).ackTaken a)) := by
  refine act_of_effect ((if_neg (by simp [hup])).trans ?_)
  rw [hkind]
  rfl

theorem ackReceived_tree (m : Fin 512) {a : BitVec 128} (hkind : fieldNat a 1 0 = 1) :
    execAckReceived m a s = .next (commit s ((s.ackTree m a).ackTaken a)) := by
  refine act_of_effect ((if_neg (by simp [hup])).trans ?_)
  rw [hkind]
  rfl

theorem ackTimer_sends (m : Fin 512) :
    execAckTimer m s = .next (commit s
      (let u := if (s.dstOf false m).due s.now s.ackTicks then s.sendAck false m else s;
        forEach ((u.fab.treeDst.filter fun e => decide (e.1 / 4096 = m.val) && e.2.due s.now s.ackTicks).map (·.1))
          (fun s k => s.sendAck true k) u)) :=
  act_of_effect (if_neg (by simp [hup]))

theorem resendTimer_module (m : Fin 512) : execResendTimer (.dst m) s = .next (commit s (s.resendModule m).pumpInject) :=
  act_of_effect (if_neg (by simp [hup]))

theorem resendTimer_tree (k : BitVec 12) : execResendTimer (.tree k) s = .next (commit s (s.resendTree k.toNat).pumpInject) :=
  act_of_effect (if_neg (by simp [hup]))

/-! ### Prunes (R327, R358) -/

/-- A tree without one of its modules, from a seq on (R358). -/
def E2eSrc.withoutModule (t : E2eSrc) (seq : BitVec 32) (m : Fin 512) : E2eSrc :=
  let later (q : Nat) : Bool := decide ((q + 2 ^ 32 - seq.toNat) % 2 ^ 32 < 2 ^ 31)
  { t with awaited := t.awaited.filter (fun a => !(a.2 = m.val && later a.1)), pruned := t.pruned ++ [m.val] }

/-- A module is pruned from a tree, and the prune is counted (R358). -/
def State.treePruned (s : State) (k : BitVec 12) (seq : BitVec 32) (m : Fin 512) : State :=
  let v := s.putTree k.toNat ((((s.treeOf k.toNat).withoutModule seq m).settleTree).rearm s.resendTicks)
  { v with cnt := { v.cnt with pruned := satAdd 16 v.cnt.pruned 1 } }

section
variable {k : BitVec 12} {seq : BitVec 32} {m : Fin 512} (hfresh : (s.treeOf k.toNat).pruned.contains m.val = false)
include hfresh

theorem pruneNotice_acts : ¬((!s.agentUp) = true ∨ (s.treeOf k.toNat).pruned.contains m.val = true) := by
  simp only [hup, hfresh]
  simp

theorem pruneNotice_noCopy (hfind : (s.treeOf k.toNat).unacked.find? (fun u => u.1 = seq.toNat) = none) :
    execPruneNotice k seq m s = .next (commit s (s.treePruned k seq m).pumpInject) := by
  refine act_of_effect ((if_neg (pruneNotice_acts hup hfresh)).trans ?_)
  dsimp only
  rw [hfind]
  rfl

theorem pruneNotice_copy {e : Nat × Packet × Nat} (hfind : (s.treeOf k.toNat).unacked.find? (fun u => u.1 = seq.toNat) = some e) :
    execPruneNotice k seq m s = .next (commit s
      (State.pumpInject (if (s.ctx (hCtx e.2.1.hdr).toNat).live then
        (s.treePruned k seq m).updCtx (hCtx e.2.1.hdr).toNat fun x => { x with pruned := x.pruned + 1 } else s.treePruned k seq m))) := by
  refine act_of_effect ((if_neg (pruneNotice_acts hup hfresh)).trans ?_)
  dsimp only
  rw [hfind]
  rfl

end
end

/-- Settles O33: acknowledgements, resends, prunes and the sluice's decay. -/
theorem endToEndRuns : Obligations.EndToEndRuns := by
  unfold Obligations.EndToEndRuns
  intro s hup
  refine ⟨?_, ?_, ?_, ?_, ?_, ?_⟩
  · exact fun m a => ⟨fun hkind => ackReceived_unicast hup m hkind, fun hkind => ackReceived_tree hup m hkind⟩
  · exact fun m => ackTimer_sends hup m
  · exact fun m => resendTimer_module hup m
  · exact fun k => resendTimer_tree hup k
  · intro k seq m t hfresh
    exact ⟨fun hfind => pruneNotice_noCopy hup hfresh hfind, fun e hfind => pruneNotice_copy hup hfresh hfind⟩
  · exact fun hdue hfloor => act_of_effect (if_pos ⟨hup, hdue, hfloor⟩)

end Sys2Proof.Machine
